-- ==== Sys2Proof/Word.lean ====
section
/-!
DEFINITION. Word.lean: the fixed widths of the machine as names, and nothing else.
-/
namespace Sys2Proof

/-- A 32-bit register word (R394). -/
abbrev Word32 := BitVec 32
/-- A 64-bit X register or control register (R114). -/
abbrev Word64 := BitVec 64
/-- One byte of memory. -/
abbrev Byte := BitVec 8
/-- A partition index 0 to 7 (R89). -/
abbrev Part := Fin 8
/-- A cluster index 0 to 19 within a partition (R113). -/
abbrev Clu := Fin 20

end Sys2Proof
end

