-- ==== Sys2Proof/Syntax.lean ====
section
/-!
DEFINITION. Syntax.lean: the commands of the block, one constructor per row of spec/opcode_table.json, and their operands.
A Hewer instruction row is the command by which one cluster issues that instruction at its present instruction address.
-/
namespace Sys2Proof

/-- A cluster of the device: partition and cluster index. -/
structure Hart where
  part : Part
  clu : Clu
deriving DecidableEq, Repr

/-- Fields of an INT-R instruction (Table 6-7, format R). -/
structure RArgs where
  rd : BitVec 5
  rs1 : BitVec 5
  rs2 : BitVec 5
deriving DecidableEq, Repr

/-- Fields of format I. -/
structure IArgs where
  rd : BitVec 5
  rs1 : BitVec 5
  imm : BitVec 12
deriving DecidableEq, Repr

/-- Fields of format S. -/
structure SArgs where
  rs2 : BitVec 5
  rs1 : BitVec 5
  imm : BitVec 12
deriving DecidableEq, Repr

/-- Fields of format B. -/
structure BArgs where
  rs1 : BitVec 5
  rs2 : BitVec 5
  imm : BitVec 13
deriving DecidableEq, Repr

/-- Fields of formats U and J. -/
structure UArgs where
  rd : BitVec 5
  imm : BitVec 21
deriving DecidableEq, Repr

/-- Fields of the ATOMIC group (Table 6-11). -/
structure AtomArgs where
  rd : BitVec 5
  rs1 : BitVec 5
  rs2 : BitVec 5
  sz : BitVec 2
  aq : Bool
  rl : Bool
deriving DecidableEq, Repr

/-- Fields of a CSR instruction (Table 6-12). -/
structure CsrArgs where
  rd : BitVec 5
  rs1 : BitVec 5
  csr : BitVec 12
deriving DecidableEq, Repr

/-- Fields of format FR. -/
structure FArgs where
  rd : BitVec 5
  rs1 : BitVec 5
  rs2 : BitVec 5
  rm : BitVec 3
  fmt : BitVec 2
deriving DecidableEq, Repr

/-- Fields of format F4. -/
structure F4Args where
  rd : BitVec 5
  rs1 : BitVec 5
  rs2 : BitVec 5
  rs3 : BitVec 5
  rm : BitVec 3
  fmt : BitVec 2
deriving DecidableEq, Repr

/-- Fields of format V. -/
structure VArgs where
  vd : BitVec 5
  vs1 : BitVec 5
  vs2 : BitVec 5
  z0b : Bool
  z0a : Bool
  masked : Bool
  mask : BitVec 3
deriving DecidableEq, Repr

/-- Fields of VSETVL (R136). -/
structure VsetArgs where
  rd : BitVec 5
  rs1 : BitVec 5
  sew : BitVec 2
  alt : Bool
deriving DecidableEq, Repr

/-- Fields of LV-CVT (R144). -/
structure CvtArgs where
  vd : BitVec 5
  vs1 : BitVec 5
  src : BitVec 5
  dst : BitVec 5
  scaled : Bool
  z0a : Bool
  masked : Bool
  mask : BitVec 3
deriving DecidableEq, Repr

/-- Fields of LV-MEM (R146). -/
structure LvMemArgs where
  vd : BitVec 5
  base : BitVec 5
  idx : BitVec 5
  strm : Bool
  masked : Bool
  mask : BitVec 3
deriving DecidableEq, Repr

/-- Fields of SV-ARITH (R153). -/
structure SvArgs where
  sd : BitVec 5
  ss1 : BitVec 5
  ss2 : BitVec 5
  z0b : Bool
  z0a : Bool
  efmt : BitVec 4
deriving DecidableEq, Repr

/-- Fields of SV-MEM (R153). -/
structure SvMemArgs where
  sd : BitVec 5
  base : BitVec 5
  off : BitVec 5
  strm : Bool
  efmt : BitVec 4
deriving DecidableEq, Repr

/-- Fields of format T (R177, R182). -/
structure TArgs where
  rd : BitVec 5
  rs1 : BitVec 5
  rs2 : BitVec 5
  ta : BitVec 3
  tb : BitVec 3
deriving DecidableEq, Repr

/-- The header of a put as it arrives (Table 5-3); the receiving plat sets LATE. -/
structure PutHdr where
  slot : BitVec 12
  tc : BitVec 8
  kind : BitVec 8
  srcChip : BitVec 6
  srcPart : BitVec 3
  sampleValid : Bool
  sampleKind : Bool
  finalPass : Bool
  reqSeq : BitVec 32
  beatTag : BitVec 32
  pos : BitVec 32
  ntok : BitVec 32
  len : BitVec 32
  sample : BitVec 64
  acceptTs : BitVec 64
  stageData : BitVec 128
deriving DecidableEq, Repr

/-- How a put ends: its payload as it arrived, whether a packet was poisoned, its CRC trailer, if it carries one, and whether it is a put
that was discarded before its end, whose packets the plat has thrown away. -/
structure PutEnd where
  payload : List Byte
  poison : Bool
  trailer : Option (BitVec 64)
  dropped : Bool
deriving DecidableEq, Repr

/-- A result write of an EGRESS stage: the frame's slot, class, sequence number, token position and accept timestamp, and the
bytes it writes at a host address. -/
structure ResultArgs where
  slot : BitVec 12
  tc : BitVec 3
  reqSeq : BitVec 32
  pos : BitVec 32
  acceptTs : BitVec 64
  addr : BitVec 64
  data : List Byte
deriving DecidableEq, Repr

/-- A watermark of Table 3-3. -/
inductive WmId where
  | adm
  | wcb (stack : Fin 8) (group : Fin 4)
  | plat (p : Part)
  | evt
  | lnk (port : Fin 8)
  | guard (tc : Fin 8)
deriving DecidableEq, Repr

/-- Who a memory request comes from, as it arrives at a controller: its CID (Table 13-2), SOURCE code (Table 13-16), source
partition and source chip. -/
structure ReqArgs where
  cid : BitVec 12
  source : BitVec 3
  part : Part
  chip : BitVec 6
deriving DecidableEq, Repr

/-- What a request does at its address: read a number of bytes, or write bytes. -/
inductive MemOp where
  | read (n : Nat)
  | write (data : List Byte)
deriving DecidableEq, Repr

/-- An error a router finds in a packet (R286): none, or at a router, plane and port, a single-bit error, an uncorrectable
payload flit or an uncorrectable head flit. -/
inductive FlitErr where
  | none
  | single (router : BitVec 8) (plane : BitVec 4) (port : BitVec 3)
  | payload (router : BitVec 8) (plane : BitVec 4) (port : BitVec 3)
  | head (router : BitVec 8) (plane : BitVec 4) (port : BitVec 3)
deriving DecidableEq, Repr

/-- A Traverse packet: header (Table 14-3), the address of the line it names, 0 for none (R283), payload, and the error it meets. -/
structure TrvPkt where
  hdr : BitVec 64
  addr : BitVec 52
  data : List Byte
  err : FlitErr
deriving DecidableEq, Repr

/-- A link packet (Table 15-3), its data as packed. -/
structure LinkPkt where
  thdr : BitVec 64
  dstChip : BitVec 6
  srcChip : BitVec 6
  cls : BitVec 2
  sub : Bool
  trl : Bool
  pack : BitVec 2
  pfmt : Bool
  dim : Bool
  data : List Byte
deriving DecidableEq, Repr

/-- A flit as a Col Link receiver gets it: header, payload and CRC (R301), the symbols FEC corrected in it, and whether FEC could not
correct it. -/
structure FlitArgs where
  hdr : BitVec 32
  payload : List Byte
  crc : BitVec 32
  fecCorr : Nat
  fecBad : Bool
deriving DecidableEq, Repr

/-- A put that leaves for another chip. -/
structure RemPutArgs where
  chip : BitVec 6
  part : BitVec 3
  hdr : PutHdr
  payload : List Byte
deriving DecidableEq, Repr

/-- The memory that a patrol scrub read covers a part of: the stack of a partition, or the DDR5 of the far tier (R240, R249). -/
inductive ScrubMem where
  | stack (k : Part)
  | ddr
deriving DecidableEq, Repr

/-- A request for a remote frame token (R310): a put here asks another chip, or partition `src` of another chip asks a plat here. -/
inductive RemToken where
  | ask (a : RemPutArgs)
  | asked (chip : BitVec 6) (src : BitVec 3)
deriving DecidableEq, Repr

/-- The sender of a request from another chip: its chip, its stop there, and the tag of the request. -/
structure RemSrc where
  chip : BitVec 6
  stop : BitVec 9
  tag : BitVec 12
deriving DecidableEq, Repr

/-- A sensor sample of a pair: four stack readings then four die readings, each missing where invalid, and the two Tsumbe readings
(R247, R359). -/
structure SampleArgs where
  readings : List (Option Byte)
  ts : List Byte
deriving DecidableEq, Repr

/-- A register master (20.4): Headframe, the I3C controller, the host's functions, which are one master for arbitration and separate
masters for shadows and held halves, and a cluster that reaches register space (R263). -/
inductive RegMaster where
  | headframe
  | i3c
  | pf
  | vf (v : Fin 8)
  | clu (h : Hart)
deriving DecidableEq, Repr

/-- What arrives from the flash (R369, R374): no valid response, or the bytes of the header, the section table, the signature block or
a section. -/
inductive FlashPiece where
  | none
  | header (b : List Byte)
  | table (b : List Byte)
  | signature (b : List Byte)
  | sect (i : Nat) (b : List Byte)
deriving DecidableEq, Repr

/-- How the training or fetch of a boot step ends: well, with the capacities in GiB of the two DDR5 channels that B5 finds, or with a
hardware fault of Table 19-5. -/
inductive StepRes where
  | ok (ch0 ch1 : BitVec 9)
  | stack
  | far
  | ucie
deriving DecidableEq, Repr

/-- A configuration request: a read of the device or subsystem identity, a write of MSI-X Enable and Function Mask, or any other. -/
inductive CfgOp where
  | device
  | subsystem
  | msixControl (enable mask : Bool)
  | other
deriving DecidableEq, Repr

/-- An event as a block raises it: code, BLOCK, severity and INFO (Table 20-5). -/
structure EvArgs where
  code : BitVec 16
  block : BitVec 5
  sev : BitVec 2
  info0 : BitVec 64
  info1 : BitVec 64
deriving DecidableEq, Repr

/-- A command to the device: one constructor per row of spec/opcode_table.json, named after its mnemonic. -/
inductive Instr where
  /-- REGISTER_WRITE: A write to a register that has no row of its own; each field takes the write under its own access code and class (R12). -/
  | registerWrite (m : RegMaster) (off : BitVec 26) (data : List Byte)
  /-- PAIR_LOW_READ: A 4-byte read of the low half of a 64-bit pair copies the high half into the master's read shadow (R395). -/
  | pairLowRead (m : RegMaster) (off : BitVec 26)
  /-- ADMISSION_DESCRIPTOR: A descriptor presented with QV = 1 is answered in the same QCLK cycle and committed at the commit edge (R34). -/
  | admissionDescriptor (qd : BitVec 32) (qdp : Bool)
  /-- ACCEPT_RECORD: Derida receives an accept record, assigns the next request sequence number and writes the ring entry header (R42). -/
  | acceptRecord (slot : BitVec 12) (tc : BitVec 3) (desc : BitVec 32) (ts : BitVec 64)
  /-- RETIREMENT_RECORD: Derida receives the retirement record of a table with its consumed counts; unconsumed grants return to the pool (R41). -/
  | retirementRecord (beat : BitVec 48) (used : List Nat)
  /-- CLASS_TABLE_ARRIVAL: The receiver takes a class table image over UCIe, checks it and stores it in the inactive buffer, or discards it (R40). -/
  | classTableArrival (img : List Byte)
  /-- BOUNDARY_INDICATION: The receiver gets a beat boundary indication, discards an unarrived table and updates staleness (R39). -/
  | boundaryIndication
  /-- SWAP_EDGE: At the first QCLK edge after the boundary indication, the new table becomes active and the outgoing one retires (R36). -/
  | swapEdge
  /-- COMMIT: A driver write of COMMIT to a ring entry sets STATE = POSTED if it matches, or sets COMMIT_ERR and logs (R43). -/
  | commit (slot : BitVec 12) (be : BitVec 4) (v : BitVec 32) (cid : BitVec 12)
  /-- WATERMARK_EVALUATION: A watermark compares its quantity with its level and hysteresis at each evaluation (R58). -/
  | watermarkEvaluation (w : WmId)
  /-- WATERMARK_IRQ_ENABLE: Writing IRQ_EN from 0 to 1 while CROSSED_UP = 1 sends the watermark's message (R59). -/
  | watermarkIrqEnable (w : WmId)
  /-- SNAP: TAL_CMD.SNAP copies the live bins of the selected classes to the snapshot bank at the next TCLK edge (R51). -/
  | snap (mask : BitVec 8)
  /-- CLEAR: TAL_CMD.CLEAR zeroes the live bins and SAT bits of the selected classes (R52). -/
  | clear (mask : BitVec 8)
  /-- WIN_CLEAR: TAL_CMD.WIN_CLEAR empties both guard windows of the class at the next boundary (R54). -/
  | winClear (mask : BitVec 8)
  /-- PLL_LOCK: The root PLL locks to REFCLK and the timestamp starts counting (R64). -/
  | pllLock
  /-- OCLK_TRIM_COMPLETE: The first trim of OCLK completes, OCLK_TRIMMED sets and frequency windows start (R69). -/
  | oclkTrimComplete
  /-- STRETCH_EVENT: A sensed supply droop stretches PCLK and is counted as one stretch event (R68). -/
  | stretchEvent (p : Part) (depth : Nat)
  /-- DROOP_RECOVERY: When VDD_Pn returns to range, PCLK returns to its nominal period within 200 ns (R67). -/
  | droopRecovery (p : Part)
  /-- DROOP_COUNTER_CLEAR: Writing 0 to CLK_DROOP_CNT_Pn clears it and MAX_STRETCH (R68). -/
  | droopCounterClear (p : Part)
  /-- REF_EDGE_TIMEOUT: No REFCLK edge for 4 µs declares loss of reference (R69). -/
  | refEdgeTimeout
  /-- REF_FREQUENCY_WINDOW: At the end of each 3200-OCLK window the REFCLK edge count is judged for loss or return (R69). -/
  | refFrequencyWindow (edges : Nat) (present : Bool)
  /-- RELOCK_COMPLETE: The PLL completes relock after the reference returns and LOCKED reads 1 (R71). -/
  | relockComplete
  /-- BEAT_BOUNDARY: A beat boundary falls: BEAT_COUNT increments, BEAT-class values take effect and per-beat work is done (R72). -/
  | beatBoundary
  /-- SYNC_EDGE: A captured BEAT_SYNC_IN rising edge is judged a hit or ignored, and places boundaries (R74). -/
  | syncEdge (t : Nat)
  /-- SYNC_MISS: A sync window closes without a hit; the boundary is nominal and MISSED increments (R75). -/
  | syncMiss
  /-- REACQ: Writing REACQ while MODE = 1 moves the sync state to ACQUIRING at the next boundary (R75). -/
  | reacq
  /-- TS_LOAD: Writing TS_LOAD arms a timestamp and beat count load for the next hit (R80). -/
  | tsLoad
  /-- PUT_HEADER: A put's header arrives at the receiving plat, which allocates a frame and makes the header checks (R100). -/
  | putHeader (p : Part) (hdr : PutHdr)
  /-- PUT_COMPLETE: The last payload byte of a put arrives; the frame becomes READY and the plat acknowledges to SRC (R100). -/
  | putComplete (p : Part) (f : Fin 4096) (a : PutEnd)
  /-- PUT_ACKNOWLEDGEMENT: An acknowledgement of a stage's output moves its TAKEN input frame to ACKED (R101). -/
  | putAcknowledgement (p : Part) (slot : BitVec 12) (kind : BitVec 8)
  /-- NEGATIVE_ACKNOWLEDGEMENT: A negative acknowledgement returns the producer's input frame to READY with LATE set for reprocessing (R438). -/
  | negativeAcknowledgement (p : Part) (slot : BitVec 12) (kind : BitVec 8)
  /-- FRAME_TAKE: A LAYER or EGRESS stage takes ready frames in ascending slot order up to B + CARRY (R94). -/
  | frameTake (p : Part)
  /-- INGRESS_INTAKE: The INGRESS stage takes feedback frames, then posted bodies, setting entries to TAKEN (R95). -/
  | ingressIntake (p : Part)
  /-- RESULT_WRITE: The EGRESS stage writes a token to the result ring and a tally sample is formed (R18). -/
  | resultWrite (p : Part) (a : ResultArgs)
  /-- FO_CMD: Writing FO_CMD triggers failover of the partition if its spare is available, or is ignored and logged (R106). -/
  | foCmd (p : Part)
  /-- FAILOVER_COPY_COMPLETE: The spare completes the copy list and copies the failed plat's unacknowledged frames as READY (R107). -/
  | failoverCopyComplete (p : Part)
  /-- RESERVED_OP: Executing a reserved encoding traps RESERVED_OP for emulation (R123). -/
  | reservedOp (h : Hart) (w : BitVec 32)
  /-- MALFORMED_OP: Executing a malformed encoding traps MALFORMED_OP (R123). -/
  | malformedOp (h : Hart) (w : BitVec 32)
  /-- STORE_ABORT_RETURN: A claim abort of a retired store returns to the cluster and is held pending as an imprecise CLAIM_DENIED (R128). -/
  | storeAbortReturn (h : Hart) (addr : BitVec 56)
  /-- ADD: Integer add (R122). -/
  | add (h : Hart) (a : RArgs)
  /-- SUB: Integer subtract (R122). -/
  | sub (h : Hart) (a : RArgs)
  /-- AND: Bitwise AND (R122). -/
  | and (h : Hart) (a : RArgs)
  /-- OR: Bitwise OR (R122). -/
  | or (h : Hart) (a : RArgs)
  /-- XOR: Bitwise XOR (R122). -/
  | xor (h : Hart) (a : RArgs)
  /-- SLL: Shift left logical (R122). -/
  | sll (h : Hart) (a : RArgs)
  /-- SRL: Shift right logical (R122). -/
  | srl (h : Hart) (a : RArgs)
  /-- SRA: Shift right arithmetic (R122). -/
  | sra (h : Hart) (a : RArgs)
  /-- SLT: Set if less than, signed (R122). -/
  | slt (h : Hart) (a : RArgs)
  /-- SLTU: Set if less than, unsigned (R122). -/
  | sltu (h : Hart) (a : RArgs)
  /-- MIN: Signed minimum (R122). -/
  | min (h : Hart) (a : RArgs)
  /-- MAX: Signed maximum (R122). -/
  | max (h : Hart) (a : RArgs)
  /-- MINU: Unsigned minimum (R122). -/
  | minu (h : Hart) (a : RArgs)
  /-- MAXU: Unsigned maximum (R122). -/
  | maxu (h : Hart) (a : RArgs)
  /-- MUL: Multiply, low result (R122). -/
  | mul (h : Hart) (a : RArgs)
  /-- MULH: Multiply, high result signed (R122). -/
  | mulh (h : Hart) (a : RArgs)
  /-- MULHU: Multiply, high result unsigned (R122). -/
  | mulhu (h : Hart) (a : RArgs)
  /-- MULHSU: Multiply, high result signed by unsigned (R122). -/
  | mulhsu (h : Hart) (a : RArgs)
  /-- DIV: Signed divide (R122). -/
  | div (h : Hart) (a : RArgs)
  /-- DIVU: Unsigned divide (R122). -/
  | divu (h : Hart) (a : RArgs)
  /-- REM: Signed remainder (R122). -/
  | rem (h : Hart) (a : RArgs)
  /-- REMU: Unsigned remainder (R122). -/
  | remu (h : Hart) (a : RArgs)
  /-- CLZ: Count leading zeros (R121). -/
  | clz (h : Hart) (a : RArgs)
  /-- CTZ: Count trailing zeros (R121). -/
  | ctz (h : Hart) (a : RArgs)
  /-- POPC: Population count (R121). -/
  | popc (h : Hart) (a : RArgs)
  /-- REV8: Reverse bytes (R121). -/
  | rev8 (h : Hart) (a : RArgs)
  /-- ADDI: Add immediate (R122). -/
  | addi (h : Hart) (a : IArgs)
  /-- ANDI: AND immediate (R122). -/
  | andi (h : Hart) (a : IArgs)
  /-- ORI: OR immediate (R122). -/
  | ori (h : Hart) (a : IArgs)
  /-- XORI: XOR immediate (R122). -/
  | xori (h : Hart) (a : IArgs)
  /-- SLTI: Set if less than immediate, signed (R122). -/
  | slti (h : Hart) (a : IArgs)
  /-- SLTIU: Set if less than immediate, unsigned (R122). -/
  | sltiu (h : Hart) (a : IArgs)
  /-- SLLI: Shift left logical by immediate (R122). -/
  | slli (h : Hart) (a : IArgs)
  /-- SRLI: Shift right logical by immediate (R122). -/
  | srli (h : Hart) (a : IArgs)
  /-- SRAI: Shift right arithmetic by immediate (R122). -/
  | srai (h : Hart) (a : IArgs)
  /-- LUI: Load upper immediate (R121). -/
  | lui (h : Hart) (a : UArgs)
  /-- AUIPC: Add upper immediate to instruction address (R121). -/
  | auipc (h : Hart) (a : UArgs)
  /-- LB: Load signed byte (R131). -/
  | lb (h : Hart) (a : IArgs)
  /-- LH: Load signed halfword (R131). -/
  | lh (h : Hart) (a : IArgs)
  /-- LW: Load signed word (R131). -/
  | lw (h : Hart) (a : IArgs)
  /-- LD: Load doubleword (R131). -/
  | ld (h : Hart) (a : IArgs)
  /-- LBU: Load unsigned byte (R131). -/
  | lbu (h : Hart) (a : IArgs)
  /-- LHU: Load unsigned halfword (R131). -/
  | lhu (h : Hart) (a : IArgs)
  /-- LWU: Load unsigned word (R131). -/
  | lwu (h : Hart) (a : IArgs)
  /-- FLW: Load binary32 to an F register (R131). -/
  | flw (h : Hart) (a : IArgs)
  /-- FLD: Load binary64 to an F register (R131). -/
  | fld (h : Hart) (a : IArgs)
  /-- SB: Store byte (R131). -/
  | sb (h : Hart) (a : SArgs)
  /-- SH: Store halfword (R131). -/
  | sh (h : Hart) (a : SArgs)
  /-- SW: Store word (R131). -/
  | sw (h : Hart) (a : SArgs)
  /-- SD: Store doubleword (R131). -/
  | sd (h : Hart) (a : SArgs)
  /-- FSW: Store binary32 from an F register (R131). -/
  | fsw (h : Hart) (a : SArgs)
  /-- FSD: Store binary64 from an F register (R131). -/
  | fsd (h : Hart) (a : SArgs)
  /-- BEQ: Branch if equal (R118). -/
  | beq (h : Hart) (a : BArgs)
  /-- BNE: Branch if not equal (R118). -/
  | bne (h : Hart) (a : BArgs)
  /-- BLT: Branch if less than, signed (R118). -/
  | blt (h : Hart) (a : BArgs)
  /-- BGE: Branch if greater or equal, signed (R118). -/
  | bge (h : Hart) (a : BArgs)
  /-- BLTU: Branch if less than, unsigned (R118). -/
  | bltu (h : Hart) (a : BArgs)
  /-- BGEU: Branch if greater or equal, unsigned (R118). -/
  | bgeu (h : Hart) (a : BArgs)
  /-- JAL: Jump and link by a halfword offset (R121). -/
  | jal (h : Hart) (a : UArgs)
  /-- JALR: Jump and link to a register plus offset (R121). -/
  | jalr (h : Hart) (a : IArgs)
  /-- LDAQ: Load with acquire ordering (R131). -/
  | ldaq (h : Hart) (a : AtomArgs)
  /-- STRL: Store with release ordering (R131). -/
  | strl (h : Hart) (a : AtomArgs)
  /-- AMOSWAP: Atomic swap (R212). -/
  | amoswap (h : Hart) (a : AtomArgs)
  /-- AMOADD: Atomic add (R212). -/
  | amoadd (h : Hart) (a : AtomArgs)
  /-- AMOAND: Atomic AND (R212). -/
  | amoand (h : Hart) (a : AtomArgs)
  /-- AMOOR: Atomic OR (R212). -/
  | amoor (h : Hart) (a : AtomArgs)
  /-- AMOXOR: Atomic XOR (R212). -/
  | amoxor (h : Hart) (a : AtomArgs)
  /-- AMOMAX: Atomic signed maximum (R212). -/
  | amomax (h : Hart) (a : AtomArgs)
  /-- AMOMIN: Atomic signed minimum (R212). -/
  | amomin (h : Hart) (a : AtomArgs)
  /-- AMOMAXU: Atomic unsigned maximum (R212). -/
  | amomaxu (h : Hart) (a : AtomArgs)
  /-- AMOMINU: Atomic unsigned minimum (R212). -/
  | amominu (h : Hart) (a : AtomArgs)
  /-- CAS: Atomic compare and swap (R212). -/
  | cas (h : Hart) (a : AtomArgs)
  /-- FENCE_RW_RW: Order earlier loads and stores before later loads and stores (R131). -/
  | fenceRwRw (h : Hart)
  /-- FENCE_R_RW: Order earlier loads before later loads and stores (R131). -/
  | fenceRRw (h : Hart)
  /-- FENCE_RW_W: Order earlier loads and stores before later stores (R131). -/
  | fenceRwW (h : Hart)
  /-- FENCE_W_W: Order earlier stores before later stores (R131). -/
  | fenceWW (h : Hart)
  /-- FENCE_DRAIN: Full fence that also waits for earlier stores to leave the write-combining buffers (R131). -/
  | fenceDrain (h : Hart)
  /-- FENCE_I: Wait for earlier stores, then invalidate the cluster's L1I (R211). -/
  | fenceI (h : Hart)
  /-- CSRR: Read a control register (R116). -/
  | csrr (h : Hart) (a : CsrArgs)
  /-- CSRW: Write a control register, returning its old value (R116). -/
  | csrw (h : Hart) (a : CsrArgs)
  /-- CSRS: Set bits of a control register (R116). -/
  | csrs (h : Hart) (a : CsrArgs)
  /-- CSRC: Clear bits of a control register (R116). -/
  | csrc (h : Hart) (a : CsrArgs)
  /-- BREAK: Trap BREAK with an operand for the handler (R124). -/
  | break (h : Hart) (imm : BitVec 12)
  /-- TRET: Return from a trap to TRETPC at level TSTAT.PPRIV (R127). -/
  | tret (h : Hart)
  /-- WFB: Stall issue until the next beat boundary reaches the partition (R122). -/
  | wfb (h : Hart)
  /-- FADD: Floating-point add (R122). -/
  | fadd (h : Hart) (a : FArgs)
  /-- FSUB: Floating-point subtract (R122). -/
  | fsub (h : Hart) (a : FArgs)
  /-- FMUL: Floating-point multiply (R122). -/
  | fmul (h : Hart) (a : FArgs)
  /-- FDIV: Floating-point divide (R122). -/
  | fdiv (h : Hart) (a : FArgs)
  /-- FSQRT: Floating-point square root (R122). -/
  | fsqrt (h : Hart) (a : FArgs)
  /-- FMIN: Floating-point minimum (R122). -/
  | fmin (h : Hart) (a : FArgs)
  /-- FMAX: Floating-point maximum (R122). -/
  | fmax (h : Hart) (a : FArgs)
  /-- FSGNJ: Sign injection (R122). -/
  | fsgnj (h : Hart) (a : FArgs)
  /-- FSGNJN: Negated sign injection (R122). -/
  | fsgnjn (h : Hart) (a : FArgs)
  /-- FSGNJX: XOR sign injection (R122). -/
  | fsgnjx (h : Hart) (a : FArgs)
  /-- FEQ: Floating-point equal compare (R122). -/
  | feq (h : Hart) (a : FArgs)
  /-- FLT: Floating-point less-than compare (R122). -/
  | flt (h : Hart) (a : FArgs)
  /-- FLE: Floating-point less-or-equal compare (R122). -/
  | fle (h : Hart) (a : FArgs)
  /-- FCLASS: Classify a floating-point value (R122). -/
  | fclass (h : Hart) (a : FArgs)
  /-- FCVT_F_F: Convert between floating-point formats (R168). -/
  | fcvtFF (h : Hart) (a : FArgs)
  /-- FCVT_X_F: Convert floating point to integer (R168). -/
  | fcvtXF (h : Hart) (a : FArgs)
  /-- FCVT_F_X: Convert integer to floating point (R168). -/
  | fcvtFX (h : Hart) (a : FArgs)
  /-- FMV_X_F: Move bits from an F to an X register (R122). -/
  | fmvXF (h : Hart) (a : FArgs)
  /-- FMV_F_X: Move bits from an X to an F register (R122). -/
  | fmvFX (h : Hart) (a : FArgs)
  /-- FMADD: Fused multiply-add with one rounding (R122). -/
  | fmadd (h : Hart) (a : F4Args)
  /-- FMSUB: Fused multiply-subtract (R122). -/
  | fmsub (h : Hart) (a : F4Args)
  /-- FNMADD: Negated fused multiply-add (R122). -/
  | fnmadd (h : Hart) (a : F4Args)
  /-- FNMSUB: Negated fused multiply-subtract (R122). -/
  | fnmsub (h : Hart) (a : F4Args)
  /-- C_MV: Compact register move (R119). -/
  | cMv (h : Hart) (rd : BitVec 5) (rs : BitVec 5)
  /-- C_MVF: Compact F register move (R119). -/
  | cMvf (h : Hart) (rd : BitVec 5) (rs : BitVec 5)
  /-- C_BREAK: Compact BREAK (R119). -/
  | cBreak (h : Hart)
  /-- C_ADDI: Compact add immediate (R119). -/
  | cAddi (h : Hart) (rd : BitVec 5) (imm : BitVec 6)
  /-- C_SUBI: Compact subtract immediate (R119). -/
  | cSubi (h : Hart) (rd : BitVec 5) (imm : BitVec 6)
  /-- C_LD: Compact load doubleword (R119). -/
  | cLd (h : Hart) (b : BitVec 3) (r : BitVec 5) (off : BitVec 4)
  /-- C_SD: Compact store doubleword (R119). -/
  | cSd (h : Hart) (b : BitVec 3) (r : BitVec 5) (off : BitVec 4)
  /-- C_FLD: Compact FP load (R119). -/
  | cFld (h : Hart) (b : BitVec 3) (f : BitVec 5) (off : BitVec 3)
  /-- C_FSD: Compact FP store (R119). -/
  | cFsd (h : Hart) (b : BitVec 3) (f : BitVec 5) (off : BitVec 3)
  /-- C_B: Compact unconditional branch (R119). -/
  | cB (h : Hart) (off : BitVec 12)
  /-- C_BZ: Compact branch if zero (R119). -/
  | cBz (h : Hart) (r : BitVec 3) (off : BitVec 8)
  /-- C_BNZ: Compact branch if nonzero (R119). -/
  | cBnz (h : Hart) (r : BitVec 3) (off : BitVec 8)
  /-- C_VSETVL: Compact VSETVL (R119). -/
  | cVsetvl (h : Hart) (rd : BitVec 5) (rs : BitVec 5) (sew : BitVec 2)
  /-- VADD: Vector integer add (R142). -/
  | vadd (h : Hart) (a : VArgs)
  /-- VSUB: Vector integer subtract (R142). -/
  | vsub (h : Hart) (a : VArgs)
  /-- VMUL: Vector integer multiply (R142). -/
  | vmul (h : Hart) (a : VArgs)
  /-- VMULH: Vector multiply high (R142). -/
  | vmulh (h : Hart) (a : VArgs)
  /-- VAND: Vector AND (R142). -/
  | vand (h : Hart) (a : VArgs)
  /-- VOR: Vector OR (R142). -/
  | vor (h : Hart) (a : VArgs)
  /-- VXOR: Vector XOR (R142). -/
  | vxor (h : Hart) (a : VArgs)
  /-- VSLL: Vector shift left (R142). -/
  | vsll (h : Hart) (a : VArgs)
  /-- VSRL: Vector shift right logical (R142). -/
  | vsrl (h : Hart) (a : VArgs)
  /-- VSRA: Vector shift right arithmetic (R142). -/
  | vsra (h : Hart) (a : VArgs)
  /-- VMIN: Vector signed minimum (R142). -/
  | vmin (h : Hart) (a : VArgs)
  /-- VMAX: Vector signed maximum (R142). -/
  | vmax (h : Hart) (a : VArgs)
  /-- VMINU: Vector unsigned minimum (R142). -/
  | vminu (h : Hart) (a : VArgs)
  /-- VMAXU: Vector unsigned maximum (R142). -/
  | vmaxu (h : Hart) (a : VArgs)
  /-- VMACC: Vector integer multiply-accumulate (R142). -/
  | vmacc (h : Hart) (a : VArgs)
  /-- VMV: Vector move, or merge when masked (R142). -/
  | vmv (h : Hart) (a : VArgs)
  /-- VFADD: Vector FP add (R142). -/
  | vfadd (h : Hart) (a : VArgs)
  /-- VFSUB: Vector FP subtract (R142). -/
  | vfsub (h : Hart) (a : VArgs)
  /-- VFMUL: Vector FP multiply (R142). -/
  | vfmul (h : Hart) (a : VArgs)
  /-- VFDIV: Vector FP divide (R142). -/
  | vfdiv (h : Hart) (a : VArgs)
  /-- VFSQRT: Vector FP square root (R142). -/
  | vfsqrt (h : Hart) (a : VArgs)
  /-- VFMIN: Vector FP minimumNumber (R142). -/
  | vfmin (h : Hart) (a : VArgs)
  /-- VFMAX: Vector FP maximumNumber (R142). -/
  | vfmax (h : Hart) (a : VArgs)
  /-- VFMACC: Vector FP fused multiply-accumulate (R142). -/
  | vfmacc (h : Hart) (a : VArgs)
  /-- VFNMSAC: Vector FP fused negative multiply-subtract-accumulate (R142). -/
  | vfnmsac (h : Hart) (a : VArgs)
  /-- VFSGNJ: Vector sign injection (R142). -/
  | vfsgnj (h : Hart) (a : VArgs)
  /-- VFSGNJN: Vector negated sign injection (R142). -/
  | vfsgnjn (h : Hart) (a : VArgs)
  /-- VID: Write element indices (R142). -/
  | vid (h : Hart) (a : VArgs)
  /-- VMSEQ: Mask compare equal (R143). -/
  | vmseq (h : Hart) (a : VArgs)
  /-- VMSNE: Mask compare not equal (R143). -/
  | vmsne (h : Hart) (a : VArgs)
  /-- VMSLT: Mask compare less than, signed (R143). -/
  | vmslt (h : Hart) (a : VArgs)
  /-- VMSLTU: Mask compare less than, unsigned (R143). -/
  | vmsltu (h : Hart) (a : VArgs)
  /-- VMSLE: Mask compare less or equal, signed (R143). -/
  | vmsle (h : Hart) (a : VArgs)
  /-- VMSLEU: Mask compare less or equal, unsigned (R143). -/
  | vmsleu (h : Hart) (a : VArgs)
  /-- VMFEQ: Mask FP compare equal (R143). -/
  | vmfeq (h : Hart) (a : VArgs)
  /-- VMFLT: Mask FP compare less than (R143). -/
  | vmflt (h : Hart) (a : VArgs)
  /-- VMFLE: Mask FP compare less or equal (R143). -/
  | vmfle (h : Hart) (a : VArgs)
  /-- VMFUN: Mask FP unordered compare (R143). -/
  | vmfun (h : Hart) (a : VArgs)
  /-- VMAND: Mask AND (R143). -/
  | vmand (h : Hart) (a : VArgs)
  /-- VMOR: Mask OR (R143). -/
  | vmor (h : Hart) (a : VArgs)
  /-- VMXOR: Mask XOR (R143). -/
  | vmxor (h : Hart) (a : VArgs)
  /-- VMANDN: Mask AND NOT (R143). -/
  | vmandn (h : Hart) (a : VArgs)
  /-- VMSET: Set mask bits below VL (R143). -/
  | vmset (h : Hart) (a : VArgs)
  /-- VMPOP: Count set mask bits below VL into an X register (R143). -/
  | vmpop (h : Hart) (a : VArgs)
  /-- VMFIRST: Index of the lowest set mask bit into an X register (R143). -/
  | vmfirst (h : Hart) (a : VArgs)
  /-- VSETVL: Write VTYPE and set VL from a requested length (R136). -/
  | vsetvl (h : Hart) (a : VsetArgs)
  /-- LV_CVT: Long-vector format conversion, optionally block-scaled (R144). -/
  | lvCvt (h : Hart) (a : CvtArgs)
  /-- VWADD: Widening integer add (R145). -/
  | vwadd (h : Hart) (a : VArgs)
  /-- VWSUB: Widening integer subtract (R145). -/
  | vwsub (h : Hart) (a : VArgs)
  /-- VWMUL: Widening integer multiply (R145). -/
  | vwmul (h : Hart) (a : VArgs)
  /-- VWMACC: Widening integer multiply-accumulate (R145). -/
  | vwmacc (h : Hart) (a : VArgs)
  /-- VFWADD: Widening FP add (R145). -/
  | vfwadd (h : Hart) (a : VArgs)
  /-- VFWSUB: Widening FP subtract (R145). -/
  | vfwsub (h : Hart) (a : VArgs)
  /-- VFWMUL: Widening FP multiply (R145). -/
  | vfwmul (h : Hart) (a : VArgs)
  /-- VFWMACC: Widening FP multiply-accumulate (R145). -/
  | vfwmacc (h : Hart) (a : VArgs)
  /-- VLD: Unit-stride vector load (R148). -/
  | vld (h : Hart) (a : LvMemArgs)
  /-- VST: Unit-stride vector store (R148). -/
  | vst (h : Hart) (a : LvMemArgs)
  /-- VLDS: Strided vector load; stride 0 reads once (R147). -/
  | vlds (h : Hart) (a : LvMemArgs)
  /-- VSTS: Strided vector store (R147). -/
  | vsts (h : Hart) (a : LvMemArgs)
  /-- VLDX: Indexed vector load (R148). -/
  | vldx (h : Hart) (a : LvMemArgs)
  /-- VSTX: Indexed vector store (R148). -/
  | vstx (h : Hart) (a : LvMemArgs)
  /-- VLDFF: Fault-first vector load that truncates the mask at the first faulting element (R149). -/
  | vldff (h : Hart) (a : LvMemArgs)
  /-- VLDM: Load a mask register from memory (R146). -/
  | vldm (h : Hart) (a : LvMemArgs)
  /-- VSTM: Store a mask register to memory (R146). -/
  | vstm (h : Hart) (a : LvMemArgs)
  /-- VREDSUM: Integer tree sum reduction (R150). -/
  | vredsum (h : Hart) (a : VArgs)
  /-- VREDMAX: Signed maximum reduction (R150). -/
  | vredmax (h : Hart) (a : VArgs)
  /-- VREDMIN: Signed minimum reduction (R150). -/
  | vredmin (h : Hart) (a : VArgs)
  /-- VREDMAXU: Unsigned maximum reduction (R150). -/
  | vredmaxu (h : Hart) (a : VArgs)
  /-- VREDMINU: Unsigned minimum reduction (R150). -/
  | vredminu (h : Hart) (a : VArgs)
  /-- VREDAND: AND reduction (R150). -/
  | vredand (h : Hart) (a : VArgs)
  /-- VREDOR: OR reduction (R150). -/
  | vredor (h : Hart) (a : VArgs)
  /-- VREDXOR: XOR reduction (R150). -/
  | vredxor (h : Hart) (a : VArgs)
  /-- VFREDSUM: FP tree sum reduction (R150). -/
  | vfredsum (h : Hart) (a : VArgs)
  /-- VFREDMAX: FP maximum reduction (R150). -/
  | vfredmax (h : Hart) (a : VArgs)
  /-- VFREDMIN: FP minimum reduction (R150). -/
  | vfredmin (h : Hart) (a : VArgs)
  /-- VREDOSUM: Ordered FP sum reduction (R151). -/
  | vredosum (h : Hart) (a : VArgs)
  /-- SADD: Short-vector integer add (R153). -/
  | sadd (h : Hart) (a : SvArgs)
  /-- SSUB: Short-vector integer subtract (R153). -/
  | ssub (h : Hart) (a : SvArgs)
  /-- SMUL: Short-vector integer multiply (R153). -/
  | smul (h : Hart) (a : SvArgs)
  /-- SAND: Short-vector AND (R153). -/
  | sand (h : Hart) (a : SvArgs)
  /-- SOR: Short-vector OR (R153). -/
  | sor (h : Hart) (a : SvArgs)
  /-- SXOR: Short-vector XOR (R153). -/
  | sxor (h : Hart) (a : SvArgs)
  /-- SMIN: Short-vector integer minimum (R153). -/
  | smin (h : Hart) (a : SvArgs)
  /-- SMAX: Short-vector integer maximum (R153). -/
  | smax (h : Hart) (a : SvArgs)
  /-- SCMPEQ: Short-vector integer equal compare (R153). -/
  | scmpeq (h : Hart) (a : SvArgs)
  /-- SCMPLT: Short-vector integer less-than compare (R153). -/
  | scmplt (h : Hart) (a : SvArgs)
  /-- SSEL: Short-vector bitwise select (R153). -/
  | ssel (h : Hart) (a : SvArgs)
  /-- SFADD: Short-vector FP add (R153). -/
  | sfadd (h : Hart) (a : SvArgs)
  /-- SFSUB: Short-vector FP subtract (R153). -/
  | sfsub (h : Hart) (a : SvArgs)
  /-- SFMUL: Short-vector FP multiply (R153). -/
  | sfmul (h : Hart) (a : SvArgs)
  /-- SFDIV: Short-vector FP divide (R153). -/
  | sfdiv (h : Hart) (a : SvArgs)
  /-- SFMACC: Short-vector FP fused multiply-accumulate (R153). -/
  | sfmacc (h : Hart) (a : SvArgs)
  /-- SFMIN: Short-vector FP minimum (R153). -/
  | sfmin (h : Hart) (a : SvArgs)
  /-- SFMAX: Short-vector FP maximum (R153). -/
  | sfmax (h : Hart) (a : SvArgs)
  /-- SFCMPEQ: Short-vector FP equal compare (R153). -/
  | sfcmpeq (h : Hart) (a : SvArgs)
  /-- SFCMPLT: Short-vector FP less-than compare (R153). -/
  | sfcmplt (h : Hart) (a : SvArgs)
  /-- SFCMPLE: Short-vector FP less-or-equal compare (R153). -/
  | sfcmple (h : Hart) (a : SvArgs)
  /-- SLD: Short-vector 32-byte load (R153). -/
  | sld (h : Hart) (a : SvMemArgs)
  /-- SST: Short-vector 32-byte store (R153). -/
  | sst (h : Hart) (a : SvMemArgs)
  /-- SLDB: Short-vector broadcast load of one element (R153). -/
  | sldb (h : Hart) (a : SvMemArgs)
  /-- TZERO: Zero a tile and reset its scales (R177). -/
  | tzero (h : Hart) (a : TArgs)
  /-- TFILL: Load lanes from TB and compute 32 result rows of TA against them (R178). -/
  | tfill (h : Hart) (a : TArgs)
  /-- TFILLA: As TFILL, accumulating into the prior result rows (R178). -/
  | tfilla (h : Hart) (a : TArgs)
  /-- TLANES: Copy a tile and its scales into the lanes (R174). -/
  | tlanes (h : Hart) (a : TArgs)
  /-- TSTREAM: Stream N rows of A from memory against the lanes and write C rows (R179). -/
  | tstream (h : Hart) (a : TArgs)
  /-- TSTREAMA: As TSTREAM, accumulating into C rows read from memory (R179). -/
  | tstreama (h : Hart) (a : TArgs)
  /-- TREDROW: Sum along rows of a result block into a V register (R180). -/
  | tredrow (h : Hart) (a : TArgs)
  /-- TREDCOL: Sum along columns of a result block into a V register (R180). -/
  | tredcol (h : Hart) (a : TArgs)
  /-- TREDROWMAX: Maximum along rows into a V register (R180). -/
  | tredrowmax (h : Hart) (a : TArgs)
  /-- TREDCOLMAX: Maximum along columns into a V register (R180). -/
  | tredcolmax (h : Hart) (a : TArgs)
  /-- TMOVTV: Move a tile row to a V register (R181). -/
  | tmovtv (h : Hart) (a : TArgs)
  /-- TMOVVT: Move a V register to a tile row (R181). -/
  | tmovvt (h : Hart) (a : TArgs)
  /-- TLTOT: Copy the lanes and their scales into a tile (R181). -/
  | tltot (h : Hart) (a : TArgs)
  /-- TLD: Load 32 tile rows from memory (R183). -/
  | tld (h : Hart) (a : TArgs)
  /-- TST: Store 32 tile rows to memory (R183). -/
  | tst (h : Hart) (a : TArgs)
  /-- TLDS: Load tile scale companion rows (R183). -/
  | tlds (h : Hart) (a : TArgs)
  /-- TSTS: Store tile scale companion rows (R183). -/
  | tsts (h : Hart) (a : TArgs)
  /-- ADIT_ENQ: A write of ADIT_ENQ enqueues a descriptor, or drops it when 64 are held (R192). -/
  | aditEnq (p : Part) (va : BitVec 56)
  /-- ADIT_DESCRIPTOR_START: Adit fetches and checks the next descriptor and loads its inputs into the input buffer (R193). -/
  | aditDescriptorStart (p : Part)
  /-- ADIT_STREAM_BLOCK: Adit translates and streams one 2 MiB weight block, or stops the descriptor at it (R202). -/
  | aditStreamBlock (p : Part)
  /-- ADIT_COMPLETION: After every output write is performed Adit writes the completion record, counts it and may send a message (R201). -/
  | aditCompletion (p : Part)
  /-- ADIT_ABORT: ADIT_CTL.ABORT completes the running descriptor and every queued one with ABORTED (R204). -/
  | aditAbort (p : Part)
  /-- OWNERSHIP_REQUEST: A cluster requests a line in M; the L2 invalidates and recalls other copies before granting (R209). -/
  | ownershipRequest (h : Hart) (pa : BitVec 46)
  /-- L1_FILL_REQUEST: An L1 miss requests a fill from the L2, recalling an M or E copy elsewhere (R209). -/
  | l1FillRequest (h : Hart) (pa : BitVec 46) (instr : Bool)
  /-- BANK_GRANT: An L2 bank arbiter grants the writeback channel or the next cluster by round-robin (R227). -/
  | bankGrant (p : Part) (bank : Fin 16)
  /-- RECALL: An L2 recall or invalidation reaches an L1 and is answered with data or acknowledgement (R209). -/
  | recall (h : Hart) (pa : BitVec 46) (inv : Bool)
  /-- VICTIM_WRITEBACK: An L1D victim is written back and merged into the L2 line (R227). -/
  | victimWriteback (h : Hart) (pa : BitVec 46)
  /-- CLEAN: Maintenance slot CLEAN writes back dirty data in the virtual range (R217). -/
  | clean (p : Part) (c : Clu)
  /-- CLEAN_INV: Maintenance slot CLEAN_INV writes back and invalidates the range (R217). -/
  | cleanInv (p : Part) (c : Clu)
  /-- INV: Maintenance slot INV invalidates the range, discarding dirty data (R217). -/
  | inv (p : Part) (c : Clu)
  /-- MAINTENANCE_DONE: A maintenance operation completes or stops at an untranslatable page and sets DONE, sending a drain request (R218). -/
  | maintenanceDone (p : Part) (c : Clu)
  /-- FLUSH_ALL: L2_CTL.FLUSH_ALL writes back and invalidates every L1 and L2 line of the partition (R220). -/
  | flushAll (p : Part)
  /-- INV_ALL: L2_CTL.INV_ALL invalidates every L1 and L2 line of the partition without writeback (R220). -/
  | invAll (p : Part)
  /-- L1D_INV_ALL: L1D_CTL.INV_ALL invalidates every line of one L1D (R223). -/
  | l1dInvAll (h : Hart)
  /-- FULL_INVALIDATE_DONE: A full invalidate completes, sets ALL_DONE and clears STALE_RISK (R220). -/
  | fullInvalidateDone (p : Part)
  /-- L1D_ENABLE_WRITE: A write of L1D_CTL.ENABLE switches the L1D mode, removing or restoring it in the directory (R221). -/
  | l1dEnableWrite (h : Hart) (v : Bool)
  /-- L2_ENABLE_WRITE: A write of L2_CTL.ENABLE switches cacheable accesses to uncached or back (R222). -/
  | l2EnableWrite (p : Part) (v : Bool)
  /-- L2_WAYOFF_WRITE: A write of L2_WAYOFF starts powering ways down or up, or is rejected (R225). -/
  | l2WayoffWrite (p : Part) (mask : BitVec 16)
  /-- WAYOFF_DONE: Every selected way change completes and DONE sets (R226). -/
  | wayoffDone (p : Part)
  /-- STACK_READ: A non-bulk read at a channel-group controller is claim-checked and served with WCB forwarding (R245). -/
  | stackRead (q : ReqArgs) (pa : BitVec 46) (n : Nat)
  /-- BULK_READ: An Adit or Assay bulk read returns DRAM contents only (R245). -/
  | bulkRead (q : ReqArgs) (pa : BitVec 46) (n : Nat)
  /-- STACK_WRITE: A write at a channel-group controller is claim-checked and merges into or allocates a WCB entry (R242). -/
  | stackWrite (q : ReqArgs) (pa : BitVec 46) (data : List Byte)
  /-- WCB_AGE_EXPIRY: A WCB entry reaching WCB_AGE_MAX starts draining (R243). -/
  | wcbAgeExpiry (k : Part) (g : Fin 4)
  /-- WCB_ENTRY_FREED: A draining entry's granule writes are performed and the entry is freed, answering drain requests (R243). -/
  | wcbEntryFreed (k : Part) (g : Fin 4)
  /-- DRAIN_REQUEST: A drain request arrives at a controller and marks every present WCB entry (R244). -/
  | drainRequest (k : Part) (g : Fin 4)
  /-- WCB_DRAIN: WCB_CTL.DRAIN sends a drain request to the partition's four groups (R244). -/
  | wcbDrain (p : Part)
  /-- SCRUB_READ: Patrol scrub reads the next granule, rewriting corrected or poisoned data (R240). `g` is the channel group of a
  stack, or the DDR5 channel. -/
  | scrubRead (k : ScrubMem) (g : Fin 4)
  /-- REFRESH: A DRAM refresh runs at the normal or doubled rate (R241). -/
  | refresh (k : Part)
  /-- SENSOR_SAMPLE: Stack and die sensors are sampled and T_J of each pair is updated (R247). -/
  | sensorSample (k : Part) (a : SampleArgs)
  /-- SENSOR_FAIL: A sensor without a valid reading for 1 ms counts as 100 °C, is flagged and logged (R247). -/
  | sensorFail (k : Part) (n : Fin 8)
  /-- SELF_REFRESH_ENTRY: An A3 partition's stack enters self-refresh after 20 µs without requests (R353). -/
  | selfRefreshEntry (k : Part)
  /-- SELF_REFRESH_EXIT: The stack leaves self-refresh and waiting requests proceed (R353). -/
  | selfRefreshExit (k : Part)
  /-- FAR_REQUEST: The far-tier front end decodes, claim-checks and orders a far-tier access (R248). -/
  | farRequest (q : ReqArgs) (pa : BitVec 46) (op : MemOp)
  /-- CXL_DOWN: The CXL link goes down; outstanding and new CXL requests complete with an uncorrectable error (R250). -/
  | cxlDown
  /-- PAGE_WALK: A translation walk reads page tables, installs a leaf or ends in PAGE_FAULT (R260). -/
  | pageWalk (p : Part) (cid : BitVec 12) (va : BitVec 56)
  /-- CLM_ENTRY_WRITE: A write of CLM_ENTRY applies the entry to COUNT granules and advances CLM_INDEX (R269). -/
  | clmEntryWrite (v : BitVec 32)
  /-- CLAIM_UPDATE_DONE: A claim update has reached every array and BUSY clears (R269). -/
  | claimUpdateDone
  /-- PAGE: MMU command PAGE removes leaves containing VA and walk-cache entries of the CID (R271). -/
  | page (w0 : BitVec 64) (w1 : BitVec 64) (w2 : BitVec 64) (w3 : BitVec 64)
  /-- RANGE: MMU command RANGE removes leaves overlapping the range (R271). -/
  | range (w0 : BitVec 64) (w1 : BitVec 64) (w2 : BitVec 64) (w3 : BitVec 64)
  /-- CID: MMU command CID removes every entry of the context (R271). -/
  | cid (w0 : BitVec 64) (w1 : BitVec 64) (w2 : BitVec 64) (w3 : BitVec 64)
  /-- ALL: MMU command ALL removes every translation and inbound-window entry (R271). -/
  | all (w0 : BitVec 64) (w1 : BitVec 64) (w2 : BitVec 64) (w3 : BitVec 64)
  /-- SYNC: MMU command SYNC removes nothing and completes after earlier commands (R271). -/
  | sync (w0 : BitVec 64) (w1 : BitVec 64) (w2 : BitVec 64) (w3 : BitVec 64)
  /-- INWIN: MMU command INWIN removes inbound-TLB entries and cached root of a window (R277). -/
  | inwin (w0 : BitVec 64) (w1 : BitVec 64) (w2 : BitVec 64) (w3 : BitVec 64)
  /-- MMU_COMMAND_COMPLETE: When removed translations have drained, the completion record, MMU_FENCE_DONE and message follow (R272). -/
  | mmuCommandComplete
  /-- REMOTE_REQUEST: A request from another chip arrives and is handled as plain or through an inbound window (R275). -/
  | remoteRequest (src : RemSrc) (cid : BitVec 12) (pa : BitVec 46) (op : MemOp)
  /-- TRAVERSE_PACKET: A Traverse packet is delivered to its destination stop (R285). -/
  | traversePacket (k : TrvPkt)
  /-- TOKEN_REQUEST: A requester asks a target for a pool token over the token network (R292). -/
  | tokenRequest (tgt : BitVec 9) (vc : BitVec 3) (stop : BitVec 9)
  /-- TOKEN_GRANT: A target grants a pool token to the oldest waiting request (R292). -/
  | tokenGrant (tgt : BitVec 9) (vc : BitVec 3)
  /-- TOKEN_RETURN: A target returns a token when it moves a packet out of its buffer entry (R289). -/
  | tokenReturn (tgt : BitVec 9) (vc : BitVec 3) (stop : BitVec 9)
  /-- FRAME_TOKEN_GRANT: A free frame at a receiving plat lets a waiting put enter the mesh (R289). -/
  | frameTokenGrant (p : Part)
  /-- DATA_FLIT: A Col Link receiver accepts or discards a DATA flit and may send NAK or ACK (R303). -/
  | dataFlit (port : Fin 8) (f : FlitArgs)
  /-- ACK: An ACK frees held flits up to its sequence number (R304). -/
  | ack (port : Fin 8) (seq : BitVec 16)
  /-- NAK: A NAK resends held flits from its sequence number and may lead to retraining (R304). -/
  | nak (port : Fin 8) (seq : BitVec 16)
  /-- REPLAY_TIMEOUT: The oldest held flit waits REPLAY_TO and a resend starts (R304). -/
  | replayTimeout (port : Fin 8)
  /-- TRAINING_ATTEMPT: A training attempt of a Col Link port ends at width 8, width 4, or in failure (R299). -/
  | trainingAttempt (port : Fin 8) (lanes : BitVec 8) (chip : BitVec 6) (peer : BitVec 3)
  /-- RETRAIN: LNK_p_CTL.RETRAIN starts a new training from any state (R305). -/
  | retrain (port : Fin 8)
  /-- LINK_PACKET: A link packet arriving on a port is delivered locally, forwarded or discarded (R307). -/
  | linkPacket (port : Fin 8) (k : LinkPkt)
  /-- CREDIT_RETURN: A credit return in a CTRL flit lets the sender send another link packet of that class (R306). -/
  | creditReturn (port : Fin 8) (cls : BitVec 2) (sub : Bool)
  /-- REMOTE_FRAME_TOKEN_REQUEST: A cross-chip put asks the receiving plat for a frame token along the route (R310). `p` is the partition of
  this chip: the one that asks, or the one whose plat is asked. -/
  | remoteFrameTokenRequest (p : Part) (a : RemToken)
  /-- REMOTE_FRAME_TOKEN_GRANT: The receiving plat's frame token arrives and the put leaves as ACT packets (R310). -/
  | remoteFrameTokenGrant (p : Part) (chip : BitVec 6) (part : BitVec 3)
  /-- ASY_ENQ: A write of ASY_ENQ admits a query, or drops it when 64 are held (R340). -/
  | asyEnq (p : Part) (va : BitVec 56)
  /-- QUERY_ADMISSION: A READY QUERY frame in an ASSAY partition is admitted when a place is free (R340). -/
  | queryAdmission (p : Part)
  /-- ASSAY_QUERY_START: Assay reads and checks the query record and begins its coarse selection (R339). -/
  | assayQueryStart (p : Part)
  /-- ASSAY_STREAM_BLOCK: Assay translates and scans one 2 MiB block, or stops the query at it (R345). -/
  | assayStreamBlock (p : Part)
  /-- ASSAY_QUERY_COMPLETE: Assay writes the result record or puts a REPLY frame and counts the query (R343). -/
  | assayQueryComplete (p : Part)
  /-- ASY_ABORT: ASY_CTL.ABORT completes the running query and all held ones with ABORTED (R347). -/
  | asyAbort (p : Part)
  /-- POWER_STATE_ENTRY: An idle partition enters its target A1, A2 or A3 state (R357). -/
  | powerStateEntry (p : Part)
  /-- WAKE_EVENT: A wake event starts a partition's return to A0 (R352). -/
  | wakeEvent (p : Part)
  /-- PRE_WAKE: A stage partition is woken at N − W − exit so it is in A0 before the boundary (R357). -/
  | preWake (p : Part)
  /-- WAKE_COMPLETE: The partition reaches A0, invalidating TLBs or caches as its state requires (R350). -/
  | wakeComplete (p : Part)
  /-- D3HOT_ENTRY: The physical function moves to D3hot and the Admission Port closes (R358). -/
  | d3hotEntry (fn : Fin 9)
  /-- D3HOT_QUIESCE: With no sequence in flight in D3hot, every partition enters A3 with its stack in self-refresh (R358). -/
  | d3hotQuiesce
  /-- D0_ENTRY: The physical function returns to D0 and partitions return to their selected states (R358). -/
  | d0Entry (fn : Fin 9)
  /-- THERMTRIP: A sensor at 120 °C asserts THERMTRIP_N, stops clocks and holds every block in reset (R361). -/
  | thermtrip
  /-- AVS_COMPLETION: A regulator reports completion of a setpoint command (R417). -/
  | avsCompletion (p : Part)
  /-- AVS_FAULT: A regulator without completion in 1 ms is faulted, flagged, logged and the slower step held (R417). -/
  | avsFault (p : Part)
  /-- PERST_RELEASE: PERST_N is released and boot begins at B1 (R365). -/
  | perstRelease
  /-- PERST_ASSERT: PERST_N asserted stops boot and returns the device to its reset state (R367). -/
  | perstAssert
  /-- REBOOT: HDF_CTL.REBOOT acts as a 1 ms PERST_N assertion (R367). -/
  | reboot
  /-- FLASH_DATA_ARRIVAL: Flash data of the header, table, signature or a section arrives and is checked (R374). -/
  | flashDataArrival (x : FlashPiece)
  /-- CAPABILITY_WORD: The capability word arrives during UCIe base-rate training and is copied to HDF_CAP (R378). -/
  | capabilityWord (w : BitVec 32)
  /-- BOOT_STEP_COMPLETION: A boot step's training or fetch completes and Headframe starts the next step (R365). -/
  | bootStepCompletion (r : StepRes)
  /-- LINK_WAIT_EXPIRY: LINK_WAIT_MS expires and an untrained Col Link port goes DOWN while boot continues (R366). -/
  | linkWaitExpiry
  /-- POLL_TIMEOUT: A register-write list POLL32 not satisfied in 100 ms is a POLL fault (R377). -/
  | pollTimeout
  /-- STAGE_GO: HDF_CTL.STAGE_GO lets Headframe run the HOST manifest entries (R382). -/
  | stageGo
  /-- HOST_WAIT_TIMEOUT: STAGE_GO or a peer read not done within HOST_WAIT_S stops boot with FETCH_ACCESS (R382). -/
  | hostWaitTimeout
  /-- PEER_READ_RETRY: A denied PEER manifest read is retried every 1 ms (R382). -/
  | peerReadRetry (d : Fin 8)
  /-- CONFIGURATION_REQUEST: A PCIe configuration request is answered, with Retry Status before EARLY is applied (R379). -/
  | configurationRequest (fn : Fin 9) (k : CfgOp)
  /-- CHALLENGE: SEC_DBG_CMD.CHALLENGE fills a new debug challenge (R385). -/
  | challenge
  /-- VERIFY: SEC_DBG_CMD.VERIFY checks the debug response and unlocks or fails (R385). -/
  | verify
  /-- RELOCK: SEC_DBG_CMD.RELOCK clears the debug unlock at once (R385). -/
  | relock
  /-- HOST_REGISTER_REQUEST: A BAR0 request is forwarded over UCIe to the register root and completed (R392). -/
  | hostRegisterRequest (fn : Fin 9) (bar4 : Bool) (off : BitVec 26) (op : MemOp)
  /-- BAR2_REQUEST: A host memory request through BAR2 is claim-checked and served or aborted (R391). -/
  | bar2Request (fn : Fin 9) (off : BitVec 40) (op : MemOp)
  /-- SETDASA: The I3C target takes a dynamic address from its static address (R422). -/
  | setdasa (st : BitVec 7) (dyn : BitVec 7)
  /-- ENTDAA: The I3C target takes a dynamic address through dynamic address assignment (R422). -/
  | entdaa (dyn : BitVec 7)
  /-- GO: DMA_d_CTL.GO starts a transfer of LEN bytes from SRC to DST (R399). -/
  | go (m : RegMaster) (d : Fin 8)
  /-- DMA_DONE: A DMA transfer ends OK or at its first failure, sets DONE and may send a message (R400). -/
  | dmaDone (d : Fin 8)
  /-- MSIX_UNMASK: Unmasking a vector with its pending bit set sends the message once (R401). -/
  | msixUnmask (fn : Fin 9) (vec : Fin 256)
  /-- EVENT_LOG_WRITE: A logged event's entry is written to the ring with the next sequence number, overwriting when full (R404). -/
  | eventLogWrite (e : EvArgs)
  /-- EVT_LOG_ACK_WRITE: A write to EVT_LOG_ACK is accepted and arms vector 0, or is rejected and logged (R406). -/
  | evtLogAckWrite (m : RegMaster) (v : BitVec 32)
  /-- EVT_EN_WRITE: Writing EN = 1 writes the held event buffer to the ring and arms vector 0 (R407). -/
  | evtEnWrite (m : RegMaster) (v : Bool)
  /-- PIN_FUNCTION_SWITCH: A change of PIN_MUX_n.FUNC switches the pin through two high-impedance HCLK cycles (R425). -/
  | pinFunctionSwitch (n : Fin 16) (func : BitVec 3)
  /-- GPIO_EDGE: A level change on a GPIO input sets its PIN_GPIO_EDGE bit (R426). -/
  | gpioEdge (n : Fin 16) (v : Bool)
  /-- REQ_TIMEOUT: A request unanswered after 10 ms completes with an uncorrectable error and is logged (R433). -/
  | reqTimeout (stop : BitVec 9) (tag : BitVec 12) (pa : BitVec 52)
  /-- DECLARE: PCTL_FAULT.DECLARE raises a fatal compute fault of the partition (R435). -/
  | declare (p : Part)
  /-- RUN: PCTL_CMD RUN returns the partition to normal operation from its boundary (R437). -/
  | run (m : RegMaster) (p : Part)
  /-- DRAIN: PCTL_CMD DRAIN frees frames, discards puts and releases INGRESS slots while active (R437). -/
  | drain (m : RegMaster) (p : Part)
  /-- HALT: PCTL_CMD HALT halts every cluster of the partition at the boundary (R437). -/
  | halt (m : RegMaster) (p : Part)
  /-- RESET: PCTL_CMD RESET holds every cluster in reset and returns TAKEN frames to READY (R437). -/
  | reset (m : RegMaster) (p : Part)
  /-- CLUSTER_HALT: CLU_DBG_CTL.HALT halts a cluster after issued instructions retire (R441). -/
  | clusterHalt (m : RegMaster) (h : Hart)
  /-- STEP: CLU_DBG_CTL.STEP retires one instruction and halts (R441). -/
  | step (m : RegMaster) (h : Hart)
  /-- RESUME: CLU_DBG_CTL.RESUME resumes a halted cluster (R441). -/
  | resume (m : RegMaster) (h : Hart)
  /-- DBG_TRIG_EDGE: A rising edge on an input DBG_TRIG pin halts every cluster of the selected partitions (R441). -/
  | dbgTrigEdge (k : Fin 4)
  /-- UCIE_MODULE_LOSS: UCIe module 0 is lost after RUN, a device-fatal error (R432). -/
  | ucieModuleLoss
  /-- STRETCH_DEPTH_CHANGE: A droop that deepens or eases during a stretch already in progress changes the stretch depth, updates MAX_STRETCH and, beyond 25 %, sets LIMIT and logs (R67). -/
  | stretchDepthChange (p : Part) (depth : Nat)
  /-- DVFS_STEP_COMPLETE: A DVFS step change of PCLKn completes within 1 µs of its start, STEP takes the new value, TRANSITION clears and the lower AVS setpoint is then commanded for a slower step (R66). -/
  | dvfsStepComplete (p : Part)
  /-- POWER_STATE_ENTRY_DONE: Entry of a partition to A1, A2 or A3 completes after its drain or flush and STATE shows the new state (R350). -/
  | powerStateEntryDone (p : Part)
  /-- VERIFICATION_DONE: A debug challenge or verification finishes, BUSY clears and, for VERIFY, UNLOCKED and SCOPE_ACTIVE or FAIL and FAIL_CNT are set and logged (R385). -/
  | verificationDone
  /-- CXL_UP: The CXL link trains and CXL_UP reads 1, so far-tier CXL requests are served again (R250). -/
  | cxlUp (lanes : BitVec 5) (speed : BitVec 2)
  /-- PIN_SWITCH_END: At the third HCLK edge from the switch edge the new pin function leaves high impedance and first samples and drives (R425). -/
  | pinSwitchEnd (n : Fin 16)
  /-- MAIN_POWER_REMOVAL: The board removes the rails, including VDD_AON, which releases THERMTRIP_N and puts the device in D3cold until a full boot (R361). -/
  | mainPowerRemoval
  /-- QCLK_STOP: No QCLK edge is seen for 1 µs, so ADM_STS.QCLK_PRESENT clears and swap edges wait for QCLK to resume (R45). -/
  | qclkStop
deriving DecidableEq, Repr

end Sys2Proof
end

