-- ==== Sys2Proof/Decode.lean ====
section
/-!
DEFINITION. Decode.lean: the command that a word spells by the bits of the opcode table.
-/
namespace Sys2Proof

/-- The opcode table gives no row any bits: no word spells a command. The instruction words of Hewer are read by
Sys2Proof.Machine.kindOf. (DESIGN CHOICE: assumption 4.) -/
def decodeTableWord (_nbits _w : Nat) : Option Instr := none

end Sys2Proof
end

