-- ==== Sys2Proof/Config.lean ====
section
/-!
DEFINITION. Config.lean: the values the specification leaves open. Each is a constant with no body, so that nothing can be proved
about it but what holds for every value.
-/
namespace Sys2Proof.Config

/-- A fresh 64-bit value for an open result, indexed by the machine's counter of such values (assumption 1).
(DESIGN CHOICE: assumption 1.) -/
opaque freeBits : Nat → BitVec 64

/-- A fresh natural number for an open choice, indexed by the same counter (assumption 1).
(DESIGN CHOICE: assumption 1.) -/
opaque freeNat : Nat → Nat

/-- Whether scalar FMIN and FMAX return the number when exactly one operand is a NaN; R122 does not say (assumption 10).
(DESIGN CHOICE: assumption 10.) -/
opaque fminNumber : Bool

/-- Whether SFMIN and SFMAX return the number when exactly one operand is a NaN; R153 does not say (assumption 10).
(DESIGN CHOICE: assumption 10.) -/
opaque sfminNumber : Bool

/-- The class word of FCLASS by operand value bits and format width; R122 names the instruction and no layout (assumption 11).
(DESIGN CHOICE: assumption 11.) -/
opaque fclassWord : Nat → BitVec 64 → BitVec 64

/-- The eight bytes of event detail: Table 22-6 lists what they hold, by event code, and not where each part stands
(assumption 14). (DESIGN CHOICE: assumption 14.) -/
opaque infoPack : Nat → List Nat → BitVec 64

/-- SHA-384, named by the boot chapter and not defined there (assumption 12).
(DESIGN CHOICE: assumption 12.) -/
opaque sha384 : List Byte → List Byte

/-- ECDSA P-384 signature verification, named by the boot chapter and not defined there: key, message hash, signature
(assumption 12). (DESIGN CHOICE: assumption 12.) -/
opaque ecdsaP384 : List Byte → List Byte → List Byte → Bool

/-- The direction, by its code modulo 5, of an instruction whose dynamic direction FCSR.RM is 0b111, which names none
(assumption 40). (DESIGN CHOICE: assumption 40.) -/
opaque dynRm : Nat

/-- The key that places a centroid whose key is a NaN in Assay's coarse selection, by the query, the centroid's bytes and its number; the
ranking of R342 gives a NaN no place there (assumption 91). (DESIGN CHOICE: assumption 91.) -/
opaque nanCentroid : List Nat → List (BitVec 8) → Nat → Nat

end Sys2Proof.Config
end

