-- ==== Sys2Proof/Machine/Num.lean ====
section
/-!
DEFINITION. Machine/Num.lean: the number formats of chapter 8 and arithmetic in them. A code is decoded to an exact dyadic value,
the operation is exact, and the result is rounded once (R164). Codes are naturals below 2 to the format's width.
-/
namespace Sys2Proof.Machine

/-! ### Formats and values -/

/-- How a format codes infinity and NaN (Table 8-2). -/
inductive FKind where
  | ieee | e4m3 | d4
deriving DecidableEq, Repr

/-- A floating-point layout: total, exponent and fraction widths, bias, special codes (Table 8-2). -/
structure Fmt where
  w : Nat
  e : Nat
  f : Nat
  bias : Nat
  kind : FKind
deriving DecidableEq, Repr

/-- binary64 (Table 8-2). -/
def fmtD : Fmt := ⟨64, 11, 52, 1023, .ieee⟩
/-- binary32 (Table 8-2). -/
def fmtS : Fmt := ⟨32, 8, 23, 127, .ieee⟩
/-- binary16 (Table 8-2). -/
def fmtH : Fmt := ⟨16, 5, 10, 15, .ieee⟩
/-- bfloat16 (Table 8-2). -/
def fmtBf : Fmt := ⟨16, 8, 7, 127, .ieee⟩
/-- E4M3 (Table 8-2). -/
def fmtE4 : Fmt := ⟨8, 4, 3, 7, .e4m3⟩
/-- E5M2 (Table 8-2). -/
def fmtE5 : Fmt := ⟨8, 5, 2, 15, .ieee⟩
/-- D4 (Table 8-3). -/
def fmtD4 : Fmt := ⟨4, 2, 1, 1, .d4⟩

/-- The value of a code: NaN (signaling or not), infinity, or a finite value (−1)^neg × m × 2^e. -/
inductive FVal where
  | nan (sig : Bool)
  | inf (neg : Bool)
  | fin (neg : Bool) (m : Nat) (e : Int)
deriving DecidableEq, Repr

/-- The rounding directions of Table 6-9. -/
inductive Rm where
  | rne | rtz | rdn | rup | rna
deriving DecidableEq, Repr

/-- A result code with the exception flags it raises: [4] invalid, [3] divide by zero, [2] overflow, [1] underflow,
[0] inexact (Table 6-4). -/
structure FRes where
  bits : Nat
  flags : BitVec 5
deriving DecidableEq, Repr

/-- The invalid flag. -/
def flNV : BitVec 5 := 0x10
/-- The divide-by-zero flag. -/
def flDZ : BitVec 5 := 0x08
/-- Overflow and inexact. -/
def flOX : BitVec 5 := 0x05
/-- Underflow and inexact. -/
def flUX : BitVec 5 := 0x03
/-- Inexact alone. -/
def flNX : BitVec 5 := 0x01

/-- The default NaN of a format (Table 8-4). -/
def Fmt.nan (t : Fmt) : Nat :=
  match t.kind with
  | .ieee => (2 ^ t.e - 1) * 2 ^ t.f + 2 ^ (t.f - 1)
  | .e4m3 => 0x7F
  | .d4 => 8

/-- The sign bit of a code. -/
def Fmt.neg (t : Fmt) (c : Nat) : Bool := c / 2 ^ (t.w - 1) % 2 == 1

/-- The largest exponent field of a finite value. -/
def Fmt.emax (t : Fmt) : Nat :=
  match t.kind with
  | .ieee => 2 ^ t.e - 2
  | _ => 2 ^ t.e - 1

/-- The largest fraction at the largest exponent field. -/
def Fmt.fmax (t : Fmt) : Nat :=
  match t.kind with
  | .e4m3 => 2 ^ t.f - 2
  | _ => 2 ^ t.f - 1

/-- The code with the given sign, exponent field and fraction. -/
def Fmt.code (t : Fmt) (neg : Bool) (e f : Nat) : Nat :=
  (if neg then 2 ^ (t.w - 1) else 0) + e * 2 ^ t.f + f

/-- ± the largest finite value. -/
def Fmt.max (t : Fmt) (neg : Bool) : Nat := t.code neg t.emax t.fmax

/-- ± infinity; formats without one give their largest finite value (row C2). -/
def Fmt.inf (t : Fmt) (neg : Bool) : Nat :=
  match t.kind with
  | .ieee => t.code neg (2 ^ t.e - 1) 0
  | _ => t.max neg

/-- ± zero; D4 has no negative zero (R158). -/
def Fmt.zero (t : Fmt) (neg : Bool) : Nat :=
  match t.kind with
  | .d4 => 0
  | _ => t.code neg 0 0

/-- The value of a code (R157, R158, R160). -/
def Fmt.decode (t : Fmt) (c : Nat) : FVal :=
  let neg := t.neg c
  let e := c / 2 ^ t.f % 2 ^ t.e
  let f := c % 2 ^ t.f
  let fin := if e = 0 then FVal.fin neg f (1 - (t.bias : Int) - t.f)
    else FVal.fin neg (2 ^ t.f + f) ((e : Int) - t.bias - t.f)
  match t.kind with
  | .ieee =>
    if e = 2 ^ t.e - 1 then
      (if f = 0 then .inf neg else .nan (decide (8 < t.w) && decide (f < 2 ^ (t.f - 1))))
    else fin
  | .e4m3 => if e = 15 ∧ f = 7 then .nan false else fin
  | .d4 => if c % 16 = 8 then .nan false else fin

/-- The format reads `c` as a subnormal. -/
def Fmt.isSub (t : Fmt) (c : Nat) : Bool :=
  decide (c / 2 ^ t.f % 2 ^ t.e = 0) && decide (c % 2 ^ t.f ≠ 0)

/-- FTZ_IN: a subnormal operand reads as zero of the same sign (R166). -/
def Fmt.ftz (t : Fmt) (on : Bool) (c : Nat) : Nat :=
  if on && t.isSub c then t.zero (t.neg c) else c

/-! ### Rounding (R164, R165, rows C2 to C4) -/

/-- Bits needed to write `m`. -/
def bitLen (m : Nat) : Nat := if m = 0 then 0 else Nat.log2 m + 1

/-- m × 2^-s rounded to an integer in direction `rm`, with whether anything was lost. -/
def roundShift (rm : Rm) (neg : Bool) (m s : Nat) : Nat × Bool :=
  let q := m / 2 ^ s
  let r := m % 2 ^ s
  let half := 2 ^ s / 2
  let up := match rm with
    | .rne => decide (half < r) || (decide (r = half) && decide (0 < r) && decide (q % 2 = 1))
    | .rna => decide (half ≤ r) && decide (0 < r)
    | .rtz => false
    | .rdn => neg && decide (0 < r)
    | .rup => !neg && decide (0 < r)
  (if up then q + 1 else q, decide (0 < r))

/-- The result of an overflow: the IEEE 754-2019 result for the direction, or the largest finite value of a saturating
destination (row C3). -/
def overflowCode (t : Fmt) (sat : Bool) (rm : Rm) (neg : Bool) : Nat :=
  let toInf := match rm with
    | .rne => true
    | .rna => true
    | .rtz => false
    | .rdn => neg
    | .rup => !neg
  if sat || t.kind ≠ .ieee || !toInf then t.max neg else t.inf neg

/-- The finite value (−1)^neg × m × 2^e, m > 0, exactly halfway between the largest finite value and the step above it
(Table 8-9). (DEDUCED: assumption 66.) -/
def isHalfAbove (t : Fmt) (m : Nat) (e : Int) : Bool :=
  let q : Int := (t.emax : Int) - t.bias - t.f
  let h := 2 * (2 ^ t.f + t.fmax) + 1
  let k := q - 1
  if e ≥ k then m * 2 ^ (e - k).toNat == h else m == h * 2 ^ (k - e).toNat

/-- Rounds the nonzero finite value (−1)^neg × m × 2^e into format `t` (row C3): tininess is judged after rounding.
(DEDUCED: assumption 66.) -/
def encodeFin (t : Fmt) (sat : Bool) (rm : Rm) (neg : Bool) (m : Nat) (e : Int) : FRes :=
  let top : Int := e + (bitLen m : Int) - 1
  let emin : Int := 1 - (t.bias : Int)
  let q : Int := (if top < emin then emin else top) - t.f
  let (n0, lost) := if e ≥ q then (m * 2 ^ (e - q).toNat, false) else roundShift rm neg m (q - e).toNat
  let (n, q) := if n0 = 2 ^ (t.f + 1) then (2 ^ t.f, q + 1) else (n0, q)
  let saturating := sat || t.kind ≠ .ieee
  if n < 2 ^ t.f then
    { bits := if n = 0 then t.zero neg else t.code neg 0 n, flags := if lost then flUX else 0 }
  else
    let be := (q + t.f + t.bias).toNat
    if t.emax < be ∨ (be = t.emax ∧ t.fmax < n - 2 ^ t.f) ∨ (saturating = true ∧ isHalfAbove t m e = true) then
      { bits := overflowCode t sat rm neg, flags := flOX }
    else { bits := t.code neg be (n - 2 ^ t.f), flags := if lost then flNX else 0 }

/-- A value as a code of format `t`, by rows C1 to C4 of Table 8-6. -/
def encodeVal (t : Fmt) (sat : Bool) (rm : Rm) (v : FVal) : FRes :=
  match v with
  | .nan sig => { bits := t.nan, flags := if sig then flNV else 0 }
  | .inf neg =>
    if sat || t.kind ≠ .ieee then { bits := t.max neg, flags := flNV } else { bits := t.inf neg, flags := 0 }
  | .fin neg m e => if m = 0 then { bits := t.zero neg, flags := 0 } else encodeFin t sat rm neg m e

/-- FTZ_OUT: a result subnormal after rounding becomes zero of its sign, with underflow and inexact (R166). -/
def ftzOut (t : Fmt) (on : Bool) (r : FRes) : FRes :=
  if on && t.isSub r.bits then { bits := t.zero (t.neg r.bits), flags := r.flags ||| flUX } else r

/-! ### Exact arithmetic -/

/-- The exact sum of two finite values as a signed integer times a power of two. -/
def dyAdd (a b : Int × Int) : Int × Int :=
  let e := min a.2 b.2
  (a.1 * 2 ^ (a.2 - e).toNat + b.1 * 2 ^ (b.2 - e).toNat, e)

/-- A finite value as a signed integer times a power of two. -/
def dyOf (neg : Bool) (m : Nat) (e : Int) : Int × Int := (if neg then -(m : Int) else (m : Int), e)

/-- A signed dyadic as a finite value; `z` is the sign of an exact zero. -/
def dyVal (z : Bool) (d : Int × Int) : FVal :=
  if d.1 = 0 then .fin z 0 0 else .fin (decide (d.1 < 0)) d.1.natAbs d.2

/-- The settings an arithmetic instruction captures: direction, FTZ_IN, FTZ_OUT and SATFP8 (R142, R164, R166, R168). -/
structure FEnv where
  rm : Rm
  ftzIn : Bool
  ftzOut : Bool
  sat : Bool
deriving DecidableEq, Repr

/-- Whether format `t` is a saturating destination (8.6): E4M3 and D4 always, E5M2 under SATFP8. -/
def FEnv.satFor (g : FEnv) (t : Fmt) : Bool :=
  match t.kind with
  | .ieee => g.sat && t.w == 8
  | _ => true

/-- Rounds an exact arithmetic value into `t`, with FTZ_OUT. -/
def finish (g : FEnv) (t : Fmt) (v : FVal) (extra : BitVec 5) : FRes :=
  let r := ftzOut t g.ftzOut (encodeVal t (g.satFor t) g.rm v)
  { r with flags := r.flags ||| extra }

/-- An operand after FTZ_IN. -/
def operand (g : FEnv) (t : Fmt) (c : Nat) : FVal := t.decode (t.ftz g.ftzIn c)

/-- Whether a value is a signaling NaN. -/
def FVal.isSig : FVal → Bool
  | .nan s => s
  | _ => false

/-- Whether a value is a NaN. -/
def FVal.isNan : FVal → Bool
  | .nan _ => true
  | _ => false

/-- The NaN result of an operation: default NaN, invalid if an operand is signaling or `bad` holds (R160). -/
def nanRes (t : Fmt) (bad : Bool) : FRes := { bits := t.nan, flags := if bad then flNV else 0 }

/-- The exact sum of two values, or `none` for infinities of both signs; an exact zero of unlike signs is −0 only toward −∞. -/
def addVal (rm : Rm) (a b : FVal) : Option FVal :=
  match a, b with
  | .inf x, .inf y => if x = y then some (.inf x) else none
  | .inf x, _ => some (.inf x)
  | _, .inf y => some (.inf y)
  | .fin x m e, .fin y n f =>
    let z := if m = 0 ∧ n = 0 ∧ x = y then x else decide (rm = .rdn)
    some (dyVal z (dyAdd (dyOf x m e) (dyOf y n f)))
  | a, _ => some a

/-- The exact product of two values, or `none` for infinity times zero. -/
def mulVal (a b : FVal) : Option FVal :=
  match a, b with
  | .inf x, .inf y => some (.inf (x != y))
  | .inf x, .fin y n _ => if n = 0 then none else some (.inf (x != y))
  | .fin x m _, .inf y => if m = 0 then none else some (.inf (x != y))
  | .fin x m e, .fin y n f => some (.fin (x != y) (m * n) (e + f))
  | a, _ => some a

/-- A value with its sign changed. -/
def FVal.negate : FVal → FVal
  | .nan s => .nan s
  | .inf x => .inf (!x)
  | .fin x m e => .fin (!x) m e

/-- Addition, operands in `s`, result in `t` (R122, R145). -/
def fAdd (g : FEnv) (s t : Fmt) (a b : Nat) : FRes :=
  let x := operand g s a
  let y := operand g s b
  if x.isNan || y.isNan then nanRes t (x.isSig || y.isSig)
  else match addVal g.rm x y with
    | some v => finish g t v 0
    | none => nanRes t true

/-- Subtraction. -/
def fSub (g : FEnv) (s t : Fmt) (a b : Nat) : FRes :=
  let x := operand g s a
  let y := operand g s b
  if x.isNan || y.isNan then nanRes t (x.isSig || y.isSig)
  else match addVal g.rm x y.negate with
    | some v => finish g t v 0
    | none => nanRes t true

/-- Multiplication. -/
def fMul (g : FEnv) (s t : Fmt) (a b : Nat) : FRes :=
  let x := operand g s a
  let y := operand g s b
  if x.isNan || y.isNan then nanRes t (x.isSig || y.isSig)
  else match mulVal x y with
    | some v => finish g t v 0
    | none => nanRes t true

/-- The quotient of two naturals to far more bits than any format holds, with the last bit sticky. -/
def divSticky (m n : Nat) : Nat × Int :=
  let k := 130 + bitLen n
  let q := m * 2 ^ k / n
  let r := m * 2 ^ k % n
  (2 * q + (if r = 0 then 0 else 1), -(k : Int) - 1)

/-- Division. -/
def fDiv (g : FEnv) (t : Fmt) (a b : Nat) : FRes :=
  let x := operand g t a
  let y := operand g t b
  match x, y with
  | .nan s, _ => nanRes t (s || y.isSig)
  | _, .nan s => nanRes t s
  | .inf _, .inf _ => nanRes t true
  | .inf p, .fin q _ _ => finish g t (.inf (p != q)) 0
  | .fin p _ _, .inf q => finish g t (.fin (p != q) 0 0) 0
  | .fin p m e, .fin q n f =>
    if n = 0 then (if m = 0 then nanRes t true else finish g t (.inf (p != q)) flDZ)
    else if m = 0 then finish g t (.fin (p != q) 0 0) 0
    else
      let (d, k) := divSticky m n
      finish g t (.fin (p != q) d (e - f + k)) 0

/-- Integer square root by successive bits from 2^k down: the largest r with r² ≤ n. -/
def isqrtBits (n : Nat) : Nat → Nat → Nat
  | 0, r => if (r + 1) * (r + 1) ≤ n then r + 1 else r
  | k + 1, r =>
    let c := r + 2 ^ (k + 1)
    isqrtBits n k (if c * c ≤ n then c else r)

/-- Square root. -/
def fSqrt (g : FEnv) (t : Fmt) (a : Nat) : FRes :=
  match operand g t a with
  | .nan s => nanRes t s
  | .inf neg => if neg then nanRes t true else finish g t (.inf false) 0
  | .fin neg m e =>
    if m = 0 then finish g t (.fin neg 0 0) 0
    else if neg then nanRes t true
    else
      let e2 := if e % 2 = 0 then e else e - 1
      let m2 := if e % 2 = 0 then m else 2 * m
      let n := m2 * 2 ^ 260
      let r := isqrtBits n (bitLen n / 2 + 1) 0
      finish g t (.fin false (2 * r + (if r * r = n then 0 else 1)) (e2 / 2 - 131)) 0

/-- Fused multiply-add in exact arithmetic with one rounding: (−1)^np × a × b + (−1)^nc × c; a and b in `s`, c and the result
in `t` (R122, R142, R145). -/
def fFma (g : FEnv) (s t : Fmt) (np nc : Bool) (a b c : Nat) : FRes :=
  let x := operand g s a
  let y := operand g s b
  let z := operand g t c
  if x.isNan || y.isNan || z.isNan then nanRes t (x.isSig || y.isSig || z.isSig)
  else match mulVal x y with
    | none => nanRes t true
    | some p =>
      let p := if np then p.negate else p
      let z := if nc then z.negate else z
      match addVal g.rm p z with
      | some v => finish g t v 0
      | none => nanRes t true

/-- Whether x < y as values; −0 and +0 are equal; false if either is a NaN. -/
def ltVal (x y : FVal) : Bool :=
  match x, y with
  | .nan _, _ => false
  | _, .nan _ => false
  | .inf p, .inf q => p && !q
  | .inf p, _ => p
  | _, .inf q => !q
  | .fin p m e, .fin q n f => decide ((dyAdd (dyOf p m e) (dyOf (!q) n f)).1 < 0)

/-- Whether x = y as values. -/
def eqVal (x y : FVal) : Bool := !x.isNan && !y.isNan && !ltVal x y && !ltVal y x

/-- FP compares (R122, R143): a quiet NaN sets no flag (R160). `op`: 0 equal, 1 less, 2 less or equal, 3 unordered.
(DEDUCED: assumption 66.) -/
def fCmp (g : FEnv) (t : Fmt) (op : Nat) (a b : Nat) : Bool × BitVec 5 :=
  let x := operand g t a
  let y := operand g t b
  let r := match op with
    | 0 => eqVal x y
    | 1 => ltVal x y
    | 2 => ltVal x y || eqVal x y
    | _ => x.isNan || y.isNan
  (r, if x.isSig || y.isSig then flNV else 0)

/-- Minimum (`mx` false) or maximum; `num` selects minimumNumber for one NaN operand; −0 is below +0 (R142).
(DESIGN CHOICE: assumption 10.) (DEDUCED: assumption 66.) -/
def fMinMax (g : FEnv) (t : Fmt) (num mx : Bool) (a b : Nat) : FRes :=
  let x := operand g t a
  let y := operand g t b
  let sig := x.isSig || y.isSig
  let fl : BitVec 5 := if sig then flNV else 0
  if x.isNan && y.isNan then nanRes t sig
  else if x.isNan then (if num then finish g t y fl else nanRes t sig)
  else if y.isNan then (if num then finish g t x fl else nanRes t sig)
  else
    let less := ltVal x y || (eqVal x y && t.neg a && !t.neg b)
    finish g t (if less != mx then x else y) fl

/-- Sign injection: `k` 0 copies the sign of b, 1 its complement, 2 the exclusive or of both signs (R122). -/
def fSgnj (t : Fmt) (k : Nat) (a b : Nat) : Nat :=
  let s := match k with
    | 0 => t.neg b
    | 1 => !t.neg b
    | _ => t.neg a != t.neg b
  a % 2 ^ (t.w - 1) + (if s then 2 ^ (t.w - 1) else 0)

/-! ### Conversions (R168, Table 8-6) -/

/-- FP to FP: rows C1 to C4. -/
def cvtFF (g : FEnv) (s t : Fmt) (c : Nat) : FRes :=
  encodeVal t (g.satFor t) g.rm (s.decode c)

/-- A value times 2^k, exactly. -/
def FVal.scale (k : Int) : FVal → FVal
  | .fin x m e => .fin x m (e + k)
  | v => v

/-- An integer range: signed or unsigned, of width w. -/
def intLo (sg : Bool) (w : Nat) : Int := if sg then -(2 ^ (w - 1) : Int) else 0
/-- The largest integer of the range. -/
def intHi (sg : Bool) (w : Nat) : Int := if sg then (2 ^ (w - 1) : Int) - 1 else (2 ^ w : Int) - 1

/-- An integer as a w-bit code. -/
def intCode (w : Nat) (i : Int) : Nat := (i % (2 ^ w : Int)).toNat

/-- A w-bit code as an integer. -/
def codeInt (sg : Bool) (w : Nat) (c : Nat) : Int :=
  let c := c % 2 ^ w
  if sg && decide (2 ^ (w - 1) ≤ c) then (c : Int) - (2 ^ w : Int) else (c : Int)

/-- FP to integer: rows C1, C2 and C5. -/
def cvtFI (rm : Rm) (s : Fmt) (sg : Bool) (w : Nat) (v : FVal) : FRes :=
  match v with
  | .nan _ => { bits := 0, flags := flNV }
  | .inf neg => { bits := intCode w (if neg then intLo sg w else intHi sg w), flags := flNV }
  | .fin neg m e =>
    let (n, lost) := if e ≥ 0 then (m * 2 ^ e.toNat, false) else roundShift rm neg m (-e).toNat
    let i : Int := if neg then -(n : Int) else n
    if i < intLo sg w then { bits := intCode w (intLo sg w), flags := flNV }
    else if intHi sg w < i then { bits := intCode w (intHi sg w), flags := flNV }
    else { bits := intCode w i, flags := if lost then flNX else 0 }

/-- Integer to FP: row C6. -/
def cvtIF (g : FEnv) (t : Fmt) (i : Int) : FRes :=
  encodeVal t (g.satFor t) g.rm (.fin (decide (i < 0)) i.natAbs 0)

/-- Integer to integer: row C7, clamped to a signed destination. -/
def cvtII (w : Nat) (i : Int) : Nat :=
  intCode w (if i < intLo true w then intLo true w else if intHi true w < i then intHi true w else i)

/-! ### Block scales (R161 to R163) -/

/-- The power of two of scale byte `s`. -/
def scaleExp (s : Nat) : Int := (s : Int) - 127

/-- The exact value of element code `c` under scale byte `s`; 0xFF makes it a NaN (R161). -/
def scaledVal (t : Fmt) (s c : Nat) : FVal :=
  if s % 256 = 255 then .nan false else (t.decode c).scale (scaleExp (s % 256))

/-- Scaled decode into `t`, rounded once (R161). -/
def scaledDecode (g : FEnv) (s t : Fmt) (sc c : Nat) : FRes :=
  encodeVal t (g.satFor t) g.rm (scaledVal s sc c)

/-- Scaled encode of a value into `t` (R162); a signaling NaN is invalid whatever the scale (R160, R168). -/
def scaledEncode (g : FEnv) (t : Fmt) (sc : Nat) (v : FVal) : FRes :=
  if sc % 256 = 255 then { bits := t.nan, flags := if v.isSig then flNV else 0 }
  else encodeVal t (g.satFor t) g.rm (v.scale (-(scaleExp (sc % 256))))

/-- The magnitude of a finite value; other values count as 0 (R163). -/
def finMag : FVal → FVal
  | .fin _ m e => .fin false m e
  | _ => .fin false 0 0

/-- The largest finite value of a block format: 6, 448 or 57,344 (R163). -/
def maxF (t : Fmt) : FVal := t.decode (t.max false)

/-- Smallest exponent from `e` up, within `fuel` steps, with a ≤ maxF × 2^e (R163). -/
def scaleFrom (a mf : FVal) : Nat → Int → Int
  | 0, e => e
  | k + 1, e => if ltVal (mf.scale e) a then scaleFrom a mf k (e + 1) else e

/-- The block scale the device chooses (R163). -/
def scaleSel (t : Fmt) (xs : List FVal) : Nat :=
  let a := xs.foldl (fun a x => if ltVal a (finMag x) then finMag x else a) (.fin false 0 0)
  match a with
  | .fin _ 0 _ => 127
  | _ => (127 + scaleFrom a (maxF t) 254 (-127)).toNat

/-! ### Exact sums (R175, R176, chapter 10) -/

/-- A running exact sum: NaN seen, +∞ seen, −∞ seen, and the finite part. -/
structure ESum where
  nan : Bool
  pinf : Bool
  ninf : Bool
  d : Int × Int
deriving DecidableEq, Repr

/-- The empty sum. -/
def ESum.zero : ESum := ⟨false, false, false, (0, 0)⟩

/-- Adds an exact value. -/
def ESum.add (s : ESum) (v : FVal) : ESum :=
  match v with
  | .nan _ => { s with nan := true }
  | .inf true => { s with ninf := true }
  | .inf false => { s with pinf := true }
  | .fin x m e => if m = 0 then s else { s with d := dyAdd s.d (dyOf x m e) }

/-- Adds an exact product; infinity times zero makes the sum a NaN (R176). -/
def ESum.addProd (s : ESum) (a b : FVal) : ESum :=
  if a.isNan || b.isNan then { s with nan := true }
  else match mulVal a b with
    | some v => s.add v
    | none => { s with nan := true }

/-- The sum as a value: NaN for a NaN or for infinities of both signs. -/
def ESum.val (s : ESum) : FVal :=
  if s.nan || (s.pinf && s.ninf) then .nan false
  else if s.pinf then .inf false
  else if s.ninf then .inf true
  else dyVal false s.d

/-- An exact sum rounded once to nearest even into accumulator format `t`, with FTZ_OUT (R175).
(DEDUCED: assumption 66.) -/
def ESum.round (s : ESum) (t : Fmt) (ftz : Bool) : Nat :=
  (ftzOut t ftz (encodeVal t false .rne s.val)).bits

/-! ### The reduction tree (R150) -/

/-- One level of the tree: neighbours combine, an odd last element moves up unchanged. -/
def treeLevel {α : Type} (op : α → α → α) : List α → List α
  | a :: b :: t => op a b :: treeLevel op t
  | l => l

/-- The tree with at most `n` levels. -/
def treeFrom {α : Type} (op : α → α → α) : Nat → List α → List α
  | 0, l => l
  | n + 1, l => match l with
    | [] => []
    | a :: [] => [a]
    | _ => treeFrom op n (treeLevel op l)

/-- reduce_tree; of no elements, `z` (R150). -/
def reduceTree {α : Type} (op : α → α → α) (z : α) (l : List α) : α := (treeFrom op (bitLen l.length + 1) l).headD z

/-- Blocks of 32 items, the last possibly shorter. -/
def blocks32 {α : Type} : Nat → List α → List (List α)
  | 0, _ => []
  | n + 1, l => if l.isEmpty then [] else l.take 32 :: blocks32 n (l.drop 32)

/-- Round to nearest even, no FTZ, no saturation: Assay's environment (R331). -/
def envRne : FEnv := ⟨.rne, false, false, false⟩

/-- A list's numbers read from packed little-endian elements of `w` bits (R138, R159). -/
def unpackBits (w n : Nat) (b : Nat) : List Nat := (List.range n).map (fun i => b / 2 ^ (w * i) % 2 ^ w)

end Sys2Proof.Machine
end

