-- ==== Sys2Proof/Machine/Crc.lean ====
section
/-!
DEFINITION. Machine/Crc.lean: the check polynomials of Table 15-4, bit by bit.
-/
namespace Sys2Proof.Machine

/-- One step of a CRC register of width `w` that shifts left, most significant bit first. -/
def crcStep (w poly c : Nat) (b : Bool) : Nat :=
  let top := c.testBit (w - 1)
  let sh := c * 2 % 2 ^ w
  if top != b then sh ^^^ poly else sh

/-- The bits of a byte, most significant first. -/
def bitsMsb (b : Byte) : List Bool := (List.range 8).map (fun i => b.getLsbD (7 - i))

/-- The bits of a byte, least significant first. -/
def bitsLsb (b : Byte) : List Bool := (List.range 8).map (fun i => b.getLsbD i)

/-- The CRC register after a list of bytes. -/
def crcRun (w poly : Nat) (refl : Bool) (init : Nat) (data : List Byte) : Nat :=
  data.foldl (fun c b => (if refl then bitsLsb b else bitsMsb b).foldl (crcStep w poly) c) init

/-- The low `w` bits of a number in reverse order. -/
def revBits (w x : Nat) : Nat := (List.range w).foldl (fun r i => r * 2 + x / 2 ^ i % 2) 0

/-- CRC-32C (Table 15-4). -/
def crc32c (data : List Byte) : Nat := revBits 32 (crcRun 32 0x1EDC6F41 true 0xFFFFFFFF data) ^^^ 0xFFFFFFFF

/-- CRC-64 (ECMA-182) (Table 15-4). -/
def crc64 (data : List Byte) : Nat := crcRun 64 0x42F0E1EBA9EA3693 false 0 data

/-- CRC-16-CCITT (Table 15-4). -/
def crc16 (data : List Byte) : Nat := crcRun 16 0x1021 false 0xFFFF data

/-- The CRC that a POLY code selects. -/
def crcOf (poly : Nat) (data : List Byte) : Nat :=
  match poly with
  | 0 => crc32c data
  | 1 => crc64 data
  | _ => crc16 data

/-- The trailer bytes of a POLY code. -/
def crcBytes (poly : Nat) : Nat :=
  match poly with
  | 0 => 4
  | 1 => 8
  | _ => 2

end Sys2Proof.Machine
end

