-- ==== Sys2Proof/Machine/RegTypes.lean ====
section
/-!
DEFINITION. Machine/RegTypes.lean: what a register field is: its bits, its access code (Table 0-6), its class (Table 0-7)
and the value it holds after PERST_N is released.
-/
namespace Sys2Proof.Machine

/-- The access codes of Table 0-6 (R10). `cnt` is an RW count that a write of 0 clears and any other write leaves alone. -/
inductive Acc where
  | ro | rw | w1c | w1s | wo | cnt
deriving DecidableEq, Repr

/-- The field classes of Table 0-7 (R12); `fixed` is a field software cannot write. -/
inductive Cls where
  | fixed | sealed | beat | live | idle
deriving DecidableEq, Repr

/-- One field of a register: lowest bit, width, access code, class, reset value. -/
structure FieldRow where
  lo : Nat
  w : Nat
  acc : Acc
  cls : Cls
  reset : Nat
deriving DecidableEq, Repr

/-- `count` registers of one layout, from block offset `base`, `stride` bytes apart; `pair` marks a 64-bit pair (R395). -/
structure RegRow where
  base : Nat
  stride : Nat
  count : Nat
  pair : Bool
  fields : List FieldRow
deriving DecidableEq, Repr

/-- The place of one field in register space: the register's byte offset, lowest bit and width. -/
structure Fld where
  addr : Nat
  lo : Nat
  w : Nat
deriving DecidableEq, Repr

end Sys2Proof.Machine
end

