-- ==== Sys2Proof/Machine/RegMap.lean ====
section
/-!
DEFINITION. Machine/RegMap.lean: every register field of the register block map (R13, Table 0-8), block by block, with the
bits, access code, class and reset value of its own field table, and one name per field. Names are the specification's.
-/
namespace Sys2Proof.Machine

/-- Base of the window of partition `n` (Table 0-8). -/
def partBase (n : Nat) : Nat := 0x100000 + 0x100000 * n

/-- Base of the sub-block of cluster `c` of partition `n` (Table 0-8). -/
def cluBase (n c : Nat) : Nat := partBase n + 0x20000 + 0x1000 * c

/-- The registers of block ADM. -/
def rowsAdm : List RegRow := [
  ⟨0x0, 0x4, 1, false, [⟨8, 8, .rw, .beat, 0x0⟩, ⟨4, 4, .rw, .sealed, 0x0⟩, ⟨2, 1, .rw, .sealed, 0x0⟩, ⟨0, 2, .rw, .beat, 0x0⟩]⟩,
  ⟨0x4, 0x4, 1, false, [⟨19, 1, .ro, .fixed, 0x0⟩, ⟨18, 1, .w1c, .live, 0x0⟩, ⟨17, 1, .w1c, .live, 0x0⟩, ⟨16, 1, .w1c, .live, 0x0⟩, ⟨4, 12, .ro, .fixed, 0x0⟩, ⟨3, 1, .ro, .fixed, 0x0⟩, ⟨2, 1, .ro, .fixed, 0x0⟩]⟩,
  ⟨0x10, 0x4, 1, true, [⟨16, 36, .rw, .sealed, 0x0⟩]⟩,
  ⟨0x18, 0x4, 1, false, [⟨0, 32, .ro, .fixed, 0x0⟩]⟩,
  ⟨0x20, 0x4, 1, false, [⟨24, 1, .rw, .live, 0x0⟩, ⟨12, 12, .rw, .live, 0x0⟩, ⟨0, 12, .rw, .live, 0xfff⟩]⟩,
  ⟨0x24, 0x4, 1, false, [⟨16, 16, .cnt, .live, 0x0⟩, ⟨2, 1, .w1c, .live, 0x0⟩, ⟨1, 1, .w1c, .live, 0x0⟩, ⟨0, 1, .ro, .fixed, 0x0⟩]⟩,
  ⟨0x100, 0x8, 8, false, [⟨16, 10, .rw, .beat, 0x0⟩, ⟨2, 3, .rw, .sealed, 0x0⟩, ⟨1, 1, .rw, .beat, 0x0⟩, ⟨0, 1, .rw, .beat, 0x0⟩]⟩,
  ⟨0x104, 0x8, 8, false, [⟨16, 8, .rw, .beat, 0x1⟩, ⟨8, 8, .rw, .beat, 0x0⟩, ⟨0, 8, .rw, .beat, 0x0⟩]⟩]

/-- The registers of block TAL. -/
def rowsTal0 : List RegRow := [
  ⟨0x0, 0x4, 1, false, [⟨16, 8, .wo, .live, 0x0⟩, ⟨8, 8, .wo, .live, 0x0⟩, ⟨0, 8, .wo, .live, 0x0⟩]⟩,
  ⟨0x4, 0x4, 1, false, [⟨8, 1, .ro, .fixed, 0x0⟩, ⟨0, 8, .w1c, .live, 0x0⟩]⟩,
  ⟨0x40, 0x8, 8, true, [⟨0, 64, .ro, .fixed, 0x0⟩]⟩,
  ⟨0x100, 0x10, 8, false, [⟨31, 1, .rw, .beat, 0x0⟩, ⟨30, 1, .rw, .live, 0x0⟩, ⟨29, 1, .rw, .beat, 0x0⟩, ⟨27, 2, .rw, .beat, 0x0⟩, ⟨16, 4, .rw, .beat, 0x0⟩, ⟨0, 7, .rw, .beat, 0x0⟩]⟩,
  ⟨0x104, 0x10, 8, false, [⟨0, 16, .rw, .beat, 0x0⟩]⟩,
  ⟨0x108, 0x10, 8, false, [⟨16, 16, .cnt, .live, 0x0⟩, ⟨2, 1, .w1c, .live, 0x0⟩, ⟨1, 1, .w1c, .live, 0x0⟩, ⟨0, 1, .ro, .fixed, 0x0⟩]⟩,
  ⟨0x10c, 0x10, 8, false, [⟨31, 1, .ro, .fixed, 0x0⟩, ⟨24, 7, .ro, .fixed, 0x0⟩, ⟨0, 24, .ro, .fixed, 0x0⟩]⟩,
  ⟨0x1000, 0x8, 65, true, [⟨63, 1, .ro, .fixed, 0x0⟩, ⟨0, 48, .ro, .fixed, 0x0⟩]⟩,
  ⟨0x1400, 0x8, 65, true, [⟨63, 1, .ro, .fixed, 0x0⟩, ⟨0, 48, .ro, .fixed, 0x0⟩]⟩,
  ⟨0x1800, 0x8, 65, true, [⟨63, 1, .ro, .fixed, 0x0⟩, ⟨0, 48, .ro, .fixed, 0x0⟩]⟩,
  ⟨0x1c00, 0x8, 65, true, [⟨63, 1, .ro, .fixed, 0x0⟩, ⟨0, 48, .ro, .fixed, 0x0⟩]⟩,
  ⟨0x2000, 0x8, 65, true, [⟨63, 1, .ro, .fixed, 0x0⟩, ⟨0, 48, .ro, .fixed, 0x0⟩]⟩,
  ⟨0x2400, 0x8, 65, true, [⟨63, 1, .ro, .fixed, 0x0⟩, ⟨0, 48, .ro, .fixed, 0x0⟩]⟩,
  ⟨0x2800, 0x8, 65, true, [⟨63, 1, .ro, .fixed, 0x0⟩, ⟨0, 48, .ro, .fixed, 0x0⟩]⟩,
  ⟨0x2c00, 0x8, 65, true, [⟨63, 1, .ro, .fixed, 0x0⟩, ⟨0, 48, .ro, .fixed, 0x0⟩]⟩,
  ⟨0x3000, 0x8, 65, true, [⟨63, 1, .ro, .fixed, 0x0⟩, ⟨0, 48, .ro, .fixed, 0x0⟩]⟩,
  ⟨0x3400, 0x8, 65, true, [⟨63, 1, .ro, .fixed, 0x0⟩, ⟨0, 48, .ro, .fixed, 0x0⟩]⟩,
  ⟨0x3800, 0x8, 65, true, [⟨63, 1, .ro, .fixed, 0x0⟩, ⟨0, 48, .ro, .fixed, 0x0⟩]⟩,
  ⟨0x3c00, 0x8, 65, true, [⟨63, 1, .ro, .fixed, 0x0⟩, ⟨0, 48, .ro, .fixed, 0x0⟩]⟩,
  ⟨0x4000, 0x8, 65, true, [⟨63, 1, .ro, .fixed, 0x0⟩, ⟨0, 48, .ro, .fixed, 0x0⟩]⟩]

/-- The registers of block TAL. -/
def rowsTal1 : List RegRow := [
  ⟨0x4400, 0x8, 65, true, [⟨63, 1, .ro, .fixed, 0x0⟩, ⟨0, 48, .ro, .fixed, 0x0⟩]⟩,
  ⟨0x4800, 0x8, 65, true, [⟨63, 1, .ro, .fixed, 0x0⟩, ⟨0, 48, .ro, .fixed, 0x0⟩]⟩,
  ⟨0x4c00, 0x8, 65, true, [⟨63, 1, .ro, .fixed, 0x0⟩, ⟨0, 48, .ro, .fixed, 0x0⟩]⟩]

/-- The registers of block TAL. -/
def rowsTal : List RegRow := rowsTal0 ++ rowsTal1

/-- The registers of block CLK. -/
def rowsClk : List RegRow := [
  ⟨0x0, 0x4, 1, false, [⟨16, 16, .cnt, .live, 0x0⟩, ⟨5, 1, .ro, .fixed, 0x0⟩, ⟨4, 1, .ro, .fixed, 0x0⟩, ⟨3, 1, .w1c, .live, 0x0⟩, ⟨2, 1, .ro, .fixed, 0x0⟩, ⟨1, 1, .ro, .fixed, 0x0⟩, ⟨0, 1, .ro, .fixed, 0x0⟩]⟩,
  ⟨0x4, 0x4, 1, false, [⟨1, 1, .rw, .live, 0x0⟩, ⟨0, 1, .rw, .live, 0x1⟩]⟩,
  ⟨0x10, 0x4, 1, false, [⟨16, 8, .w1c, .live, 0x0⟩, ⟨8, 8, .ro, .fixed, 0x0⟩, ⟨0, 8, .w1c, .live, 0x0⟩]⟩,
  ⟨0x100, 0x4, 8, false, [⟨0, 32, .cnt, .live, 0x0⟩]⟩,
  ⟨0x140, 0x4, 8, false, [⟨8, 4, .ro, .fixed, 0x0⟩, ⟨4, 1, .ro, .fixed, 0x0⟩, ⟨2, 2, .ro, .fixed, 0x3⟩, ⟨0, 2, .ro, .fixed, 0x3⟩]⟩]

/-- The registers of block BEAT. -/
def rowsBeat : List RegRow := [
  ⟨0x0, 0x4, 1, false, [⟨31, 1, .ro, .fixed, 0x0⟩, ⟨0, 22, .ro, .fixed, 0x0⟩]⟩,
  ⟨0x4, 0x4, 1, false, [⟨0, 22, .rw, .beat, 0x0⟩]⟩,
  ⟨0x8, 0x4, 1, false, [⟨0, 20, .rw, .beat, 0x0⟩]⟩,
  ⟨0xc, 0x4, 1, false, [⟨0, 22, .rw, .beat, 0x0⟩]⟩,
  ⟨0x10, 0x4, 1, false, [⟨9, 1, .wo, .live, 0x0⟩, ⟨8, 1, .wo, .live, 0x0⟩, ⟨5, 1, .rw, .live, 0x0⟩, ⟨4, 1, .rw, .live, 0x0⟩, ⟨3, 1, .rw, .beat, 0x0⟩, ⟨2, 1, .rw, .beat, 0x0⟩, ⟨0, 1, .rw, .beat, 0x0⟩]⟩,
  ⟨0x14, 0x4, 1, false, [⟨0, 13, .rw, .beat, 0x0⟩]⟩,
  ⟨0x18, 0x4, 1, false, [⟨0, 8, .rw, .live, 0x0⟩]⟩,
  ⟨0x1c, 0x4, 1, false, [⟨16, 16, .ro, .fixed, 0x0⟩, ⟨5, 1, .ro, .fixed, 0x0⟩, ⟨4, 1, .ro, .fixed, 0x0⟩, ⟨2, 2, .ro, .fixed, 0x0⟩, ⟨0, 1, .w1c, .live, 0x0⟩]⟩,
  ⟨0x20, 0x4, 1, false, [⟨16, 16, .cnt, .live, 0x0⟩, ⟨0, 16, .cnt, .live, 0x0⟩]⟩,
  ⟨0x24, 0x4, 1, false, [⟨0, 16, .cnt, .live, 0x0⟩]⟩,
  ⟨0x40, 0x4, 1, true, [⟨0, 48, .ro, .fixed, 0x0⟩]⟩,
  ⟨0x48, 0x4, 1, true, [⟨0, 64, .ro, .fixed, 0x0⟩]⟩,
  ⟨0x50, 0x4, 1, true, [⟨0, 64, .rw, .live, 0x0⟩]⟩,
  ⟨0x58, 0x4, 1, true, [⟨0, 48, .rw, .live, 0x0⟩]⟩,
  ⟨0x100, 0x4, 8, false, [⟨0, 32, .ro, .fixed, 0x0⟩]⟩]

/-- The registers of block PCTL. -/
def rowsPctl : List RegRow := [
  ⟨0x0, 0x4, 1, false, [⟨8, 3, .ro, .fixed, 0x0⟩, ⟨0, 3, .rw, .sealed, 0x0⟩]⟩,
  ⟨0x4, 0x4, 1, false, [⟨16, 10, .rw, .sealed, 0x0⟩, ⟨0, 9, .rw, .sealed, 0x0⟩]⟩,
  ⟨0x8, 0x4, 1, false, [⟨8, 3, .rw, .sealed, 0x0⟩, ⟨0, 6, .rw, .sealed, 0x0⟩]⟩,
  ⟨0xc, 0x4, 1, false, [⟨8, 3, .rw, .sealed, 0x0⟩, ⟨0, 6, .rw, .sealed, 0x0⟩]⟩,
  ⟨0x10, 0x4, 1, false, [⟨16, 13, .rw, .sealed, 0x0⟩, ⟨0, 12, .rw, .sealed, 0x0⟩]⟩,
  ⟨0x18, 0x4, 1, true, [⟨1, 55, .rw, .sealed, 0x0⟩]⟩,
  ⟨0x20, 0x4, 1, false, [⟨16, 4, .rw, .beat, 0x0⟩, ⟨0, 13, .rw, .beat, 0x0⟩]⟩,
  ⟨0x24, 0x4, 1, false, [⟨16, 13, .rw, .beat, 0x0⟩, ⟨0, 13, .rw, .beat, 0x0⟩]⟩,
  ⟨0x28, 0x4, 1, false, [⟨20, 1, .rw, .sealed, 0x0⟩, ⟨16, 3, .rw, .sealed, 0x0⟩, ⟨0, 12, .rw, .sealed, 0x0⟩]⟩,
  ⟨0x30, 0x4, 1, false, [⟨13, 1, .w1c, .live, 0x0⟩, ⟨12, 1, .ro, .fixed, 0x0⟩, ⟨8, 1, .wo, .live, 0x0⟩, ⟨4, 1, .rw, .sealed, 0x0⟩, ⟨0, 3, .rw, .sealed, 0x0⟩]⟩,
  ⟨0x38, 0x4, 1, true, [⟨6, 46, .rw, .sealed, 0x0⟩]⟩,
  ⟨0x40, 0x4, 1, false, [⟨8, 3, .ro, .fixed, 0x0⟩, ⟨2, 1, .ro, .fixed, 0x0⟩, ⟨1, 1, .ro, .fixed, 0x0⟩, ⟨0, 1, .ro, .fixed, 0x0⟩]⟩,
  ⟨0x48, 0x4, 1, false, [⟨2, 1, .rw, .beat, 0x0⟩, ⟨1, 1, .rw, .beat, 0x0⟩, ⟨0, 1, .rw, .beat, 0x0⟩]⟩,
  ⟨0x4c, 0x4, 1, false, [⟨20, 12, .rw, .beat, 0x0⟩, ⟨16, 4, .rw, .beat, 0x0⟩, ⟨3, 1, .rw, .beat, 0x0⟩, ⟨2, 1, .rw, .beat, 0x0⟩, ⟨1, 1, .rw, .beat, 0x0⟩, ⟨0, 1, .rw, .beat, 0x0⟩]⟩,
  ⟨0x50, 0x4, 1, false, [⟨6, 1, .w1c, .live, 0x0⟩, ⟨5, 1, .w1c, .live, 0x0⟩, ⟨4, 1, .w1c, .live, 0x0⟩, ⟨0, 4, .w1c, .live, 0x0⟩]⟩,
  ⟨0x54, 0x4, 1, false, [⟨31, 1, .ro, .fixed, 0x0⟩, ⟨30, 1, .rw, .live, 0x1⟩, ⟨29, 1, .wo, .live, 0x0⟩, ⟨28, 1, .w1c, .live, 0x0⟩, ⟨8, 5, .ro, .fixed, 0x0⟩, ⟨0, 8, .ro, .fixed, 0x0⟩]⟩,
  ⟨0x58, 0x4, 1, false, [⟨0, 2, .rw, .beat, 0x0⟩]⟩,
  ⟨0x80, 0x4, 8, false, [⟨0, 32, .rw, .beat, 0x0⟩]⟩]

/-- The registers of block L2. -/
def rowsL2 : List RegRow := [
  ⟨0x0, 0x4, 1, false, [⟨3, 1, .rw, .live, 0x1⟩, ⟨2, 1, .wo, .live, 0x0⟩, ⟨1, 1, .wo, .live, 0x0⟩, ⟨0, 1, .rw, .live, 0x0⟩]⟩,
  ⟨0x4, 0x4, 1, false, [⟨3, 1, .w1c, .live, 0x0⟩, ⟨2, 1, .w1c, .live, 0x0⟩, ⟨1, 1, .ro, .fixed, 0x0⟩, ⟨0, 1, .w1c, .live, 0x0⟩]⟩,
  ⟨0x8, 0x4, 1, false, [⟨0, 16, .rw, .idle, 0x0⟩]⟩,
  ⟨0xc, 0x4, 1, false, [⟨31, 1, .w1c, .live, 0x0⟩, ⟨0, 16, .ro, .fixed, 0x0⟩]⟩,
  ⟨0x100, 0x20, 20, true, [⟨0, 56, .rw, .idle, 0x0⟩]⟩,
  ⟨0x108, 0x20, 20, false, [⟨0, 32, .rw, .idle, 0x0⟩]⟩,
  ⟨0x10c, 0x20, 20, false, [⟨0, 2, .wo, .idle, 0x0⟩]⟩,
  ⟨0x110, 0x20, 20, false, [⟨2, 1, .w1c, .live, 0x0⟩, ⟨1, 1, .w1c, .live, 0x0⟩, ⟨0, 1, .ro, .fixed, 0x0⟩]⟩]

/-- The registers of block WCB. -/
def rowsWcb : List RegRow := [
  ⟨0x0, 0x4, 1, false, [⟨0, 16, .rw, .live, 0xc8⟩]⟩,
  ⟨0x4, 0x4, 1, false, [⟨0, 1, .wo, .live, 0x0⟩]⟩,
  ⟨0x8, 0x4, 1, false, [⟨1, 1, .w1c, .live, 0x0⟩, ⟨0, 1, .ro, .fixed, 0x0⟩]⟩,
  ⟨0x100, 0x40, 4, false, [⟨7, 1, .ro, .fixed, 0x0⟩, ⟨0, 7, .ro, .fixed, 0x0⟩]⟩,
  ⟨0x108, 0x40, 4, false, [⟨24, 1, .rw, .live, 0x0⟩, ⟨12, 12, .rw, .live, 0x0⟩, ⟨0, 12, .rw, .live, 0xfff⟩]⟩,
  ⟨0x10c, 0x40, 4, false, [⟨16, 16, .cnt, .live, 0x0⟩, ⟨2, 1, .w1c, .live, 0x0⟩, ⟨1, 1, .w1c, .live, 0x0⟩, ⟨0, 1, .ro, .fixed, 0x0⟩]⟩,
  ⟨0x110, 0x4, 5, false, [⟨0, 32, .ro, .fixed, 0x0⟩]⟩,
  ⟨0x150, 0x4, 5, false, [⟨0, 32, .ro, .fixed, 0x0⟩]⟩,
  ⟨0x190, 0x4, 5, false, [⟨0, 32, .ro, .fixed, 0x0⟩]⟩,
  ⟨0x1d0, 0x4, 5, false, [⟨0, 32, .ro, .fixed, 0x0⟩]⟩,
  ⟨0x124, 0x40, 4, false, [⟨0, 32, .ro, .fixed, 0x0⟩]⟩,
  ⟨0x128, 0x40, 4, false, [⟨0, 32, .ro, .fixed, 0x0⟩]⟩]

/-- The registers of block STK. -/
def rowsStk : List RegRow := [
  ⟨0x0, 0x4, 1, false, [⟨8, 8, .ro, .fixed, 0x18⟩, ⟨4, 1, .ro, .fixed, 0x0⟩, ⟨3, 1, .ro, .fixed, 0x0⟩, ⟨2, 1, .ro, .fixed, 0x0⟩, ⟨1, 1, .ro, .fixed, 0x0⟩, ⟨0, 1, .ro, .fixed, 0x0⟩]⟩,
  ⟨0x4, 0x4, 1, false, [⟨2, 1, .rw, .live, 0x0⟩, ⟨1, 1, .rw, .live, 0x0⟩, ⟨0, 1, .rw, .live, 0x0⟩]⟩,
  ⟨0x8, 0x4, 1, false, [⟨16, 4, .rw, .beat, 0x0⟩, ⟨12, 4, .rw, .beat, 0x0⟩, ⟨8, 4, .rw, .beat, 0x0⟩, ⟨4, 4, .rw, .beat, 0x0⟩, ⟨0, 4, .rw, .beat, 0x0⟩]⟩,
  ⟨0x10, 0x4, 1, false, [⟨0, 32, .ro, .fixed, 0x0⟩]⟩,
  ⟨0x14, 0x4, 1, false, [⟨8, 1, .w1c, .live, 0x0⟩, ⟨0, 8, .cnt, .live, 0x0⟩]⟩,
  ⟨0x20, 0x4, 1, false, [⟨0, 16, .cnt, .live, 0x0⟩]⟩,
  ⟨0x24, 0x4, 1, false, [⟨0, 16, .cnt, .live, 0x0⟩]⟩,
  ⟨0x28, 0x4, 1, true, [⟨63, 1, .w1c, .live, 0x0⟩, ⟨62, 1, .ro, .fixed, 0x0⟩, ⟨6, 40, .ro, .fixed, 0x0⟩]⟩,
  ⟨0x30, 0x4, 1, false, [⟨0, 32, .ro, .fixed, 0x0⟩]⟩,
  ⟨0x40, 0x4, 1, true, [⟨0, 48, .ro, .fixed, 0x0⟩]⟩,
  ⟨0x48, 0x4, 1, true, [⟨0, 48, .ro, .fixed, 0x0⟩]⟩]

/-- The registers of block ADIT. -/
def rowsAdit : List RegRow := [
  ⟨0x0, 0x4, 1, false, [⟨8, 1, .wo, .live, 0x0⟩, ⟨0, 1, .rw, .live, 0x0⟩]⟩,
  ⟨0x4, 0x4, 1, false, [⟨0, 12, .rw, .idle, 0x0⟩]⟩,
  ⟨0x8, 0x4, 1, true, [⟨6, 50, .wo, .live, 0x0⟩]⟩,
  ⟨0x10, 0x4, 1, false, [⟨31, 1, .ro, .fixed, 0x0⟩, ⟨16, 7, .ro, .fixed, 0x0⟩, ⟨2, 1, .w1c, .live, 0x0⟩, ⟨1, 1, .w1c, .live, 0x0⟩, ⟨0, 1, .w1c, .live, 0x0⟩]⟩,
  ⟨0x14, 0x4, 1, false, [⟨0, 32, .ro, .fixed, 0x0⟩]⟩,
  ⟨0x18, 0x4, 1, true, [⟨0, 48, .ro, .fixed, 0x0⟩]⟩,
  ⟨0x20, 0x4, 1, true, [⟨0, 48, .ro, .fixed, 0x0⟩]⟩]

/-- The registers of block ASY. -/
def rowsAsy : List RegRow := [
  ⟨0x0, 0x4, 1, false, [⟨8, 1, .wo, .live, 0x0⟩, ⟨0, 1, .rw, .live, 0x0⟩]⟩,
  ⟨0x4, 0x4, 1, false, [⟨0, 12, .rw, .idle, 0x0⟩]⟩,
  ⟨0x8, 0x4, 1, true, [⟨6, 50, .wo, .live, 0x0⟩]⟩,
  ⟨0x10, 0x4, 1, false, [⟨31, 1, .ro, .fixed, 0x0⟩, ⟨16, 7, .ro, .fixed, 0x0⟩, ⟨2, 1, .w1c, .live, 0x0⟩, ⟨1, 1, .w1c, .live, 0x0⟩, ⟨0, 1, .w1c, .live, 0x0⟩]⟩,
  ⟨0x14, 0x4, 1, false, [⟨0, 32, .ro, .fixed, 0x0⟩]⟩,
  ⟨0x18, 0x4, 1, true, [⟨0, 48, .ro, .fixed, 0x0⟩]⟩,
  ⟨0x20, 0x4, 1, true, [⟨0, 48, .ro, .fixed, 0x0⟩]⟩,
  ⟨0x28, 0x4, 1, true, [⟨0, 48, .ro, .fixed, 0x0⟩]⟩]

/-- The registers of block PLAT. -/
def rowsPlat : List RegRow := [
  ⟨0x0, 0x4, 1, false, [⟨16, 16, .rw, .sealed, 0x0⟩, ⟨0, 8, .rw, .sealed, 0x0⟩]⟩,
  ⟨0x4, 0x4, 1, false, [⟨0, 13, .ro, .fixed, 0x1000⟩]⟩,
  ⟨0x8, 0x4, 1, true, [⟨16, 36, .rw, .sealed, 0x0⟩]⟩,
  ⟨0x10, 0x4, 1, false, [⟨31, 1, .ro, .fixed, 0x0⟩, ⟨16, 13, .ro, .fixed, 0x0⟩, ⟨0, 13, .ro, .fixed, 0x0⟩]⟩,
  ⟨0x18, 0x4, 1, false, [⟨3, 1, .w1c, .live, 0x0⟩, ⟨2, 1, .w1c, .live, 0x0⟩, ⟨1, 1, .w1c, .live, 0x0⟩, ⟨0, 1, .w1c, .live, 0x0⟩]⟩,
  ⟨0x20, 0x4, 1, false, [⟨24, 1, .rw, .live, 0x0⟩, ⟨12, 12, .rw, .live, 0x0⟩, ⟨0, 12, .rw, .live, 0xfff⟩]⟩,
  ⟨0x24, 0x4, 1, false, [⟨16, 16, .cnt, .live, 0x0⟩, ⟨2, 1, .w1c, .live, 0x0⟩, ⟨1, 1, .w1c, .live, 0x0⟩, ⟨0, 1, .ro, .fixed, 0x0⟩]⟩,
  ⟨0x30, 0x4, 1, false, [⟨0, 32, .ro, .fixed, 0x0⟩]⟩,
  ⟨0x34, 0x4, 1, false, [⟨0, 32, .ro, .fixed, 0x0⟩]⟩]

/-- The registers of block CLU. -/
def rowsClu : List RegRow := [
  ⟨0x0, 0x4, 1, false, [⟨24, 8, .ro, .fixed, 0x0⟩, ⟨3, 1, .w1c, .live, 0x0⟩, ⟨2, 1, .ro, .fixed, 0x1⟩, ⟨1, 1, .ro, .fixed, 0x0⟩, ⟨0, 1, .ro, .fixed, 0x0⟩]⟩,
  ⟨0x8, 0x4, 1, true, [⟨1, 55, .ro, .fixed, 0x0⟩]⟩,
  ⟨0x10, 0x4, 1, false, [⟨0, 32, .ro, .fixed, 0x0⟩]⟩,
  ⟨0x20, 0x4, 1, false, [⟨0, 1, .wo, .live, 0x0⟩, ⟨1, 1, .wo, .live, 0x0⟩, ⟨2, 1, .wo, .live, 0x0⟩]⟩,
  ⟨0x40, 0x4, 1, false, [⟨2, 1, .rw, .live, 0x1⟩, ⟨1, 1, .wo, .live, 0x0⟩, ⟨0, 1, .rw, .live, 0x0⟩]⟩,
  ⟨0x44, 0x4, 1, false, [⟨1, 1, .ro, .fixed, 0x0⟩, ⟨0, 1, .w1c, .live, 0x0⟩]⟩]

/-- The registers of block FAR. -/
def rowsFar : List RegRow := [
  ⟨0x0, 0x4, 1, false, [⟨0, 3, .ro, .fixed, 0x0⟩]⟩,
  ⟨0x4, 0x4, 1, false, [⟨16, 5, .ro, .fixed, 0x0⟩, ⟨8, 2, .ro, .fixed, 0x0⟩, ⟨0, 3, .ro, .fixed, 0x0⟩]⟩,
  ⟨0x10, 0x4, 1, false, [⟨31, 1, .rw, .sealed, 0x0⟩, ⟨16, 9, .ro, .fixed, 0x0⟩, ⟨0, 9, .ro, .fixed, 0x0⟩]⟩,
  ⟨0x20, 0x4, 1, false, [⟨0, 16, .cnt, .live, 0x0⟩]⟩,
  ⟨0x24, 0x4, 1, false, [⟨0, 16, .cnt, .live, 0x0⟩]⟩,
  ⟨0x28, 0x4, 1, true, [⟨63, 1, .w1c, .live, 0x0⟩, ⟨62, 1, .ro, .fixed, 0x0⟩, ⟨6, 40, .ro, .fixed, 0x0⟩]⟩,
  ⟨0x100, 0x20, 4, true, [⟨28, 18, .rw, .sealed, 0x0⟩]⟩,
  ⟨0x108, 0x20, 4, false, [⟨31, 1, .rw, .sealed, 0x0⟩, ⟨16, 13, .rw, .sealed, 0x0⟩, ⟨8, 4, .rw, .sealed, 0x0⟩, ⟨0, 3, .rw, .sealed, 0x0⟩]⟩,
  ⟨0x10c, 0x20, 4, false, [⟨0, 32, .rw, .sealed, 0x0⟩]⟩]

/-- The registers of block MMU. -/
def rowsMmu : List RegRow := [
  ⟨0x0, 0x4, 1, false, [⟨8, 1, .rw, .live, 0x0⟩, ⟨0, 6, .rw, .sealed, 0x0⟩]⟩,
  ⟨0x4, 0x4, 1, false, [⟨16, 7, .ro, .fixed, 0x0⟩, ⟨3, 1, .w1c, .live, 0x0⟩, ⟨2, 1, .w1c, .live, 0x0⟩, ⟨1, 1, .w1c, .live, 0x0⟩, ⟨0, 1, .w1c, .live, 0x0⟩]⟩,
  ⟨0x8, 0x4, 1, true, [⟨15, 37, .rw, .sealed, 0x0⟩]⟩,
  ⟨0x10, 0x4, 1, false, [⟨0, 12, .rw, .sealed, 0x0⟩]⟩,
  ⟨0x18, 0x4, 1, true, [⟨0, 63, .rw, .sealed, 0x0⟩]⟩,
  ⟨0x20, 0x8, 4, true, [⟨0, 64, .wo, .live, 0x0⟩]⟩,
  ⟨0x40, 0x4, 1, false, [⟨0, 32, .ro, .fixed, 0x0⟩]⟩,
  ⟨0x1000, 0x10, 64, false, [⟨31, 1, .rw, .live, 0x0⟩, ⟨30, 1, .rw, .live, 0x0⟩, ⟨29, 1, .rw, .live, 0x0⟩, ⟨16, 6, .rw, .live, 0x3f⟩, ⟨0, 12, .rw, .live, 0x0⟩]⟩,
  ⟨0x1008, 0x10, 64, true, [⟨9, 43, .rw, .live, 0x0⟩]⟩]

/-- The registers of block CLM. -/
def rowsClm : List RegRow := [
  ⟨0x0, 0x4, 1, false, [⟨1, 1, .rw, .live, 0x0⟩, ⟨0, 1, .rw, .sealed, 0x0⟩]⟩,
  ⟨0x4, 0x4, 1, false, [⟨2, 1, .w1c, .live, 0x0⟩, ⟨1, 1, .w1c, .live, 0x0⟩, ⟨0, 1, .ro, .fixed, 0x0⟩]⟩,
  ⟨0x8, 0x4, 1, false, [⟨0, 25, .rw, .idle, 0x0⟩]⟩,
  ⟨0xc, 0x4, 1, false, [⟨0, 25, .rw, .idle, 0x0⟩]⟩,
  ⟨0x10, 0x4, 1, false, [⟨25, 1, .rw, .idle, 0x0⟩, ⟨24, 1, .rw, .idle, 0x0⟩, ⟨12, 12, .rw, .idle, 0x0⟩, ⟨0, 12, .rw, .idle, 0x0⟩]⟩,
  ⟨0x18, 0x4, 1, false, [⟨0, 16, .cnt, .live, 0x0⟩]⟩,
  ⟨0x20, 0x4, 1, true, [⟨63, 1, .w1c, .live, 0x0⟩, ⟨0, 52, .ro, .fixed, 0x0⟩]⟩,
  ⟨0x28, 0x4, 1, false, [⟨29, 3, .ro, .fixed, 0x0⟩, ⟨28, 1, .ro, .fixed, 0x0⟩, ⟨22, 6, .ro, .fixed, 0x0⟩, ⟨19, 3, .ro, .fixed, 0x0⟩, ⟨0, 12, .ro, .fixed, 0x0⟩]⟩]

/-- The registers of block TRV. -/
def rowsTrv : List RegRow := [
  ⟨0x0, 0x4, 1, false, [⟨1, 1, .rw, .live, 0x0⟩, ⟨0, 1, .rw, .live, 0x0⟩]⟩,
  ⟨0x4, 0x4, 1, false, [⟨8, 8, .w1c, .live, 0x0⟩, ⟨2, 1, .w1c, .live, 0x0⟩, ⟨1, 1, .w1c, .live, 0x0⟩, ⟨0, 1, .w1c, .live, 0x0⟩]⟩,
  ⟨0x8, 0x4, 1, false, [⟨0, 16, .cnt, .live, 0x0⟩]⟩,
  ⟨0xc, 0x4, 1, false, [⟨0, 16, .cnt, .live, 0x0⟩]⟩,
  ⟨0x10, 0x4, 1, false, [⟨31, 1, .w1c, .live, 0x0⟩, ⟨12, 8, .ro, .fixed, 0x0⟩, ⟨8, 4, .ro, .fixed, 0x0⟩, ⟨0, 3, .ro, .fixed, 0x0⟩]⟩,
  ⟨0x20, 0x4, 1, false, [⟨0, 32, .cnt, .live, 0x0⟩]⟩,
  ⟨0x24, 0x4, 1, false, [⟨9, 9, .ro, .fixed, 0x0⟩, ⟨0, 9, .ro, .fixed, 0x0⟩]⟩,
  ⟨0x100, 0x10, 8, false, [⟨31, 1, .rw, .live, 0x0⟩, ⟨28, 3, .rw, .live, 0x0⟩, ⟨27, 1, .rw, .live, 0x0⟩, ⟨16, 9, .rw, .live, 0x0⟩, ⟨0, 8, .rw, .live, 0x0⟩]⟩,
  ⟨0x108, 0x10, 8, true, [⟨0, 48, .cnt, .live, 0x0⟩]⟩]

/-- The registers of block CHK. -/
def rowsChk : List RegRow := [
  ⟨0x0, 0x4, 1, false, [⟨0, 1, .rw, .live, 0x0⟩]⟩,
  ⟨0x4, 0x4, 1, false, [⟨17, 1, .w1c, .live, 0x0⟩, ⟨16, 1, .w1c, .live, 0x0⟩, ⟨0, 16, .w1c, .live, 0x0⟩]⟩,
  ⟨0x100, 0x20, 16, false, [⟨31, 1, .rw, .idle, 0x0⟩, ⟨30, 1, .rw, .idle, 0x0⟩, ⟨28, 2, .rw, .idle, 0x0⟩, ⟨26, 2, .rw, .idle, 0x0⟩, ⟨9, 3, .rw, .idle, 0x0⟩, ⟨3, 6, .rw, .idle, 0x0⟩, ⟨0, 3, .rw, .idle, 0x0⟩]⟩,
  ⟨0x104, 0x20, 16, false, [⟨0, 32, .ro, .fixed, 0x0⟩]⟩,
  ⟨0x108, 0x20, 16, false, [⟨0, 16, .cnt, .live, 0x0⟩]⟩,
  ⟨0x110, 0x20, 16, true, [⟨0, 64, .ro, .fixed, 0x0⟩]⟩,
  ⟨0x118, 0x20, 16, true, [⟨0, 64, .ro, .fixed, 0x0⟩]⟩]

/-- The registers of block LNK. -/
def rowsLnk : List RegRow := [
  ⟨0x0, 0x2000, 8, false, [⟨8, 8, .rw, .live, 0x14⟩, ⟨3, 1, .rw, .live, 0x0⟩, ⟨2, 1, .rw, .sealed, 0x0⟩, ⟨1, 1, .wo, .live, 0x0⟩, ⟨0, 1, .rw, .sealed, 0x0⟩]⟩,
  ⟨0x4, 0x2000, 8, false, [⟨20, 6, .ro, .fixed, 0x0⟩, ⟨17, 3, .ro, .fixed, 0x0⟩, ⟨8, 8, .ro, .fixed, 0x0⟩, ⟨4, 4, .ro, .fixed, 0x0⟩, ⟨3, 1, .w1c, .live, 0x0⟩, ⟨2, 1, .ro, .fixed, 0x0⟩, ⟨0, 1, .ro, .fixed, 0x0⟩]⟩,
  ⟨0x10, 0x2000, 8, false, [⟨0, 32, .ro, .fixed, 0x0⟩]⟩,
  ⟨0x14, 0x2000, 8, false, [⟨0, 16, .cnt, .live, 0x0⟩]⟩,
  ⟨0x18, 0x2000, 8, false, [⟨0, 16, .cnt, .live, 0x0⟩]⟩,
  ⟨0x1c, 0x2000, 8, false, [⟨0, 16, .cnt, .live, 0x0⟩]⟩,
  ⟨0x20, 0x2000, 8, false, [⟨0, 16, .cnt, .live, 0x0⟩]⟩,
  ⟨0x30, 0x2000, 8, false, [⟨16, 16, .ro, .fixed, 0x0⟩, ⟨0, 16, .ro, .fixed, 0x0⟩]⟩,
  ⟨0x40, 0x2000, 8, false, [⟨24, 1, .rw, .live, 0x0⟩, ⟨12, 12, .rw, .live, 0x0⟩, ⟨0, 12, .rw, .live, 0xfff⟩]⟩,
  ⟨0x44, 0x2000, 8, false, [⟨16, 16, .cnt, .live, 0x0⟩, ⟨2, 1, .w1c, .live, 0x0⟩, ⟨1, 1, .w1c, .live, 0x0⟩, ⟨0, 1, .ro, .fixed, 0x0⟩]⟩,
  ⟨0x50, 0x2000, 8, false, [⟨0, 32, .ro, .fixed, 0x0⟩]⟩,
  ⟨0x58, 0x2000, 8, true, [⟨0, 48, .ro, .fixed, 0x0⟩]⟩,
  ⟨0x60, 0x2000, 8, true, [⟨0, 48, .ro, .fixed, 0x0⟩]⟩,
  ⟨0x1000, 0x4, 1, false, [⟨0, 1, .rw, .sealed, 0x0⟩]⟩,
  ⟨0x1100, 0x4, 63, false, [⟨8, 2, .rw, .beat, 0x0⟩, ⟨5, 1, .rw, .sealed, 0x0⟩, ⟨4, 1, .rw, .sealed, 0x0⟩, ⟨3, 1, .rw, .sealed, 0x0⟩, ⟨0, 3, .rw, .sealed, 0x0⟩]⟩]

/-- The registers of block PWR. -/
def rowsPwr : List RegRow := [
  ⟨0x0, 0x4, 1, false, [⟨4, 3, .rw, .live, 0x2⟩, ⟨1, 1, .rw, .live, 0x1⟩, ⟨0, 1, .rw, .live, 0x0⟩]⟩,
  ⟨0x4, 0x4, 1, false, [⟨16, 8, .ro, .fixed, 0x0⟩, ⟨12, 1, .w1c, .live, 0x0⟩, ⟨8, 2, .ro, .fixed, 0x0⟩, ⟨0, 3, .ro, .fixed, 0x0⟩]⟩,
  ⟨0x100, 0x4, 8, false, [⟨0, 32, .rw, .beat, 0x0⟩]⟩,
  ⟨0x200, 0x10, 8, false, [⟨16, 1, .ro, .fixed, 0x0⟩, ⟨12, 2, .ro, .fixed, 0x3⟩, ⟨8, 2, .rw, .beat, 0x0⟩, ⟨4, 2, .rw, .beat, 0x0⟩, ⟨2, 2, .ro, .fixed, 0x0⟩, ⟨0, 2, .ro, .fixed, 0x0⟩]⟩,
  ⟨0x204, 0x10, 8, false, [⟨0, 8, .rw, .beat, 0x0⟩]⟩,
  ⟨0x208, 0x10, 8, false, [⟨0, 32, .ro, .fixed, 0x0⟩]⟩,
  ⟨0x300, 0x4, 8, false, [⟨28, 3, .cnt, .live, 0x0⟩, ⟨24, 3, .ro, .fixed, 0x0⟩, ⟨16, 8, .ro, .fixed, 0x0⟩, ⟨8, 8, .ro, .fixed, 0x0⟩, ⟨0, 8, .ro, .fixed, 0x0⟩]⟩]

/-- The registers of block HDF. -/
def rowsHdf : List RegRow := [
  ⟨0x0, 0x4, 1, false, [⟨16, 16, .ro, .fixed, 0x0⟩, ⟨0, 16, .ro, .fixed, 0x0⟩]⟩,
  ⟨0x4, 0x4, 1, false, [⟨3, 1, .rw, .live, 0x0⟩, ⟨2, 1, .rw, .live, 0x1⟩, ⟨1, 1, .wo, .live, 0x0⟩, ⟨0, 1, .wo, .live, 0x0⟩]⟩,
  ⟨0x8, 0x4, 1, false, [⟨16, 16, .cnt, .live, 0x0⟩, ⟨1, 1, .ro, .fixed, 0x0⟩, ⟨0, 1, .ro, .fixed, 0x0⟩]⟩,
  ⟨0xc, 0x4, 1, false, [⟨24, 8, .ro, .fixed, 0x0⟩, ⟨16, 8, .ro, .fixed, 0x0⟩, ⟨8, 8, .ro, .fixed, 0x0⟩, ⟨7, 1, .ro, .fixed, 0x0⟩, ⟨6, 1, .ro, .fixed, 0x0⟩, ⟨4, 2, .ro, .fixed, 0x0⟩, ⟨0, 4, .ro, .fixed, 0x0⟩]⟩,
  ⟨0x10, 0x4, 1, false, [⟨0, 32, .ro, .fixed, 0x0⟩]⟩,
  ⟨0x14, 0x4, 1, false, [⟨0, 32, .ro, .fixed, 0x0⟩]⟩,
  ⟨0x20, 0x4, 4, false, [⟨0, 32, .ro, .fixed, 0x0⟩]⟩,
  ⟨0x30, 0x4, 1, true, [⟨12, 52, .rw, .live, 0x0⟩]⟩,
  ⟨0x38, 0x4, 1, false, [⟨0, 32, .ro, .fixed, 0x0⟩]⟩,
  ⟨0x3c, 0x4, 1, false, [⟨0, 32, .ro, .fixed, 0x0⟩]⟩]

/-- The registers of block SEC. -/
def rowsSec : List RegRow := [
  ⟨0x0, 0x4, 1, false, [⟨16, 8, .ro, .fixed, 0x0⟩, ⟨8, 2, .ro, .fixed, 0x0⟩, ⟨4, 4, .ro, .fixed, 0x0⟩, ⟨0, 4, .ro, .fixed, 0x0⟩]⟩,
  ⟨0x40, 0x4, 1, false, [⟨16, 4, .rw, .live, 0x0⟩, ⟨2, 1, .wo, .live, 0x0⟩, ⟨1, 1, .wo, .live, 0x0⟩, ⟨0, 1, .wo, .live, 0x0⟩]⟩,
  ⟨0x44, 0x4, 1, false, [⟨24, 8, .ro, .fixed, 0x0⟩, ⟨16, 4, .ro, .fixed, 0x0⟩, ⟨2, 1, .w1c, .live, 0x0⟩, ⟨1, 1, .ro, .fixed, 0x0⟩, ⟨0, 1, .ro, .fixed, 0x0⟩]⟩,
  ⟨0x100, 0x4, 12, false, [⟨0, 32, .ro, .fixed, 0x0⟩]⟩,
  ⟨0x200, 0x4, 48, false, [⟨0, 32, .wo, .live, 0x0⟩]⟩]

/-- The registers of block DBG. -/
def rowsDbg : List RegRow := [
  ⟨0x0, 0x4, 4, false, [⟨8, 8, .rw, .live, 0x0⟩, ⟨0, 1, .rw, .live, 0x0⟩]⟩]

/-- The registers of block EVT. -/
def rowsEvt : List RegRow := [
  ⟨0x0, 0x4, 1, false, [⟨4, 2, .rw, .live, 0x0⟩, ⟨1, 1, .rw, .live, 0x0⟩, ⟨0, 1, .rw, .live, 0x0⟩]⟩,
  ⟨0x4, 0x4, 1, false, [⟨8, 1, .w1c, .live, 0x0⟩, ⟨1, 7, .ro, .fixed, 0x0⟩, ⟨0, 1, .w1c, .live, 0x0⟩]⟩,
  ⟨0x8, 0x4, 1, true, [⟨12, 52, .rw, .idle, 0x0⟩]⟩,
  ⟨0x10, 0x4, 1, false, [⟨0, 32, .ro, .fixed, 0x0⟩]⟩,
  ⟨0x14, 0x4, 1, false, [⟨0, 32, .rw, .live, 0x0⟩]⟩,
  ⟨0x18, 0x4, 1, false, [⟨0, 32, .cnt, .live, 0x0⟩]⟩,
  ⟨0x20, 0x4, 1, false, [⟨24, 1, .rw, .live, 0x0⟩, ⟨12, 12, .rw, .live, 0x0⟩, ⟨0, 12, .rw, .live, 0xfff⟩]⟩,
  ⟨0x24, 0x4, 1, false, [⟨16, 16, .cnt, .live, 0x0⟩, ⟨2, 1, .w1c, .live, 0x0⟩, ⟨1, 1, .w1c, .live, 0x0⟩, ⟨0, 1, .ro, .fixed, 0x0⟩]⟩,
  ⟨0x28, 0x4, 1, true, [⟨26, 32, .ro, .fixed, 0x0⟩, ⟨18, 8, .ro, .fixed, 0x0⟩, ⟨10, 8, .ro, .fixed, 0x0⟩, ⟨2, 8, .ro, .fixed, 0x0⟩, ⟨1, 1, .ro, .fixed, 0x0⟩, ⟨0, 1, .ro, .fixed, 0x0⟩]⟩,
  ⟨0x1000, 0x40, 8, true, [⟨0, 64, .rw, .idle, 0x0⟩]⟩,
  ⟨0x1008, 0x40, 8, true, [⟨0, 64, .rw, .idle, 0x0⟩]⟩,
  ⟨0x1010, 0x40, 8, false, [⟨0, 32, .rw, .idle, 0x0⟩]⟩,
  ⟨0x1014, 0x40, 8, false, [⟨3, 1, .rw, .idle, 0x0⟩, ⟨2, 1, .rw, .idle, 0x0⟩, ⟨1, 1, .rw, .idle, 0x0⟩, ⟨0, 1, .wo, .idle, 0x0⟩]⟩,
  ⟨0x1018, 0x40, 8, false, [⟨4, 4, .ro, .fixed, 0x0⟩, ⟨2, 1, .w1c, .live, 0x0⟩, ⟨1, 1, .w1c, .live, 0x0⟩, ⟨0, 1, .ro, .fixed, 0x0⟩]⟩]

/-- The registers of block PIN. -/
def rowsPin : List RegRow := [
  ⟨0x0, 0x4, 6, false, [⟨0, 3, .rw, .sealed, 0⟩]⟩,
  ⟨0x18, 0x4, 10, false, [⟨0, 3, .rw, .live, 0⟩]⟩,
  ⟨0x40, 0x4, 16, false, [⟨4, 1, .rw, .live, 0x0⟩, ⟨2, 2, .rw, .live, 0x0⟩, ⟨0, 2, .rw, .live, 0x1⟩]⟩,
  ⟨0x80, 0x4, 1, false, [⟨0, 16, .rw, .live, 0x0⟩]⟩,
  ⟨0x84, 0x4, 1, false, [⟨0, 16, .wo, .live, 0x0⟩]⟩,
  ⟨0x88, 0x4, 1, false, [⟨0, 16, .wo, .live, 0x0⟩]⟩,
  ⟨0x8c, 0x4, 1, false, [⟨0, 16, .rw, .live, 0x0⟩]⟩,
  ⟨0x90, 0x4, 1, false, [⟨0, 16, .ro, .fixed, 0x0⟩]⟩,
  ⟨0x94, 0x4, 1, false, [⟨16, 16, .w1c, .live, 0x0⟩, ⟨0, 16, .w1c, .live, 0x0⟩]⟩,
  ⟨0xa0, 0x4, 1, false, [⟨0, 7, .ro, .fixed, 0x0⟩]⟩,
  ⟨0xb0, 0x4, 1, false, [⟨16, 8, .w1c, .live, 0x0⟩, ⟨8, 8, .ro, .fixed, 0x0⟩, ⟨0, 8, .ro, .fixed, 0x0⟩]⟩,
  ⟨0xc0, 0x4, 8, false, [⟨0, 16, .ro, .fixed, 0x226⟩]⟩]

abbrev ADM_CTL_BODY_DL : Fld := ⟨0x40000, 8, 8⟩
abbrev ADM_CTL_RING_STRIDE : Fld := ⟨0x40000, 4, 4⟩
abbrev ADM_CTL_PARITY_EN : Fld := ⟨0x40000, 2, 1⟩
abbrev ADM_CTL_MODE : Fld := ⟨0x40000, 0, 2⟩
abbrev ADM_STS_QCLK_PRESENT : Fld := ⟨0x40004, 19, 1⟩
abbrev ADM_STS_BODY_EXPIRED : Fld := ⟨0x40004, 18, 1⟩
abbrev ADM_STS_COMMIT_ERR : Fld := ⟨0x40004, 17, 1⟩
abbrev ADM_STS_PARITY_ERR : Fld := ⟨0x40004, 16, 1⟩
abbrev ADM_STS_TABLE_BEAT : Fld := ⟨0x40004, 4, 12⟩
abbrev ADM_STS_STALE_DEFER : Fld := ⟨0x40004, 3, 1⟩
abbrev ADM_STS_STALE : Fld := ⟨0x40004, 2, 1⟩
abbrev ADM_RING_BASE_BASE : Fld := ⟨0x40010, 16, 36⟩
abbrev ADM_REQ_SEQ_NEXT : Fld := ⟨0x40018, 0, 32⟩
abbrev ADM_WM_CFG_IRQ_EN : Fld := ⟨0x40020, 24, 1⟩
abbrev ADM_WM_CFG_HYST : Fld := ⟨0x40020, 12, 12⟩
abbrev ADM_WM_CFG_LEVEL : Fld := ⟨0x40020, 0, 12⟩
abbrev ADM_WM_STS_COUNT : Fld := ⟨0x40024, 16, 16⟩
abbrev ADM_WM_STS_CROSSED_DOWN : Fld := ⟨0x40024, 2, 1⟩
abbrev ADM_WM_STS_CROSSED_UP : Fld := ⟨0x40024, 1, 1⟩
abbrev ADM_WM_STS_LEVEL_ABOVE : Fld := ⟨0x40024, 0, 1⟩
abbrev ADM_CLASS_CFG_QUOTA (n : Nat) : Fld := ⟨0x40100 + 0x8 * n, 16, 10⟩
abbrev ADM_CLASS_CFG_PIPE (n : Nat) : Fld := ⟨0x40100 + 0x8 * n, 2, 3⟩
abbrev ADM_CLASS_CFG_HOLD (n : Nat) : Fld := ⟨0x40100 + 0x8 * n, 1, 1⟩
abbrev ADM_CLASS_CFG_EN (n : Nat) : Fld := ⟨0x40100 + 0x8 * n, 0, 1⟩
abbrev ADM_CLASS_LIM_HINT (n : Nat) : Fld := ⟨0x40104 + 0x8 * n, 16, 8⟩
abbrev ADM_CLASS_LIM_GEN_MAX (n : Nat) : Fld := ⟨0x40104 + 0x8 * n, 8, 8⟩
abbrev ADM_CLASS_LIM_PROMPT_MAX (n : Nat) : Fld := ⟨0x40104 + 0x8 * n, 0, 8⟩
abbrev TAL_CMD_WIN_CLEAR : Fld := ⟨0x50000, 16, 8⟩
abbrev TAL_CMD_CLEAR : Fld := ⟨0x50000, 8, 8⟩
abbrev TAL_CMD_SNAP : Fld := ⟨0x50000, 0, 8⟩
abbrev TAL_STS_SNAP_BUSY : Fld := ⟨0x50004, 8, 1⟩
abbrev TAL_STS_SAT : Fld := ⟨0x50004, 0, 8⟩
abbrev TAL_SNAP_TIME_TIME (n : Nat) : Fld := ⟨0x50040 + 0x8 * n, 0, 64⟩
abbrev TAL_GUARD_EN (n : Nat) : Fld := ⟨0x50100 + 0x10 * n, 31, 1⟩
abbrev TAL_GUARD_IRQ_EN (n : Nat) : Fld := ⟨0x50100 + 0x10 * n, 30, 1⟩
abbrev TAL_GUARD_KIND (n : Nat) : Fld := ⟨0x50100 + 0x10 * n, 29, 1⟩
abbrev TAL_GUARD_PCTL (n : Nat) : Fld := ⟨0x50100 + 0x10 * n, 27, 2⟩
abbrev TAL_GUARD_HYST (n : Nat) : Fld := ⟨0x50100 + 0x10 * n, 16, 4⟩
abbrev TAL_GUARD_THR (n : Nat) : Fld := ⟨0x50100 + 0x10 * n, 0, 7⟩
abbrev TAL_GUARD_MIN_MIN_N (n : Nat) : Fld := ⟨0x50104 + 0x10 * n, 0, 16⟩
abbrev TAL_GUARD_STS_COUNT (n : Nat) : Fld := ⟨0x50108 + 0x10 * n, 16, 16⟩
abbrev TAL_GUARD_STS_CROSSED_DOWN (n : Nat) : Fld := ⟨0x50108 + 0x10 * n, 2, 1⟩
abbrev TAL_GUARD_STS_CROSSED_UP (n : Nat) : Fld := ⟨0x50108 + 0x10 * n, 1, 1⟩
abbrev TAL_GUARD_STS_LEVEL_ABOVE (n : Nat) : Fld := ⟨0x50108 + 0x10 * n, 0, 1⟩
abbrev TAL_GUARD_EST_VALID (n : Nat) : Fld := ⟨0x5010c + 0x10 * n, 31, 1⟩
abbrev TAL_GUARD_EST_EST_BIN (n : Nat) : Fld := ⟨0x5010c + 0x10 * n, 24, 7⟩
abbrev TAL_GUARD_EST_WIN_N (n : Nat) : Fld := ⟨0x5010c + 0x10 * n, 0, 24⟩
abbrev TAL_BIN_SAT (nk b : Nat) : Fld := ⟨0x51000 + 0x400 * nk + 0x8 * b, 63, 1⟩
abbrev TAL_BIN_COUNT (nk b : Nat) : Fld := ⟨0x51000 + 0x400 * nk + 0x8 * b, 0, 48⟩
abbrev CLK_REF_STS_LOR_COUNT : Fld := ⟨0x10000, 16, 16⟩
abbrev CLK_REF_STS_OCLK_TRIMMED : Fld := ⟨0x10000, 5, 1⟩
abbrev CLK_REF_STS_LOR_CAUSE : Fld := ⟨0x10000, 4, 1⟩
abbrev CLK_REF_STS_LOSS_OF_REF : Fld := ⟨0x10000, 3, 1⟩
abbrev CLK_REF_STS_RELOCKING : Fld := ⟨0x10000, 2, 1⟩
abbrev CLK_REF_STS_HOLDOVER : Fld := ⟨0x10000, 1, 1⟩
abbrev CLK_REF_STS_LOCKED : Fld := ⟨0x10000, 0, 1⟩
abbrev CLK_REF_CTL_LOR_IRQ_EN : Fld := ⟨0x10004, 1, 1⟩
abbrev CLK_REF_CTL_ALERT_EN : Fld := ⟨0x10004, 0, 1⟩
abbrev CLK_DROOP_STS_LIMIT : Fld := ⟨0x10010, 16, 8⟩
abbrev CLK_DROOP_STS_ACTIVE : Fld := ⟨0x10010, 8, 8⟩
abbrev CLK_DROOP_STS_OVF : Fld := ⟨0x10010, 0, 8⟩
abbrev CLK_DROOP_CNT_COUNT (p : Nat) : Fld := ⟨0x10100 + 0x4 * p, 0, 32⟩
abbrev CLK_PCLK_STS_MAX_STRETCH (p : Nat) : Fld := ⟨0x10140 + 0x4 * p, 8, 4⟩
abbrev CLK_PCLK_STS_TRANSITION (p : Nat) : Fld := ⟨0x10140 + 0x4 * p, 4, 1⟩
abbrev CLK_PCLK_STS_TARGET (p : Nat) : Fld := ⟨0x10140 + 0x4 * p, 2, 2⟩
abbrev CLK_PCLK_STS_STEP (p : Nat) : Fld := ⟨0x10140 + 0x4 * p, 0, 2⟩
abbrev BEAT_STS_RUNNING : Fld := ⟨0x20000, 31, 1⟩
abbrev BEAT_STS_LAST_LEN : Fld := ⟨0x20000, 0, 22⟩
abbrev BEAT_PERIOD_TICKS : Fld := ⟨0x20004, 0, 22⟩
abbrev BEAT_SLACK_TICKS : Fld := ⟨0x20008, 0, 20⟩
abbrev BEAT_MIN_WORK_TICKS : Fld := ⟨0x2000c, 0, 22⟩
abbrev BEAT_SYNC_CTL_REACQ : Fld := ⟨0x20010, 9, 1⟩
abbrev BEAT_SYNC_CTL_TS_LOAD : Fld := ⟨0x20010, 8, 1⟩
abbrev BEAT_SYNC_CTL_LOST_IRQ_EN : Fld := ⟨0x20010, 5, 1⟩
abbrev BEAT_SYNC_CTL_OUT_EN : Fld := ⟨0x20010, 4, 1⟩
abbrev BEAT_SYNC_CTL_DISCIPLINE : Fld := ⟨0x20010, 3, 1⟩
abbrev BEAT_SYNC_CTL_AUTO_REACQ : Fld := ⟨0x20010, 2, 1⟩
abbrev BEAT_SYNC_CTL_MODE : Fld := ⟨0x20010, 0, 1⟩
abbrev BEAT_SYNC_WIN_TICKS : Fld := ⟨0x20014, 0, 13⟩
abbrev BEAT_SYNC_LOSS_N_N : Fld := ⟨0x20018, 0, 8⟩
abbrev BEAT_SYNC_STS_OFFSET : Fld := ⟨0x2001c, 16, 16⟩
abbrev BEAT_SYNC_STS_TS_LOCKED : Fld := ⟨0x2001c, 5, 1⟩
abbrev BEAT_SYNC_STS_TS_LOAD_PEND : Fld := ⟨0x2001c, 4, 1⟩
abbrev BEAT_SYNC_STS_STATE : Fld := ⟨0x2001c, 2, 2⟩
abbrev BEAT_SYNC_STS_SYNC_LOST : Fld := ⟨0x2001c, 0, 1⟩
abbrev BEAT_SYNC_CNT_OUTSIDE : Fld := ⟨0x20020, 16, 16⟩
abbrev BEAT_SYNC_CNT_MISSED : Fld := ⟨0x20020, 0, 16⟩
abbrev BEAT_SYNC_CNT2_CLAMPED : Fld := ⟨0x20024, 0, 16⟩
abbrev BEAT_COUNT_COUNT : Fld := ⟨0x20040, 0, 48⟩
abbrev BEAT_TIMESTAMP_TIME : Fld := ⟨0x20048, 0, 64⟩
abbrev BEAT_TS_PRESET_TIME : Fld := ⟨0x20050, 0, 64⟩
abbrev BEAT_COUNT_PRESET_COUNT : Fld := ⟨0x20058, 0, 48⟩
abbrev BEAT_LATE_COUNT (p : Nat) : Fld := ⟨0x20100 + 0x4 * p, 0, 32⟩
abbrev PCTL_ROLE_ROLE_ACTIVE (n : Nat) : Fld := ⟨partBase n + 0x0, 8, 3⟩
abbrev PCTL_ROLE_ROLE (n : Nat) : Fld := ⟨partBase n + 0x0, 0, 3⟩
abbrev PCTL_STAGE_LOOP_LEN (n : Nat) : Fld := ⟨partBase n + 0x4, 16, 10⟩
abbrev PCTL_STAGE_STAGE_IDX (n : Nat) : Fld := ⟨partBase n + 0x4, 0, 9⟩
abbrev PCTL_NEXT_PART (n : Nat) : Fld := ⟨partBase n + 0x8, 8, 3⟩
abbrev PCTL_NEXT_CHIP (n : Nat) : Fld := ⟨partBase n + 0x8, 0, 6⟩
abbrev PCTL_PREV_PART (n : Nat) : Fld := ⟨partBase n + 0xc, 8, 3⟩
abbrev PCTL_PREV_CHIP (n : Nat) : Fld := ⟨partBase n + 0xc, 0, 6⟩
abbrev PCTL_SLOTS_SLOT_COUNT (n : Nat) : Fld := ⟨partBase n + 0x10, 16, 13⟩
abbrev PCTL_SLOTS_SLOT_BASE (n : Nat) : Fld := ⟨partBase n + 0x10, 0, 12⟩
abbrev PCTL_PROG_ENTRY (n : Nat) : Fld := ⟨partBase n + 0x18, 1, 55⟩
abbrev PCTL_BATCH_CARRY (n : Nat) : Fld := ⟨partBase n + 0x20, 16, 4⟩
abbrev PCTL_BATCH_B (n : Nat) : Fld := ⟨partBase n + 0x20, 0, 13⟩
abbrev PCTL_PASS_PASS_SLOTS (n : Nat) : Fld := ⟨partBase n + 0x24, 16, 13⟩
abbrev PCTL_PASS_PASS_TOK (n : Nat) : Fld := ⟨partBase n + 0x24, 0, 13⟩
abbrev PCTL_TENANT_BIND_EN (n : Nat) : Fld := ⟨partBase n + 0x28, 20, 1⟩
abbrev PCTL_TENANT_VF (n : Nat) : Fld := ⟨partBase n + 0x28, 16, 3⟩
abbrev PCTL_TENANT_CID (n : Nat) : Fld := ⟨partBase n + 0x28, 0, 12⟩
abbrev PCTL_FO_FO_DONE (n : Nat) : Fld := ⟨partBase n + 0x30, 13, 1⟩
abbrev PCTL_FO_FO_BUSY (n : Nat) : Fld := ⟨partBase n + 0x30, 12, 1⟩
abbrev PCTL_FO_FO_CMD (n : Nat) : Fld := ⟨partBase n + 0x30, 8, 1⟩
abbrev PCTL_FO_AUTO_FO (n : Nat) : Fld := ⟨partBase n + 0x30, 4, 1⟩
abbrev PCTL_FO_SPARE (n : Nat) : Fld := ⟨partBase n + 0x30, 0, 3⟩
abbrev PCTL_FO_LIST_ADDR (n : Nat) : Fld := ⟨partBase n + 0x38, 6, 46⟩
abbrev PCTL_STS_FROM (n : Nat) : Fld := ⟨partBase n + 0x40, 8, 3⟩
abbrev PCTL_STS_TAKEN_OVER (n : Nat) : Fld := ⟨partBase n + 0x40, 2, 1⟩
abbrev PCTL_STS_FAILED (n : Nat) : Fld := ⟨partBase n + 0x40, 1, 1⟩
abbrev PCTL_STS_RUNNING (n : Nat) : Fld := ⟨partBase n + 0x40, 0, 1⟩
abbrev PCTL_NUM_SATFP8 (n : Nat) : Fld := ⟨partBase n + 0x48, 2, 1⟩
abbrev PCTL_NUM_FTZ_OUT (n : Nat) : Fld := ⟨partBase n + 0x48, 1, 1⟩
abbrev PCTL_NUM_FTZ_IN (n : Nat) : Fld := ⟨partBase n + 0x48, 0, 1⟩
abbrev PCTL_LOSS_TRIM_KEEP (n : Nat) : Fld := ⟨partBase n + 0x4c, 20, 12⟩
abbrev PCTL_LOSS_TRIM_SINK (n : Nat) : Fld := ⟨partBase n + 0x4c, 16, 4⟩
abbrev PCTL_LOSS_RSQRT_APX (n : Nat) : Fld := ⟨partBase n + 0x4c, 3, 1⟩
abbrev PCTL_LOSS_RECIP_APX (n : Nat) : Fld := ⟨partBase n + 0x4c, 2, 1⟩
abbrev PCTL_LOSS_EXP2_APX (n : Nat) : Fld := ⟨partBase n + 0x4c, 1, 1⟩
abbrev PCTL_LOSS_KVTRIM (n : Nat) : Fld := ⟨partBase n + 0x4c, 0, 1⟩
abbrev PCTL_LOSS_SEEN_SATFP8 (n : Nat) : Fld := ⟨partBase n + 0x50, 6, 1⟩
abbrev PCTL_LOSS_SEEN_FTZ_OUT (n : Nat) : Fld := ⟨partBase n + 0x50, 5, 1⟩
abbrev PCTL_LOSS_SEEN_FTZ_IN (n : Nat) : Fld := ⟨partBase n + 0x50, 4, 1⟩
abbrev PCTL_LOSS_SEEN_APX (n : Nat) : Fld := ⟨partBase n + 0x50, 0, 4⟩
abbrev PCTL_FAULT_FATAL (n : Nat) : Fld := ⟨partBase n + 0x54, 31, 1⟩
abbrev PCTL_FAULT_ALERT_EN (n : Nat) : Fld := ⟨partBase n + 0x54, 30, 1⟩
abbrev PCTL_FAULT_DECLARE (n : Nat) : Fld := ⟨partBase n + 0x54, 29, 1⟩
abbrev PCTL_FAULT_ALERT_PEND (n : Nat) : Fld := ⟨partBase n + 0x54, 28, 1⟩
abbrev PCTL_FAULT_CLUSTER (n : Nat) : Fld := ⟨partBase n + 0x54, 8, 5⟩
abbrev PCTL_FAULT_CAUSE (n : Nat) : Fld := ⟨partBase n + 0x54, 0, 8⟩
abbrev PCTL_CMD_CMD (n : Nat) : Fld := ⟨partBase n + 0x58, 0, 2⟩
abbrev PCTL_PARAM_VALUE (n i : Nat) : Fld := ⟨partBase n + 0x80 + 0x4 * i, 0, 32⟩
abbrev L2_CTL_SDET_EN (n : Nat) : Fld := ⟨partBase n + 0x4000, 3, 1⟩
abbrev L2_CTL_FLUSH_ALL (n : Nat) : Fld := ⟨partBase n + 0x4000, 2, 1⟩
abbrev L2_CTL_INV_ALL (n : Nat) : Fld := ⟨partBase n + 0x4000, 1, 1⟩
abbrev L2_CTL_ENABLE (n : Nat) : Fld := ⟨partBase n + 0x4000, 0, 1⟩
abbrev L2_STS_WAYOFF_REJ (n : Nat) : Fld := ⟨partBase n + 0x4004, 3, 1⟩
abbrev L2_STS_ALL_DONE (n : Nat) : Fld := ⟨partBase n + 0x4004, 2, 1⟩
abbrev L2_STS_ALL_BUSY (n : Nat) : Fld := ⟨partBase n + 0x4004, 1, 1⟩
abbrev L2_STS_STALE_RISK (n : Nat) : Fld := ⟨partBase n + 0x4004, 0, 1⟩
abbrev L2_WAYOFF_MASK (n : Nat) : Fld := ⟨partBase n + 0x4008, 0, 16⟩
abbrev L2_WAYOFF_DONE_DONE (n : Nat) : Fld := ⟨partBase n + 0x400c, 31, 1⟩
abbrev L2_WAYOFF_DONE_OFF (n : Nat) : Fld := ⟨partBase n + 0x400c, 0, 16⟩
abbrev L2_MAINT_ADDR_VA (n c : Nat) : Fld := ⟨partBase n + 0x4100 + 0x20 * c, 0, 56⟩
abbrev L2_MAINT_LEN_LEN (n c : Nat) : Fld := ⟨partBase n + 0x4108 + 0x20 * c, 0, 32⟩
abbrev L2_MAINT_CMD_OP (n c : Nat) : Fld := ⟨partBase n + 0x410c + 0x20 * c, 0, 2⟩
abbrev L2_MAINT_STS_FAULT (n c : Nat) : Fld := ⟨partBase n + 0x4110 + 0x20 * c, 2, 1⟩
abbrev L2_MAINT_STS_DONE (n c : Nat) : Fld := ⟨partBase n + 0x4110 + 0x20 * c, 1, 1⟩
abbrev L2_MAINT_STS_BUSY (n c : Nat) : Fld := ⟨partBase n + 0x4110 + 0x20 * c, 0, 1⟩
abbrev WCB_AGE_MAX_AGE (n : Nat) : Fld := ⟨partBase n + 0x8000, 0, 16⟩
abbrev WCB_CTL_DRAIN (n : Nat) : Fld := ⟨partBase n + 0x8004, 0, 1⟩
abbrev WCB_STS_DRAIN_DONE (n : Nat) : Fld := ⟨partBase n + 0x8008, 1, 1⟩
abbrev WCB_STS_DRAIN_BUSY (n : Nat) : Fld := ⟨partBase n + 0x8008, 0, 1⟩
abbrev WCB_USED_CAP_STALL (n g : Nat) : Fld := ⟨partBase n + 0x8100 + 0x40 * g, 7, 1⟩
abbrev WCB_USED_USED (n g : Nat) : Fld := ⟨partBase n + 0x8100 + 0x40 * g, 0, 7⟩
abbrev WCB_WM_CFG_IRQ_EN (n g : Nat) : Fld := ⟨partBase n + 0x8108 + 0x40 * g, 24, 1⟩
abbrev WCB_WM_CFG_HYST (n g : Nat) : Fld := ⟨partBase n + 0x8108 + 0x40 * g, 12, 12⟩
abbrev WCB_WM_CFG_LEVEL (n g : Nat) : Fld := ⟨partBase n + 0x8108 + 0x40 * g, 0, 12⟩
abbrev WCB_WM_STS_COUNT (n g : Nat) : Fld := ⟨partBase n + 0x810c + 0x40 * g, 16, 16⟩
abbrev WCB_WM_STS_CROSSED_DOWN (n g : Nat) : Fld := ⟨partBase n + 0x810c + 0x40 * g, 2, 1⟩
abbrev WCB_WM_STS_CROSSED_UP (n g : Nat) : Fld := ⟨partBase n + 0x810c + 0x40 * g, 1, 1⟩
abbrev WCB_WM_STS_LEVEL_ABOVE (n g : Nat) : Fld := ⟨partBase n + 0x810c + 0x40 * g, 0, 1⟩
abbrev WCB_DRAIN_CNT_COUNT (n g k : Nat) : Fld := ⟨partBase n + 0x8110 + 0x40 * g + 0x4 * k, 0, 32⟩
abbrev WCB_RMW_CNT_COUNT (n g : Nat) : Fld := ⟨partBase n + 0x8124 + 0x40 * g, 0, 32⟩
abbrev WCB_FWD_CNT_COUNT (n g : Nat) : Fld := ⟨partBase n + 0x8128 + 0x40 * g, 0, 32⟩
abbrev STK_STS_CAP_GIB (n : Nat) : Fld := ⟨partBase n + 0xc000, 8, 8⟩
abbrev STK_STS_OFF (n : Nat) : Fld := ⟨partBase n + 0xc000, 4, 1⟩
abbrev STK_STS_SCRUB_ON (n : Nat) : Fld := ⟨partBase n + 0xc000, 3, 1⟩
abbrev STK_STS_REFRESH_2X (n : Nat) : Fld := ⟨partBase n + 0xc000, 2, 1⟩
abbrev STK_STS_SELF_REFRESH (n : Nat) : Fld := ⟨partBase n + 0xc000, 1, 1⟩
abbrev STK_STS_TRAINED (n : Nat) : Fld := ⟨partBase n + 0xc000, 0, 1⟩
abbrev STK_CTL_UE_IRQ_EN (n : Nat) : Fld := ⟨partBase n + 0xc004, 2, 1⟩
abbrev STK_CTL_CE_IRQ_EN (n : Nat) : Fld := ⟨partBase n + 0xc004, 1, 1⟩
abbrev STK_CTL_SCRUB_EN (n : Nat) : Fld := ⟨partBase n + 0xc004, 0, 1⟩
abbrev STK_QOS_W_REMOTE (n : Nat) : Fld := ⟨partBase n + 0xc008, 16, 4⟩
abbrev STK_QOS_W_PLAT (n : Nat) : Fld := ⟨partBase n + 0xc008, 12, 4⟩
abbrev STK_QOS_W_ASSAY (n : Nat) : Fld := ⟨partBase n + 0xc008, 8, 4⟩
abbrev STK_QOS_W_ADIT (n : Nat) : Fld := ⟨partBase n + 0xc008, 4, 4⟩
abbrev STK_QOS_W_L2 (n : Nat) : Fld := ⟨partBase n + 0xc008, 0, 4⟩
abbrev STK_TEMP_G (n : Nat) : Fld := ⟨partBase n + 0xc010, 0, 32⟩
abbrev STK_TEMP_PEAK_SENSOR_FAIL (n : Nat) : Fld := ⟨partBase n + 0xc014, 8, 1⟩
abbrev STK_TEMP_PEAK_PEAK (n : Nat) : Fld := ⟨partBase n + 0xc014, 0, 8⟩
abbrev STK_CE_CNT_COUNT (n : Nat) : Fld := ⟨partBase n + 0xc020, 0, 16⟩
abbrev STK_UE_CNT_COUNT (n : Nat) : Fld := ⟨partBase n + 0xc024, 0, 16⟩
abbrev STK_ERR_ADDR_VALID (n : Nat) : Fld := ⟨partBase n + 0xc028, 63, 1⟩
abbrev STK_ERR_ADDR_UE (n : Nat) : Fld := ⟨partBase n + 0xc028, 62, 1⟩
abbrev STK_ERR_ADDR_ADDR (n : Nat) : Fld := ⟨partBase n + 0xc028, 6, 40⟩
abbrev STK_SCRUB_PASSES (n : Nat) : Fld := ⟨partBase n + 0xc030, 0, 32⟩
abbrev STK_RD_BYTES_COUNT (n : Nat) : Fld := ⟨partBase n + 0xc040, 0, 48⟩
abbrev STK_WR_BYTES_COUNT (n : Nat) : Fld := ⟨partBase n + 0xc048, 0, 48⟩
abbrev ADIT_CTL_ABORT (n : Nat) : Fld := ⟨partBase n + 0x10000, 8, 1⟩
abbrev ADIT_CTL_IRQ_EN (n : Nat) : Fld := ⟨partBase n + 0x10000, 0, 1⟩
abbrev ADIT_CTX_CTX (n : Nat) : Fld := ⟨partBase n + 0x10004, 0, 12⟩
abbrev ADIT_ENQ_ADDR (n : Nat) : Fld := ⟨partBase n + 0x10008, 6, 50⟩
abbrev ADIT_STS_BUSY (n : Nat) : Fld := ⟨partBase n + 0x10010, 31, 1⟩
abbrev ADIT_STS_PENDING (n : Nat) : Fld := ⟨partBase n + 0x10010, 16, 7⟩
abbrev ADIT_STS_DESC_FAULT (n : Nat) : Fld := ⟨partBase n + 0x10010, 2, 1⟩
abbrev ADIT_STS_DONE_LOST (n : Nat) : Fld := ⟨partBase n + 0x10010, 1, 1⟩
abbrev ADIT_STS_ENQ_DROP (n : Nat) : Fld := ⟨partBase n + 0x10010, 0, 1⟩
abbrev ADIT_DONE_CNT_COUNT (n : Nat) : Fld := ⟨partBase n + 0x10014, 0, 32⟩
abbrev ADIT_WBYTES_COUNT (n : Nat) : Fld := ⟨partBase n + 0x10018, 0, 48⟩
abbrev ADIT_BUSY_COUNT (n : Nat) : Fld := ⟨partBase n + 0x10020, 0, 48⟩
abbrev ASY_CTL_ABORT (n : Nat) : Fld := ⟨partBase n + 0x14000, 8, 1⟩
abbrev ASY_CTL_IRQ_EN (n : Nat) : Fld := ⟨partBase n + 0x14000, 0, 1⟩
abbrev ASY_CTX_CTX (n : Nat) : Fld := ⟨partBase n + 0x14004, 0, 12⟩
abbrev ASY_ENQ_ADDR (n : Nat) : Fld := ⟨partBase n + 0x14008, 6, 50⟩
abbrev ASY_STS_BUSY (n : Nat) : Fld := ⟨partBase n + 0x14010, 31, 1⟩
abbrev ASY_STS_PENDING (n : Nat) : Fld := ⟨partBase n + 0x14010, 16, 7⟩
abbrev ASY_STS_Q_FAULT (n : Nat) : Fld := ⟨partBase n + 0x14010, 2, 1⟩
abbrev ASY_STS_DONE_LOST (n : Nat) : Fld := ⟨partBase n + 0x14010, 1, 1⟩
abbrev ASY_STS_ENQ_DROP (n : Nat) : Fld := ⟨partBase n + 0x14010, 0, 1⟩
abbrev ASY_DONE_CNT_COUNT (n : Nat) : Fld := ⟨partBase n + 0x14014, 0, 32⟩
abbrev ASY_RBYTES_COUNT (n : Nat) : Fld := ⟨partBase n + 0x14018, 0, 48⟩
abbrev ASY_KEYS_COUNT (n : Nat) : Fld := ⟨partBase n + 0x14020, 0, 48⟩
abbrev ASY_BUSY_COUNT (n : Nat) : Fld := ⟨partBase n + 0x14028, 0, 48⟩
abbrev PLAT_CFG_SPILL_KIB (n : Nat) : Fld := ⟨partBase n + 0x18000, 16, 16⟩
abbrev PLAT_CFG_FRAME_KIB (n : Nat) : Fld := ⟨partBase n + 0x18000, 0, 8⟩
abbrev PLAT_GEOM_NF (n : Nat) : Fld := ⟨partBase n + 0x18004, 0, 13⟩
abbrev PLAT_SPILL_BASE_BASE (n : Nat) : Fld := ⟨partBase n + 0x18008, 16, 36⟩
abbrev PLAT_STS_HELD (n : Nat) : Fld := ⟨partBase n + 0x18010, 31, 1⟩
abbrev PLAT_STS_READY (n : Nat) : Fld := ⟨partBase n + 0x18010, 16, 13⟩
abbrev PLAT_STS_FREE (n : Nat) : Fld := ⟨partBase n + 0x18010, 0, 13⟩
abbrev PLAT_ERR_DUP (n : Nat) : Fld := ⟨partBase n + 0x18018, 3, 1⟩
abbrev PLAT_ERR_CHECK (n : Nat) : Fld := ⟨partBase n + 0x18018, 2, 1⟩
abbrev PLAT_ERR_HDR (n : Nat) : Fld := ⟨partBase n + 0x18018, 1, 1⟩
abbrev PLAT_ERR_SRC (n : Nat) : Fld := ⟨partBase n + 0x18018, 0, 1⟩
abbrev PLAT_WM_CFG_IRQ_EN (n : Nat) : Fld := ⟨partBase n + 0x18020, 24, 1⟩
abbrev PLAT_WM_CFG_HYST (n : Nat) : Fld := ⟨partBase n + 0x18020, 12, 12⟩
abbrev PLAT_WM_CFG_LEVEL (n : Nat) : Fld := ⟨partBase n + 0x18020, 0, 12⟩
abbrev PLAT_WM_STS_COUNT (n : Nat) : Fld := ⟨partBase n + 0x18024, 16, 16⟩
abbrev PLAT_WM_STS_CROSSED_DOWN (n : Nat) : Fld := ⟨partBase n + 0x18024, 2, 1⟩
abbrev PLAT_WM_STS_CROSSED_UP (n : Nat) : Fld := ⟨partBase n + 0x18024, 1, 1⟩
abbrev PLAT_WM_STS_LEVEL_ABOVE (n : Nat) : Fld := ⟨partBase n + 0x18024, 0, 1⟩
abbrev PLAT_PUTS_COUNT (n : Nat) : Fld := ⟨partBase n + 0x18030, 0, 32⟩
abbrev PLAT_HELD_CNT_COUNT (n : Nat) : Fld := ⟨partBase n + 0x18034, 0, 32⟩
abbrev CLU_STS_LAST_CAUSE (n c : Nat) : Fld := ⟨cluBase n c + 0x0, 24, 8⟩
abbrev CLU_STS_DOUBLE_TRAP (n c : Nat) : Fld := ⟨cluBase n c + 0x0, 3, 1⟩
abbrev CLU_STS_MON (n c : Nat) : Fld := ⟨cluBase n c + 0x0, 2, 1⟩
abbrev CLU_STS_HALTED (n c : Nat) : Fld := ⟨cluBase n c + 0x0, 1, 1⟩
abbrev CLU_STS_RUNNING (n c : Nat) : Fld := ⟨cluBase n c + 0x0, 0, 1⟩
abbrev CLU_PC_PC (n c : Nat) : Fld := ⟨cluBase n c + 0x8, 1, 55⟩
abbrev CLU_TRAPS_COUNT (n c : Nat) : Fld := ⟨cluBase n c + 0x10, 0, 32⟩
abbrev CLU_DBG_CTL_HALT (n c : Nat) : Fld := ⟨cluBase n c + 0x20, 0, 1⟩
abbrev CLU_DBG_CTL_STEP (n c : Nat) : Fld := ⟨cluBase n c + 0x20, 1, 1⟩
abbrev CLU_DBG_CTL_RESUME (n c : Nat) : Fld := ⟨cluBase n c + 0x20, 2, 1⟩
abbrev L1D_CTL_SDET_EN (n c : Nat) : Fld := ⟨cluBase n c + 0x40, 2, 1⟩
abbrev L1D_CTL_INV_ALL (n c : Nat) : Fld := ⟨cluBase n c + 0x40, 1, 1⟩
abbrev L1D_CTL_ENABLE (n c : Nat) : Fld := ⟨cluBase n c + 0x40, 0, 1⟩
abbrev L1D_STS_INV_BUSY (n c : Nat) : Fld := ⟨cluBase n c + 0x44, 1, 1⟩
abbrev L1D_STS_STALE_RISK (n c : Nat) : Fld := ⟨cluBase n c + 0x44, 0, 1⟩
abbrev FAR_CAP_PRESENT : Fld := ⟨0xd0000, 0, 3⟩
abbrev FAR_STS_CXL_LANES : Fld := ⟨0xd0004, 16, 5⟩
abbrev FAR_STS_CXL_SPEED : Fld := ⟨0xd0004, 8, 2⟩
abbrev FAR_STS_UPS : Fld := ⟨0xd0004, 0, 3⟩
abbrev FAR_DDR_CFG_ILV : Fld := ⟨0xd0010, 31, 1⟩
abbrev FAR_DDR_CFG_CH1_GIB : Fld := ⟨0xd0010, 16, 9⟩
abbrev FAR_DDR_CFG_CH0_GIB : Fld := ⟨0xd0010, 0, 9⟩
abbrev FAR_CE_CNT_COUNT : Fld := ⟨0xd0020, 0, 16⟩
abbrev FAR_UE_CNT_COUNT : Fld := ⟨0xd0024, 0, 16⟩
abbrev FAR_ERR_ADDR_VALID : Fld := ⟨0xd0028, 63, 1⟩
abbrev FAR_ERR_ADDR_UE : Fld := ⟨0xd0028, 62, 1⟩
abbrev FAR_ERR_ADDR_ADDR : Fld := ⟨0xd0028, 6, 40⟩
abbrev FAR_CXL_WIN_BASE_BASE (i : Nat) : Fld := ⟨0xd0100 + 0x20 * i, 28, 18⟩
abbrev FAR_CXL_WIN_CTL_EN (i : Nat) : Fld := ⟨0xd0108 + 0x20 * i, 31, 1⟩
abbrev FAR_CXL_WIN_CTL_SIZE_GIB (i : Nat) : Fld := ⟨0xd0108 + 0x20 * i, 16, 13⟩
abbrev FAR_CXL_WIN_CTL_GRAN (i : Nat) : Fld := ⟨0xd0108 + 0x20 * i, 8, 4⟩
abbrev FAR_CXL_WIN_CTL_WAYS (i : Nat) : Fld := ⟨0xd0108 + 0x20 * i, 0, 3⟩
abbrev FAR_CXL_WIN_TGT_TGT (i : Nat) : Fld := ⟨0xd010c + 0x20 * i, 0, 32⟩
abbrev MMU_CTL_CMD_IRQ_EN : Fld := ⟨0x80000, 8, 1⟩
abbrev MMU_CTL_CHIP : Fld := ⟨0x80000, 0, 6⟩
abbrev MMU_STS_PENDING : Fld := ⟨0x80004, 16, 7⟩
abbrev MMU_STS_WALK_ERR : Fld := ⟨0x80004, 3, 1⟩
abbrev MMU_STS_INWIN_ERR : Fld := ⟨0x80004, 2, 1⟩
abbrev MMU_STS_CMD_BAD : Fld := ⟨0x80004, 1, 1⟩
abbrev MMU_STS_CMD_DROP : Fld := ⟨0x80004, 0, 1⟩
abbrev MMU_CTX_BASE_BASE : Fld := ⟨0x80008, 15, 37⟩
abbrev MMU_HOST_CID_CID : Fld := ⟨0x80010, 0, 12⟩
abbrev MMU_PLAIN_ALLOW_ALLOW : Fld := ⟨0x80018, 0, 63⟩
abbrev MMU_CMDQ_WORD (k : Nat) : Fld := ⟨0x80020 + 0x8 * k, 0, 64⟩
abbrev MMU_FENCE_DONE_FENCE : Fld := ⟨0x80040, 0, 32⟩
abbrev MMU_INWIN_EN (n : Nat) : Fld := ⟨0x81000 + 0x10 * n, 31, 1⟩
abbrev MMU_INWIN_W (n : Nat) : Fld := ⟨0x81000 + 0x10 * n, 30, 1⟩
abbrev MMU_INWIN_R (n : Nat) : Fld := ⟨0x81000 + 0x10 * n, 29, 1⟩
abbrev MMU_INWIN_SRC_CHIP (n : Nat) : Fld := ⟨0x81000 + 0x10 * n, 16, 6⟩
abbrev MMU_INWIN_CID (n : Nat) : Fld := ⟨0x81000 + 0x10 * n, 0, 12⟩
abbrev MMU_INWIN_ROOT_ROOT (n : Nat) : Fld := ⟨0x81008 + 0x10 * n, 9, 43⟩
abbrev CLM_CTL_DENY_IRQ_EN : Fld := ⟨0x90000, 1, 1⟩
abbrev CLM_CTL_LOCK : Fld := ⟨0x90000, 0, 1⟩
abbrev CLM_STS_BAD_INDEX : Fld := ⟨0x90004, 2, 1⟩
abbrev CLM_STS_DENY : Fld := ⟨0x90004, 1, 1⟩
abbrev CLM_STS_BUSY : Fld := ⟨0x90004, 0, 1⟩
abbrev CLM_INDEX_INDEX : Fld := ⟨0x90008, 0, 25⟩
abbrev CLM_RANGE_COUNT : Fld := ⟨0x9000c, 0, 25⟩
abbrev CLM_ENTRY_W : Fld := ⟨0x90010, 25, 1⟩
abbrev CLM_ENTRY_R : Fld := ⟨0x90010, 24, 1⟩
abbrev CLM_ENTRY_MASK : Fld := ⟨0x90010, 12, 12⟩
abbrev CLM_ENTRY_CID : Fld := ⟨0x90010, 0, 12⟩
abbrev CLM_DENY_CNT_COUNT : Fld := ⟨0x90018, 0, 16⟩
abbrev CLM_DENY_ADDR_VALID : Fld := ⟨0x90020, 63, 1⟩
abbrev CLM_DENY_ADDR_PA : Fld := ⟨0x90020, 0, 52⟩
abbrev CLM_DENY_INFO_SOURCE : Fld := ⟨0x90028, 29, 3⟩
abbrev CLM_DENY_INFO_WRITE : Fld := ⟨0x90028, 28, 1⟩
abbrev CLM_DENY_INFO_SRC_CHIP : Fld := ⟨0x90028, 22, 6⟩
abbrev CLM_DENY_INFO_PART : Fld := ⟨0x90028, 19, 3⟩
abbrev CLM_DENY_INFO_CID : Fld := ⟨0x90028, 0, 12⟩
abbrev TRV_CTL_PMU_IRQ_EN : Fld := ⟨0xa0000, 1, 1⟩
abbrev TRV_CTL_ECC_IRQ_EN : Fld := ⟨0xa0000, 0, 1⟩
abbrev TRV_STS_PMU_OVF : Fld := ⟨0xa0004, 8, 8⟩
abbrev TRV_STS_DROP : Fld := ⟨0xa0004, 2, 1⟩
abbrev TRV_STS_UE : Fld := ⟨0xa0004, 1, 1⟩
abbrev TRV_STS_CE : Fld := ⟨0xa0004, 0, 1⟩
abbrev TRV_CE_CNT_COUNT : Fld := ⟨0xa0008, 0, 16⟩
abbrev TRV_UE_CNT_COUNT : Fld := ⟨0xa000c, 0, 16⟩
abbrev TRV_ERR_LOC_VALID : Fld := ⟨0xa0010, 31, 1⟩
abbrev TRV_ERR_LOC_ROUTER : Fld := ⟨0xa0010, 12, 8⟩
abbrev TRV_ERR_LOC_PLANE : Fld := ⟨0xa0010, 8, 4⟩
abbrev TRV_ERR_LOC_PORT : Fld := ⟨0xa0010, 0, 3⟩
abbrev TRV_TOKWAIT_MAX_CYCLES : Fld := ⟨0xa0020, 0, 32⟩
abbrev TRV_TOKWAIT_STOP_REQ : Fld := ⟨0xa0024, 9, 9⟩
abbrev TRV_TOKWAIT_STOP_TGT : Fld := ⟨0xa0024, 0, 9⟩
abbrev TRV_PMU_SEL_EN (k : Nat) : Fld := ⟨0xa0100 + 0x10 * k, 31, 1⟩
abbrev TRV_PMU_SEL_VC (k : Nat) : Fld := ⟨0xa0100 + 0x10 * k, 28, 3⟩
abbrev TRV_PMU_SEL_VC_EN (k : Nat) : Fld := ⟨0xa0100 + 0x10 * k, 27, 1⟩
abbrev TRV_PMU_SEL_STOP (k : Nat) : Fld := ⟨0xa0100 + 0x10 * k, 16, 9⟩
abbrev TRV_PMU_SEL_EVENT (k : Nat) : Fld := ⟨0xa0100 + 0x10 * k, 0, 8⟩
abbrev TRV_PMU_CNT_COUNT (k : Nat) : Fld := ⟨0xa0108 + 0x10 * k, 0, 48⟩
abbrev CHK_CTL_IRQ_EN : Fld := ⟨0xb0000, 0, 1⟩
abbrev CHK_STS_UNCHECKED : Fld := ⟨0xb0004, 17, 1⟩
abbrev CHK_STS_CONFLICT : Fld := ⟨0xb0004, 16, 1⟩
abbrev CHK_STS_ERR : Fld := ⟨0xb0004, 0, 16⟩
abbrev CHK_CTX_CFG_EN (n : Nat) : Fld := ⟨0xb0100 + 0x20 * n, 31, 1⟩
abbrev CHK_CTX_CFG_DIR (n : Nat) : Fld := ⟨0xb0100 + 0x20 * n, 30, 1⟩
abbrev CHK_CTX_CFG_POLY (n : Nat) : Fld := ⟨0xb0100 + 0x20 * n, 28, 2⟩
abbrev CHK_CTX_CFG_BKIND (n : Nat) : Fld := ⟨0xb0100 + 0x20 * n, 26, 2⟩
abbrev CHK_CTX_CFG_PPART (n : Nat) : Fld := ⟨0xb0100 + 0x20 * n, 9, 3⟩
abbrev CHK_CTX_CFG_PCHIP (n : Nat) : Fld := ⟨0xb0100 + 0x20 * n, 3, 6⟩
abbrev CHK_CTX_CFG_LPART (n : Nat) : Fld := ⟨0xb0100 + 0x20 * n, 0, 3⟩
abbrev CHK_CTX_UNITS_COUNT (n : Nat) : Fld := ⟨0xb0104 + 0x20 * n, 0, 32⟩
abbrev CHK_CTX_ERRS_COUNT (n : Nat) : Fld := ⟨0xb0108 + 0x20 * n, 0, 16⟩
abbrev CHK_CTX_LAST_VALUE (n : Nat) : Fld := ⟨0xb0110 + 0x20 * n, 0, 64⟩
abbrev CHK_CTX_EXP_VALUE (n : Nat) : Fld := ⟨0xb0118 + 0x20 * n, 0, 64⟩
abbrev LNK_CTL_REPLAY_TO (p : Nat) : Fld := ⟨0xc0000 + 0x2000 * p, 8, 8⟩
abbrev LNK_CTL_IRQ_EN (p : Nat) : Fld := ⟨0xc0000 + 0x2000 * p, 3, 1⟩
abbrev LNK_CTL_ALLOW_4 (p : Nat) : Fld := ⟨0xc0000 + 0x2000 * p, 2, 1⟩
abbrev LNK_CTL_RETRAIN (p : Nat) : Fld := ⟨0xc0000 + 0x2000 * p, 1, 1⟩
abbrev LNK_CTL_EN (p : Nat) : Fld := ⟨0xc0000 + 0x2000 * p, 0, 1⟩
abbrev LNK_STS_PEER_CHIP (p : Nat) : Fld := ⟨0xc0004 + 0x2000 * p, 20, 6⟩
abbrev LNK_STS_PEER_PORT (p : Nat) : Fld := ⟨0xc0004 + 0x2000 * p, 17, 3⟩
abbrev LNK_STS_LANE_OK (p : Nat) : Fld := ⟨0xc0004 + 0x2000 * p, 8, 8⟩
abbrev LNK_STS_WIDTH (p : Nat) : Fld := ⟨0xc0004 + 0x2000 * p, 4, 4⟩
abbrev LNK_STS_DOWN (p : Nat) : Fld := ⟨0xc0004 + 0x2000 * p, 3, 1⟩
abbrev LNK_STS_TRAINING (p : Nat) : Fld := ⟨0xc0004 + 0x2000 * p, 2, 1⟩
abbrev LNK_STS_UP (p : Nat) : Fld := ⟨0xc0004 + 0x2000 * p, 0, 1⟩
abbrev LNK_FEC_CORR_COUNT (p : Nat) : Fld := ⟨0xc0010 + 0x2000 * p, 0, 32⟩
abbrev LNK_FEC_UNC_COUNT (p : Nat) : Fld := ⟨0xc0014 + 0x2000 * p, 0, 16⟩
abbrev LNK_CRC_ERR_COUNT (p : Nat) : Fld := ⟨0xc0018 + 0x2000 * p, 0, 16⟩
abbrev LNK_REPLAYS_COUNT (p : Nat) : Fld := ⟨0xc001c + 0x2000 * p, 0, 16⟩
abbrev LNK_RETRAINS_COUNT (p : Nat) : Fld := ⟨0xc0020 + 0x2000 * p, 0, 16⟩
abbrev LNK_SEQ_RX_E (p : Nat) : Fld := ⟨0xc0030 + 0x2000 * p, 16, 16⟩
abbrev LNK_SEQ_TX_NEXT (p : Nat) : Fld := ⟨0xc0030 + 0x2000 * p, 0, 16⟩
abbrev LNK_WM_CFG_IRQ_EN (p : Nat) : Fld := ⟨0xc0040 + 0x2000 * p, 24, 1⟩
abbrev LNK_WM_CFG_HYST (p : Nat) : Fld := ⟨0xc0040 + 0x2000 * p, 12, 12⟩
abbrev LNK_WM_CFG_LEVEL (p : Nat) : Fld := ⟨0xc0040 + 0x2000 * p, 0, 12⟩
abbrev LNK_WM_STS_COUNT (p : Nat) : Fld := ⟨0xc0044 + 0x2000 * p, 16, 16⟩
abbrev LNK_WM_STS_CROSSED_DOWN (p : Nat) : Fld := ⟨0xc0044 + 0x2000 * p, 2, 1⟩
abbrev LNK_WM_STS_CROSSED_UP (p : Nat) : Fld := ⟨0xc0044 + 0x2000 * p, 1, 1⟩
abbrev LNK_WM_STS_LEVEL_ABOVE (p : Nat) : Fld := ⟨0xc0044 + 0x2000 * p, 0, 1⟩
abbrev LNK_PACKED_COUNT (p : Nat) : Fld := ⟨0xc0050 + 0x2000 * p, 0, 32⟩
abbrev LNK_TX_BYTES_COUNT (p : Nat) : Fld := ⟨0xc0058 + 0x2000 * p, 0, 48⟩
abbrev LNK_RX_BYTES_COUNT (p : Nat) : Fld := ⟨0xc0060 + 0x2000 * p, 0, 48⟩
abbrev LNK_PACK_CFG_PFMT : Fld := ⟨0xc1000, 0, 1⟩
abbrev LNK_ROUTE_PACK (c : Nat) : Fld := ⟨0xc1100 + 0x4 * c, 8, 2⟩
abbrev LNK_ROUTE_DL (c : Nat) : Fld := ⟨0xc1100 + 0x4 * c, 5, 1⟩
abbrev LNK_ROUTE_DIM (c : Nat) : Fld := ⟨0xc1100 + 0x4 * c, 4, 1⟩
abbrev LNK_ROUTE_V (c : Nat) : Fld := ⟨0xc1100 + 0x4 * c, 3, 1⟩
abbrev LNK_ROUTE_PORT (c : Nat) : Fld := ⟨0xc1100 + 0x4 * c, 0, 3⟩
abbrev PWR_CTL_ALERT_LEVEL : Fld := ⟨0x30000, 4, 3⟩
abbrev PWR_CTL_ALERT_EN : Fld := ⟨0x30000, 1, 1⟩
abbrev PWR_CTL_IRQ_EN : Fld := ⟨0x30000, 0, 1⟩
abbrev PWR_STS_TS_TEMP : Fld := ⟨0x30004, 16, 8⟩
abbrev PWR_STS_LEVEL_UP : Fld := ⟨0x30004, 12, 1⟩
abbrev PWR_STS_DSTATE : Fld := ⟨0x30004, 8, 2⟩
abbrev PWR_STS_DEV_LEVEL : Fld := ⟨0x30004, 0, 3⟩
abbrev PWR_LTOL_NS (n : Nat) : Fld := ⟨0x30100 + 0x4 * n, 0, 32⟩
abbrev PWR_PSTATE_WAKING (p : Nat) : Fld := ⟨0x30200 + 0x10 * p, 16, 1⟩
abbrev PWR_PSTATE_EFF_STEP (p : Nat) : Fld := ⟨0x30200 + 0x10 * p, 12, 2⟩
abbrev PWR_PSTATE_STEP_REQ (p : Nat) : Fld := ⟨0x30200 + 0x10 * p, 8, 2⟩
abbrev PWR_PSTATE_LIMIT (p : Nat) : Fld := ⟨0x30200 + 0x10 * p, 4, 2⟩
abbrev PWR_PSTATE_TARGET (p : Nat) : Fld := ⟨0x30200 + 0x10 * p, 2, 2⟩
abbrev PWR_PSTATE_STATE (p : Nat) : Fld := ⟨0x30200 + 0x10 * p, 0, 2⟩
abbrev PWR_MAP_CLASSES (p : Nat) : Fld := ⟨0x30204 + 0x10 * p, 0, 8⟩
abbrev PWR_WAKE_CNT_COUNT (p : Nat) : Fld := ⟨0x30208 + 0x10 * p, 0, 32⟩
abbrev PWR_THERM_PEAK_LEVEL (n : Nat) : Fld := ⟨0x30300 + 0x4 * n, 28, 3⟩
abbrev PWR_THERM_LEVEL (n : Nat) : Fld := ⟨0x30300 + 0x4 * n, 24, 3⟩
abbrev PWR_THERM_TP (n : Nat) : Fld := ⟨0x30300 + 0x4 * n, 16, 8⟩
abbrev PWR_THERM_TS (n : Nat) : Fld := ⟨0x30300 + 0x4 * n, 8, 8⟩
abbrev PWR_THERM_TJ (n : Nat) : Fld := ⟨0x30300 + 0x4 * n, 0, 8⟩
abbrev HDF_ID_DEVICE_ID : Fld := ⟨0x0, 16, 16⟩
abbrev HDF_ID_STEP : Fld := ⟨0x0, 0, 16⟩
abbrev HDF_CTL_IRQ_EN : Fld := ⟨0x4, 3, 1⟩
abbrev HDF_CTL_ALERT_EN : Fld := ⟨0x4, 2, 1⟩
abbrev HDF_CTL_STAGE_GO : Fld := ⟨0x4, 1, 1⟩
abbrev HDF_CTL_REBOOT : Fld := ⟨0x4, 0, 1⟩
abbrev HDF_SEAL_VIOL_CNT : Fld := ⟨0x8, 16, 16⟩
abbrev HDF_SEAL_RUN : Fld := ⟨0x8, 1, 1⟩
abbrev HDF_SEAL_SEALED : Fld := ⟨0x8, 0, 1⟩
abbrev HDF_IMAGE_STS_SECTION : Fld := ⟨0xc, 24, 8⟩
abbrev HDF_IMAGE_STS_REASON_B : Fld := ⟨0xc, 16, 8⟩
abbrev HDF_IMAGE_STS_REASON_A : Fld := ⟨0xc, 8, 8⟩
abbrev HDF_IMAGE_STS_FAILED : Fld := ⟨0xc, 7, 1⟩
abbrev HDF_IMAGE_STS_WAIT_HOST : Fld := ⟨0xc, 6, 1⟩
abbrev HDF_IMAGE_STS_COPY : Fld := ⟨0xc, 4, 2⟩
abbrev HDF_IMAGE_STS_PHASE : Fld := ⟨0xc, 0, 4⟩
abbrev HDF_CAP_CAP : Fld := ⟨0x10, 0, 32⟩
abbrev HDF_SVN_SVN : Fld := ⟨0x14, 0, 32⟩
abbrev HDF_BUILD_ID_BUILD_ID (i : Nat) : Fld := ⟨0x20 + 0x4 * i, 0, 32⟩
abbrev HDF_STAGE_BASE_ADDR : Fld := ⟨0x30, 12, 52⟩
abbrev HDF_BOOT_TIME_US : Fld := ⟨0x38, 0, 32⟩
abbrev HDF_FETCH_TIME_US : Fld := ⟨0x3c, 0, 32⟩
abbrev SEC_FUSE_SVN_MIN : Fld := ⟨0xe0000, 16, 8⟩
abbrev SEC_FUSE_DBG_PROG : Fld := ⟨0xe0000, 8, 2⟩
abbrev SEC_FUSE_IMG_PROG : Fld := ⟨0xe0000, 4, 4⟩
abbrev SEC_FUSE_IMG_REVOKED : Fld := ⟨0xe0000, 0, 4⟩
abbrev SEC_DBG_CMD_SCOPE : Fld := ⟨0xe0040, 16, 4⟩
abbrev SEC_DBG_CMD_RELOCK : Fld := ⟨0xe0040, 2, 1⟩
abbrev SEC_DBG_CMD_VERIFY : Fld := ⟨0xe0040, 1, 1⟩
abbrev SEC_DBG_CMD_CHALLENGE : Fld := ⟨0xe0040, 0, 1⟩
abbrev SEC_DBG_STS_FAIL_CNT : Fld := ⟨0xe0044, 24, 8⟩
abbrev SEC_DBG_STS_SCOPE_ACTIVE : Fld := ⟨0xe0044, 16, 4⟩
abbrev SEC_DBG_STS_FAIL : Fld := ⟨0xe0044, 2, 1⟩
abbrev SEC_DBG_STS_BUSY : Fld := ⟨0xe0044, 1, 1⟩
abbrev SEC_DBG_STS_UNLOCKED : Fld := ⟨0xe0044, 0, 1⟩
abbrev SEC_DBG_CHAL_CHAL (i : Nat) : Fld := ⟨0xe0100 + 0x4 * i, 0, 32⟩
abbrev SEC_DBG_RESP_RESP (i : Nat) : Fld := ⟨0xe0200 + 0x4 * i, 0, 32⟩
abbrev DBG_TRIG_PART (k : Nat) : Fld := ⟨0xf0000 + 0x4 * k, 8, 8⟩
abbrev DBG_TRIG_DIR (k : Nat) : Fld := ⟨0xf0000 + 0x4 * k, 0, 1⟩
abbrev EVT_CTL_OWNER : Fld := ⟨0x60000, 4, 2⟩
abbrev EVT_CTL_IRQ_EN : Fld := ⟨0x60000, 1, 1⟩
abbrev EVT_CTL_EN : Fld := ⟨0x60000, 0, 1⟩
abbrev EVT_STS_ACK_BAD : Fld := ⟨0x60004, 8, 1⟩
abbrev EVT_STS_HELD : Fld := ⟨0x60004, 1, 7⟩
abbrev EVT_STS_WRITE_ERR : Fld := ⟨0x60004, 0, 1⟩
abbrev EVT_LOG_BASE_ADDR : Fld := ⟨0x60008, 12, 52⟩
abbrev EVT_LOG_HEAD_SEQ : Fld := ⟨0x60010, 0, 32⟩
abbrev EVT_LOG_ACK_SEQ : Fld := ⟨0x60014, 0, 32⟩
abbrev EVT_LOST_COUNT : Fld := ⟨0x60018, 0, 32⟩
abbrev EVT_WM_CFG_IRQ_EN : Fld := ⟨0x60020, 24, 1⟩
abbrev EVT_WM_CFG_HYST : Fld := ⟨0x60020, 12, 12⟩
abbrev EVT_WM_CFG_LEVEL : Fld := ⟨0x60020, 0, 12⟩
abbrev EVT_WM_STS_COUNT : Fld := ⟨0x60024, 16, 16⟩
abbrev EVT_WM_STS_CROSSED_DOWN : Fld := ⟨0x60024, 2, 1⟩
abbrev EVT_WM_STS_CROSSED_UP : Fld := ⟨0x60024, 1, 1⟩
abbrev EVT_WM_STS_LEVEL_ABOVE : Fld := ⟨0x60024, 0, 1⟩
abbrev EVT_WM_SUM_WCB : Fld := ⟨0x60028, 26, 32⟩
abbrev EVT_WM_SUM_PLAT : Fld := ⟨0x60028, 18, 8⟩
abbrev EVT_WM_SUM_LNK : Fld := ⟨0x60028, 10, 8⟩
abbrev EVT_WM_SUM_GUARD : Fld := ⟨0x60028, 2, 8⟩
abbrev EVT_WM_SUM_EVT : Fld := ⟨0x60028, 1, 1⟩
abbrev EVT_WM_SUM_ADM : Fld := ⟨0x60028, 0, 1⟩
abbrev DMA_SRC_ADDR (d : Nat) : Fld := ⟨0x61000 + 0x40 * d, 0, 64⟩
abbrev DMA_DST_ADDR (d : Nat) : Fld := ⟨0x61008 + 0x40 * d, 0, 64⟩
abbrev DMA_LEN_LEN (d : Nat) : Fld := ⟨0x61010 + 0x40 * d, 0, 32⟩
abbrev DMA_CTL_IRQ (d : Nat) : Fld := ⟨0x61014 + 0x40 * d, 3, 1⟩
abbrev DMA_CTL_DST_HOST (d : Nat) : Fld := ⟨0x61014 + 0x40 * d, 2, 1⟩
abbrev DMA_CTL_SRC_HOST (d : Nat) : Fld := ⟨0x61014 + 0x40 * d, 1, 1⟩
abbrev DMA_CTL_GO (d : Nat) : Fld := ⟨0x61014 + 0x40 * d, 0, 1⟩
abbrev DMA_STS_CODE (d : Nat) : Fld := ⟨0x61018 + 0x40 * d, 4, 4⟩
abbrev DMA_STS_ERR (d : Nat) : Fld := ⟨0x61018 + 0x40 * d, 2, 1⟩
abbrev DMA_STS_DONE (d : Nat) : Fld := ⟨0x61018 + 0x40 * d, 1, 1⟩
abbrev DMA_STS_BUSY (d : Nat) : Fld := ⟨0x61018 + 0x40 * d, 0, 1⟩
abbrev PIN_MUX_FUNC (n : Nat) : Fld := ⟨0x70000 + 0x4 * n, 0, 3⟩
abbrev PIN_PULL_SLOW (n : Nat) : Fld := ⟨0x70040 + 0x4 * n, 4, 1⟩
abbrev PIN_PULL_DRIVE (n : Nat) : Fld := ⟨0x70040 + 0x4 * n, 2, 2⟩
abbrev PIN_PULL_PULL (n : Nat) : Fld := ⟨0x70040 + 0x4 * n, 0, 2⟩
abbrev PIN_GPIO_OUT_OUT : Fld := ⟨0x70080, 0, 16⟩
abbrev PIN_GPIO_SET_OUT : Fld := ⟨0x70084, 0, 16⟩
abbrev PIN_GPIO_CLR_OUT : Fld := ⟨0x70088, 0, 16⟩
abbrev PIN_GPIO_OE_OE : Fld := ⟨0x7008c, 0, 16⟩
abbrev PIN_GPIO_IN_IN : Fld := ⟨0x70090, 0, 16⟩
abbrev PIN_GPIO_EDGE_FALL : Fld := ⟨0x70094, 16, 16⟩
abbrev PIN_GPIO_EDGE_RISE : Fld := ⟨0x70094, 0, 16⟩
abbrev PIN_STRAP_I3C_ADDR : Fld := ⟨0x700a0, 0, 7⟩
abbrev PIN_AVS_STS_FAULT : Fld := ⟨0x700b0, 16, 8⟩
abbrev PIN_AVS_STS_PENDING : Fld := ⟨0x700b0, 8, 8⟩
abbrev PIN_AVS_STS_SETTLED : Fld := ⟨0x700b0, 0, 8⟩
abbrev PIN_AVS_VOUT_MV (p : Nat) : Fld := ⟨0x700c0 + 0x4 * p, 0, 16⟩

end Sys2Proof.Machine
end

