-- ==== Sys2Proof/Machine/Tbl.lean ====
section
/-!
DEFINITION. Machine/Tbl.lean: a sparse table from natural keys to values, in one canonical form: keys strictly rising and no
entry equal to what an unlisted key reads as. Registers, memories, register files and per-unit records are all held in it.
-/
namespace Sys2Proof.Machine

/-- A sparse table: keys strictly rising, no entry equal to the default of its key. -/
abbrev Tbl (α : Type) := List (Nat × α)

namespace Tbl

/-- The value at `k`; an unlisted key reads as its default `d k`. -/
def get {α : Type} (d : Nat → α) : Tbl α → Nat → α
  | [], k => d k
  | (j, v) :: t, k => if j = k then v else get d t k

/-- Removes the entry of `k`. -/
def erase {α : Type} : Tbl α → Nat → Tbl α
  | [], _ => []
  | (j, v) :: t, k => if j = k then erase t k else (j, v) :: erase t k

/-- Puts `(k, v)` before the first larger key. -/
def insert {α : Type} : Tbl α → Nat → α → Tbl α
  | [], k, v => [(k, v)]
  | (j, w) :: t, k, v => if k < j then (k, v) :: (j, w) :: t else (j, w) :: insert t k v

/-- Sets the value at `k`, keeping the canonical form: a default value is not listed. -/
def set {α : Type} [DecidableEq α] (d : Nat → α) (t : Tbl α) (k : Nat) (v : α) : Tbl α :=
  if v = d k then erase t k else insert (erase t k) k v

/-- The keys from `lo` on rise strictly. -/
def risesFrom {α : Type} : Nat → Tbl α → Bool
  | _, [] => true
  | lo, (j, _) :: t => decide (lo ≤ j) && risesFrom (j + 1) t

/-- The canonical form: keys strictly rising, no entry equal to its default. -/
def wf {α : Type} [DecidableEq α] (d : Nat → α) (t : Tbl α) : Bool :=
  risesFrom 0 t && t.all (fun e => decide (e.2 ≠ d e.1))

end Tbl

/-- Inserts an item before the first one it may precede. -/
def insertSorted {α : Type} (le : α → α → Bool) (x : α) : List α → List α
  | [] => [x]
  | y :: t => if le x y then x :: y :: t else y :: insertSorted le x t

/-- Insertion sort; items of equal order keep their places. -/
def sortBy {α : Type} (le : α → α → Bool) : List α → List α
  | [] => []
  | x :: t => insertSorted le x (sortBy le t)

end Sys2Proof.Machine
end

