-- ==== Sys2Proof/Machine/State.lean ====
section
/-!
DEFINITION. Machine/State.lean: everything the specification gives the machine, as plain data, the reasons a step can stop,
and the state right after PERST_N is first released with no image applied.
-/
namespace Sys2Proof.Machine

/-- A sparse memory of bytes; an unlisted byte reads 0 (assumption 2). -/
abbrev Mem := Tbl Byte

/-- The product (Tables 0-2 to 0-4): package or assembly, -W or -N, and the stepping code of HDF_ID (R5).
(DESIGN CHOICE: assumption 5.) -/
structure Product where
  assembly : Bool
  narrow : Bool
  step : BitVec 16
deriving DecidableEq, Repr


/-! ### The Admission Port (chapter 2) -/

/-- One class header of the class table image (Table 2-9). -/
structure ClsHdr where
  st : Nat
  code : Nat
  hint : Nat
  promptMax : Nat
  genMax : Nat
  gstart : Nat
  gcount : Nat
deriving DecidableEq, Repr

/-- A class table T(k) (Table 2-9): its filled grants in array order; unfilled entries are 0. `idx` counts the boundary it was built at
from RUN, which no load of BEAT_COUNT repeats (R447). -/
structure ClsTable where
  idx : Nat
  buildBeat : Nat
  hdrs : List ClsHdr
  grants : List Nat
  parityEn : Bool
  portClosed : Bool
deriving DecidableEq, Repr

/-- The table the port answers from, with the grants consumed per class. -/
structure ActTable where
  tbl : ClsTable
  used : List Nat
deriving DecidableEq, Repr

/-- A 16-byte accept record (R41). -/
structure AcceptRec where
  slot : BitVec 12
  tc : BitVec 3
  desc : BitVec 32
  ts : BitVec 64
deriving DecidableEq, Repr

/-- A retirement record (R41): the table's BUILD_BEAT and eight consumed counts. -/
structure RetireRec where
  buildBeat : Nat
  used : List Nat
deriving DecidableEq, Repr

/-- A record on its way from the receiving die to Derida, in sending order (R41); `idx` is the boundary at which the retired table was
built. -/
inductive UpRec where
  | accept (r : AcceptRec)
  | retire (r : RetireRec) (idx : Nat)
deriving DecidableEq, Repr

/-- Both sides of the class table: the receiver's buffers, with the table due (its boundary and BUILD_BEAT), Derida's tables not yet
retired (R36 to R40), and the levels of the port's outputs. -/
structure AdmSt where
  active : Option ActTable
  arrived : Option ClsTable
  ready : Option ClsTable
  metDue : Bool
  missed : Nat
  swapPend : Bool
  due : Option (Nat × Nat)
  built : List ClsTable
  up : List UpRec
  qav : Bool
  qa : BitVec 16
  qap : Bool
deriving DecidableEq, Repr

/-- STATE of a ring entry (Table 2-11). -/
inductive SlotPhase where
  | free | accepted | posted | taken
deriving DecidableEq, Repr

/-- The output owed for an input: the beat in which the input was first taken, as a boundary count, and the boundary count and offset
at which the output was complete, as far as this device knows (R83, R84). -/
structure OutSt where
  taken : Option Nat
  done : Option (Nat × Nat)
deriving DecidableEq, Repr

/-- What Derida keeps of one sequence slot: its ring STATE and header fields, the boundary at which its body is late, the
boundary and offset at which it was posted, and the output owed for its body (R42 to R44, R84, R95). -/
structure SlotRec where
  phase : SlotPhase
  tc : Nat
  reqSeq : BitVec 32
  tag : Nat
  promptBlk : Nat
  genBlk : Nat
  acceptTs : BitVec 64
  deadline : Nat
  postedIdx : Nat
  postedOff : Nat
  out : OutSt
deriving DecidableEq, Repr

/-- A free slot. -/
def SlotRec.none : SlotRec :=
  ⟨.free, 0, 0, 0, 0, 0, 0, 0, 0, 0, ⟨Option.none, Option.none⟩⟩

/-- What an EGRESS stage keeps of a slot between result writes (R18), with the sample, kind and ticks, that waits to travel to the INGRESS
device with the slot's feedback frame (R47, R310). -/
structure EgrRec where
  reqSeq : BitVec 32
  wrote : Bool
  lastPos : Nat
  lastTs : BitVec 64
  sample : Option (Bool × Nat)
deriving DecidableEq, Repr

/-! ### Tallies and the Percentile Guard (chapter 3) -/

/-- One sample in a guard window: the boundary count of its count beat, class, kind and bin (R54). -/
structure WinEnt where
  idx : Nat
  cls : Nat
  kind : Nat
  bin : Nat
deriving DecidableEq, Repr

/-- Live bins, snapshot bank, guard windows and pending commands; bin key is (class × 2 + kind) × 65 + bin (R49 to R54). -/
structure TalSt where
  bins : Tbl Nat
  sat : Tbl Bool
  snap : Tbl Nat
  snapSat : Tbl Bool
  win : List WinEnt
  winClear : Nat
  snapPend : Nat
  clearPend : Nat
deriving DecidableEq, Repr

/-! ### The beat and the clocks (chapter 4) -/

/-- The sync state of BEAT_SYNC_STS (Table 4-13). -/
inductive SyncState where
  | off | acquiring | tracking | free
deriving DecidableEq, Repr

/-- The open late side of a window: its nominal time and the tick at which it closes (R74). -/
structure LateWin where
  nom : Nat
  close : Nat
deriving DecidableEq, Repr

/-- A timestamp discipline chain: expected timestamp at its last hit, ticks of the active periods since, and whether the
next boundary belongs to that hit itself (R81). -/
structure Chain where
  exp : BitVec 64
  acc : Nat
  skip : Bool
deriving DecidableEq, Repr

/-- The registers as they stood before the first write of a boundary's own TCLK cycle, and that cycle's tick (Table 0-9). -/
structure CycleRegs where
  tick : Nat
  regs : Tbl (BitVec 32)
deriving DecidableEq, Repr

/-- A timeline that a load of the present beat replaced (R80): the timestamps of the beat's boundary and of the load on it. -/
structure OldLine where
  start : BitVec 64
  stop : BitVec 64
deriving DecidableEq, Repr

/-- The beat generator, sync state machine, timestamp and clock monitor (R64 to R82). Times are TCLK ticks. -/
structure BeatSt where
  tick : Nat
  ts : BitVec 64
  slew : Int
  slewPhase : Nat
  locked1st : Bool
  idx : Nat
  bk : Nat
  bkTs : BitVec 64
  prevDl : Nat
  nom : Nat
  placed : Nat
  clamped : Bool
  hit : Bool
  sync : SyncState
  late : Option LateWin
  lastEdge : Option Nat
  winEdge : Option (Nat × BitVec 64)
  missRun : Nat
  reacq : Bool
  loadTs : Bool
  loadCount : Bool
  chain : Option Chain
  lockRun : Nat
  outUntil : Nat
  goodWin : Nat
  depth : Tbl Nat
  cycle : Option CycleRegs
  oldLines : List OldLine
deriving DecidableEq, Repr

/-! ### Partitions, plats and the stage graph (chapter 5) -/

/-- The states of a frame (R101). -/
inductive FrameSt where
  | free | filling | ready | taken | acked
deriving DecidableEq, Repr

/-- A frame header (Table 5-3). -/
structure FrameHdr where
  slot : BitVec 12
  tc : BitVec 8
  kind : BitVec 8
  srcChip : BitVec 6
  srcPart : BitVec 3
  late : Bool
  sampleValid : Bool
  sampleKind : Bool
  finalPass : Bool
  reqSeq : BitVec 32
  beatTag : BitVec 32
  pos : BitVec 32
  ntok : BitVec 32
  len : BitVec 32
  sample : BitVec 64
  acceptTs : BitVec 64
  stageData : BitVec 128
deriving DecidableEq, Repr

/-- A frame header of zeros. -/
def FrameHdr.zero : FrameHdr :=
  ⟨0, 0, 0, 0, 0, false, false, false, false, 0, 0, 0, 0, 0, 0, 0, 0⟩

/-- One frame of a plat: state, header, boundary count and offset of its completion, negative acknowledgements of its output in a row, the
boundary count at which its output was acknowledged, whether its sample has been counted, and its output (R47, R84, R101, R438, R439). -/
structure Frame where
  st : FrameSt
  hdr : FrameHdr
  doneIdx : Nat
  doneOff : Nat
  nacks : Nat
  ackIdx : Nat
  sampled : Bool
  out : OutSt
deriving DecidableEq, Repr

/-- A free frame. -/
def Frame.none : Frame := ⟨.free, FrameHdr.zero, 0, 0, 0, 0, false, ⟨Option.none, Option.none⟩⟩

/-- A discarded put whose last packet has not arrived: the frame it had, its header, and whether the sender will be answered with an
acknowledgement (R100, R438). -/
structure DropPut where
  frame : Nat
  hdr : FrameHdr
  ack : Bool
deriving DecidableEq, Repr

/-- What waits for a free frame: a put of this device, or the frame token that a put of another chip asks for (R102, R310). -/
inductive PlatWait where
  | put (h : FrameHdr)
  | token (chip part : Nat)
deriving DecidableEq, Repr

/-- A plat: frames by number, its SRAM, what waits for a frame, the frames reserved for puts of other chips by chip × 8 + partition,
discarded puts still arriving, forwarded frames that wait for room at the spare in order, and what its stage took in this beat (R94,
R95, R99, R100, R107, R310). -/
structure PlatSt where
  frames : Tbl Frame
  sram : Mem
  waiting : List PlatWait
  reserved : List Nat
  drops : List DropPut
  kept : List Nat
  tookInputs : Nat
  tookPasses : Nat
  ringNacks : Tbl Nat
deriving DecidableEq, Repr

/-- The progress of a takeover of a failed stage (R106, R107). -/
inductive FoPhase where
  | none | triggered | copying | copied | done
deriving DecidableEq, Repr

/-- Failover state of one partition: progress and the spare that takes its stage. -/
structure FoSt where
  phase : FoPhase
  spare : Nat
  ptRoot : Nat
deriving DecidableEq, Repr

/-! ### Stacked memory and write combining (chapter 12) -/

/-- Causes for which a WCB entry drains, in the order of R243. -/
inductive DrainCause where
  | full | age | fence | capacity | other
deriving DecidableEq, Repr

/-- One WCB entry: line number (address / 128), bytes held (`none` where the mask bit is clear), allocation tick, drain cause
once it drains, and the drain requests that marked it (R242 to R244). -/
structure WcbEntry where
  line : Nat
  bytes : Tbl (Option Byte)
  alloc : Nat
  draining : Option DrainCause
  marks : List Nat
deriving DecidableEq, Repr

/-- A write waiting for a WCB entry: address, bytes, and the number of the request whose acknowledgement waits for it, 0 for none. -/
structure WcbWrite where
  addr : Nat
  data : List Byte
  id : Nat
deriving DecidableEq, Repr

/-- The WCB of one channel group, oldest entry first, with the writes that wait for an entry. -/
structure WcbGroup where
  entries : List WcbEntry
  stalled : List WcbWrite
deriving DecidableEq, Repr

/-- Where a drain request came from (R244). -/
inductive DrainSrc where
  | fence (part clu : Nat)
  | maint (part slot : Nat)
  | flush (part : Nat)
  | retention (part : Nat)
  | ctl (part : Nat)
  | ext
deriving DecidableEq, Repr

/-- A drain request that has not answered: number, source and the groups it was sent to (stack × 4 + group). -/
structure DrainReq where
  id : Nat
  src : DrainSrc
  groups : List Nat
deriving DecidableEq, Repr

/-- A physical error in a stored granule, as the error check will find it (R238). -/
inductive EccErr where
  | none | ce | ue
deriving DecidableEq, Repr

/-- A completion returned to a requester. -/
inductive Completion where
  | ok (data : List Byte)
  | unsupported
  | abort
  | retry
  | poisoned
deriving DecidableEq, Repr

/-- A CXL request that the device has not acknowledged: address, CID and SOURCE, the completion it will have, and for a store the bytes
it replaced (R250). -/
structure CxlReq where
  addr : Nat
  cid : Nat
  source : Nat
  res : Completion
  old : Option (List Byte)
deriving DecidableEq, Repr

/-- Memory: bytes by local physical address, POISON metadata and physical errors by granule (address / 64), WCBs by
stack × 4 + group, unanswered drain requests, the next scrub granule per group and DDR5 channel, the last write number given, stacks with
a reading of 85 °C or more since their last refresh (R241), and unacknowledged CXL requests. -/
structure MemSt where
  bytes : Mem
  poison : Tbl Bool
  ecc : Tbl EccErr
  wcb : Tbl WcbGroup
  drains : List DrainReq
  drainId : Nat
  scrub : Tbl Nat
  ackId : Nat
  hot : List Nat
  cxlOut : List CxlReq
deriving DecidableEq, Repr

/-! ### Caches (chapter 11) -/

/-- The valid states of an L1D line (R209); I is absence. -/
inductive Mesi where
  | m | e | s
deriving DecidableEq, Repr

/-- Who last stored into a line, for the claim check of its writeback: CID, cluster, virtual address of the line, and the
TRAPDETAIL of the store (R128, R257). -/
structure Writer where
  cid : Nat
  clu : Nat
  va : Nat
  detail : Nat
deriving DecidableEq, Repr

/-- A line of an L1D or L1I: line number, way, state, age, bytes by offset, last writer. -/
structure L1Line where
  line : Nat
  way : Nat
  st : Mesi
  age : Nat
  data : Mem
  wr : Writer
deriving DecidableEq, Repr

/-- A line of an L2: line number, way, age, dirty, presence vectors, owner, bytes by offset, last writer (R209). -/
structure L2Line where
  line : Nat
  way : Nat
  age : Nat
  dirty : Bool
  dpres : List Nat
  ipres : List Nat
  owner : Option Nat
  data : Mem
  wr : Writer
deriving DecidableEq, Repr

/-- A stream detector: last line, direction (true is up), lines seen in a row (R216). -/
structure Detector where
  last : Nat
  up : Bool
  dirKnown : Bool
  run : Nat
deriving DecidableEq, Repr

/-- A request waiting for its bank: cluster, line, whether it asks for ownership, whether it fills the L1I (R209, R227). -/
structure L2Req where
  clu : Nat
  line : Nat
  own : Bool
  instr : Bool
deriving DecidableEq, Repr

/-- A maintenance slot's running operation: OP, first untranslatable address, controllers its writebacks went to (R217, R218). -/
structure MaintSt where
  op : Nat
  fault : Option Nat
  groups : List Nat
deriving DecidableEq, Repr

/-- The L2 of a partition: lines, round-robin pointer per bank, waiting requests, maintenance slots that run, a full invalidate in
progress (`true` with writeback), an ENABLE that waits for it, whether one has completed since ENABLE last went to 0, and whether
a way change is in progress. -/
structure L2St where
  lines : List L2Line
  rr : Tbl Nat
  reqs : List L2Req
  slots : Tbl (Option MaintSt)
  full : Option Bool
  enPend : Bool
  cleaned : Bool
  waying : Bool
deriving DecidableEq, Repr

/-! ### Translation (chapter 13) -/

/-- The translation structures of a partition (Table 13-6) and the inbound TLB (R276). -/
inductive TlbId where
  | l1d (c : Nat)
  | l1i (c : Nat)
  | adit
  | assay
  | l2
deriving DecidableEq, Repr

/-- A leaf as a TLB holds it: CID, first virtual address, log2 of the page size, page address and permissions. -/
structure TlbEnt where
  at_ : TlbId
  cid : Nat
  va : Nat
  lg : Nat
  pa : Nat
  r : Bool
  w : Bool
  x : Bool
  u : Bool
  c : Bool
  dev : Bool
deriving DecidableEq, Repr

/-- A walk-cache entry: a context entry (level 0) or a pointer entry (levels 1 to 4 name the next table's level). -/
structure WalkEnt where
  cid : Nat
  level : Nat
  tag : Nat
  next : Nat
deriving DecidableEq, Repr

/-- A leaf of the inbound TLB: window, first offset, log2 size, local address, R, W. -/
structure InEnt where
  win : Nat
  off : Nat
  lg : Nat
  pa : Nat
  r : Bool
  w : Bool
deriving DecidableEq, Repr

/-- A use of a removed translation that a command waits for (R271). -/
inductive TransUse where
  | maint (part slot : Nat)
  | copy (part : Nat)
  | miss (part : Nat) (r : L2Req)
  | trv (stop tag : Nat)
  | write (id : Nat)
  | cxl
deriving DecidableEq, Repr

/-- The MMU command queue: the four command words as they stand, commands held (head in effect), uses the head waits for. -/
structure MmuSt where
  words : Tbl (BitVec 64)
  queue : List (List (BitVec 64))
  headOn : Bool
  waits : List TransUse
  inTlb : List InEnt
deriving DecidableEq, Repr

/-! ### A cluster: Hewer, the vector units and Ridge (chapters 6, 7 and 9) -/

/-- A claim abort of a retired store, held until it is reported (R128). -/
structure Abort where
  addr : BitVec 64
  detail : BitVec 64
deriving DecidableEq, Repr

/-- One cluster. `t` and `ts` hold row r of tile k at key 32k + r, `lanes` and `laneSc` lane j at key j. Registers named by
CSR number are the control registers of Table 6-3 and chapters 7, 9 and 13. -/
structure Cluster where
  pc : BitVec 64
  lastPc : BitVec 64
  x : Tbl (BitVec 64)
  sv : Tbl (BitVec 256)
  v : Tbl (BitVec 8192)
  m : Tbl (BitVec 1024)
  t : Tbl (BitVec 4096)
  ts : Tbl (BitVec 256)
  lanes : Tbl (BitVec 4096)
  laneSc : Tbl (BitVec 256)
  lfmt : BitVec 4
  lvalid : Bool
  lsc : Bool
  rm : BitVec 3
  flags : BitVec 5
  vl : Nat
  sew : BitVec 2
  alt : Bool
  tfmt : BitVec 4
  ksteps : BitVec 2
  tsc : Bool
  strideA : BitVec 64
  strideC : BitVec 64
  tcount : Nat
  instret : BitVec 64
  intrap : Bool
  ppriv : Bool
  trapvec : BitVec 64
  tretpc : BitVec 64
  mscratch : BitVec 64
  isamask : BitVec 16
  tctxEn : Bool
  tctxCid : BitVec 12
  trapcause : BitVec 64
  trappc : BitVec 64
  trapnext : BitVec 64
  trapinst : BitVec 64
  trapaddr : BitVec 64
  trapdetail : BitVec 64
  mon : Bool
  running : Bool
  halted : Bool
  inReset : Bool
  stepping : Bool
  wfb : Bool
  abort : Option Abort
  stores : List Nat
  l1d : List L1Line
  l1i : List L1Line
  dets : List Detector
  l1dClean : Bool
  l1dPend : Bool
  l1dBusy : Option Nat
  cycle0 : Nat
deriving DecidableEq, Repr

/-- The companion row of 32 bytes 0x7F, a scale of 1 (R172). (DESIGN CHOICE: assumption 3.) -/
def unitScales : BitVec 256 :=
  0x7F7F7F7F7F7F7F7F7F7F7F7F7F7F7F7F7F7F7F7F7F7F7F7F7F7F7F7F7F7F7F7F

/-- A cluster after cluster reset (R117, R135, R171, R172, R174, Table 6-4): in Monitor, not running. Registers without a
stated reset value are 0 (assumption 3). (DESIGN CHOICE: assumption 3.) -/
def Cluster.reset : Cluster :=
  { pc := 0, lastPc := 0, x := [], sv := [], v := [], m := [], t := [], ts := [], lanes := [], laneSc := [],
    lfmt := 0, lvalid := false, lsc := false, rm := 0, flags := 0, vl := 0, sew := 3, alt := false, tfmt := 0,
    ksteps := 3, tsc := false, strideA := 0, strideC := 0, tcount := 0, instret := 0, intrap := false, ppriv := true,
    trapvec := 0, tretpc := 0, mscratch := 0, isamask := 0xFFFF, tctxEn := false, tctxCid := 0, trapcause := 0,
    trappc := 0, trapnext := 0, trapinst := 0, trapaddr := 0, trapdetail := 0, mon := true, running := false,
    halted := false, inReset := false, stepping := false, wfb := false, abort := none, stores := [], l1d := [],
    l1i := [], dets := [], l1dClean := true, l1dPend := false, l1dBusy := none, cycle0 := 0 }

/-! ### Host interface, events and messages (chapters 20 and 22) -/

/-- A logged event without its sequence number (Table 20-5). -/
structure Event where
  code : Nat
  block : Nat
  flags : Nat
  time : BitVec 64
  info0 : BitVec 64
  info1 : BitVec 64
deriving DecidableEq, Repr

/-- The event log's on-die part: the entries held, whether a failed entry keeps the ring stopped, and whether vector 0 is
armed (R404, R407). -/
structure EvtSt where
  held : List Event
  stopped : Bool
  armed : Bool
deriving DecidableEq, Repr

/-- MSI-X state of one function: table words, pending bits, enable and function mask (R401). -/
structure MsixSt where
  table : Tbl (BitVec 32)
  pend : List Nat
  enabled : Bool
  fmask : Bool
deriving DecidableEq, Repr

/-- A read shadow or held half of one master (R395): pair offset and word. -/
structure HalfWord where
  off : Nat
  word : BitVec 32
deriving DecidableEq, Repr

/-- The per-master pair state. -/
structure MasterSt where
  shadow : Option HalfWord
  held : Option HalfWord
deriving DecidableEq, Repr

/-- A bit set, or a command code written, in the present arbitration window, with its register and master (R397). -/
structure WinSet where
  addr : Nat
  master : RegMaster
  bits : Nat
deriving DecidableEq, Repr

/-- The present arbitration window: its number and what was set in it.
(DEDUCED: assumption 34.) -/
structure RegWin where
  idx : Nat
  sets : List WinSet
deriving DecidableEq, Repr

/-- What a DMA engine runs: whether Headframe started it, so that its requests carry SYSTEM (R399), and the manifest entry it
fetches, if any (R381). -/
structure DmaSt where
  bySystem : Bool
  entry : Option Nat
deriving DecidableEq, Repr

/-! ### Adit and Assay (chapters 10 and 17) -/

/-- A started Adit descriptor: its fields (Table 10-2), the input elements and prior outputs it has loaded, the FTZ values of its
start, the weight bytes read so far by virtual address, the next stream block, the rows written, and how it ends. -/
structure AditRun where
  ctrl : Nat
  kblk : Nat
  rows : Nat
  wStride : Nat
  wBase : Nat
  inBase : Nat
  inStride : Nat
  outStride : Nat
  outBase : Nat
  doneAddr : Nat
  tag : Nat
  inputs : List (List Nat)
  acc : List (List Nat)
  ftzIn : Bool
  ftzOut : Bool
  buf : Mem
  nextVa : Nat
  rowsOut : Nat
  deniedRow : Option Nat
  nanOut : Bool
  infOut : Bool
  code : Nat
  faultAddr : Nat
  finished : Bool
deriving DecidableEq, Repr

/-- An Adit: descriptors enqueued and not started, and the one running (R192). -/
structure AditSt where
  queue : List Nat
  run : Option AditRun
deriving DecidableEq, Repr

/-- Where a query came from (R340): a record address, or the QUERY frame of the plat. -/
inductive AsyFrom where
  | enq (va : Nat)
  | frame (f : Nat)
deriving DecidableEq, Repr

/-- The phase of a running query. -/
inductive AsyPhase where
  | coarse | scan | rerank | done
deriving DecidableEq, Repr

/-- A ranked vector: key code and ID (R342). -/
structure AsyKey where
  key : Nat
  id : Nat
deriving DecidableEq, Repr

/-- A running query: its record and index header (Tables 17-2 and 17-4), the query vector, the lookup table, the range being
streamed with the bytes of an item cut by a block end, and what has been found. -/
structure AsyRun where
  src : AsyFrom
  ctrl : Nat
  k : Nat
  nprobe : Nat
  out : Nat
  tag : Nat
  consts : List Nat
  prog : List Nat
  kind : Nat
  vfmt : Nat
  dim : Nat
  pqb : Nat
  msub : Nat
  nlist : Nat
  nvec : Nat
  data : Nat
  cent : Nat
  raw : Nat
  q : List Nat
  norm2 : Nat
  table : List (List Nat)
  phase : AsyPhase
  pos : Nat
  stop : Nat
  carry : List Byte
  item : Nat
  probe : List Nat
  fetch : List Nat
  cents : List AsyKey
  cands : List AsyKey
  final : List AsyKey
  scanned : Nat
  fetched : Nat
  nanSeen : Bool
  isPart : Bool
  code : Nat
  faultAddr : Nat
deriving DecidableEq, Repr

/-- An Assay: queries admitted and not started, and the one running (R340). -/
structure AsySt where
  queue : List AsyFrom
  run : Option AsyRun
deriving DecidableEq, Repr

/-! ### The Traverse and the Col Links (chapters 14 and 15) -/

/-- A pool token request: requester stop, the tick at which it was sent and the network cycle at which it reaches the target (R291). -/
structure TokReq where
  stop : Nat
  tick : Nat
  arrive : Nat
deriving DecidableEq, Repr

/-- A granted pool token that its requester has not used: stop and the network cycle at which the grant reaches it. -/
structure TokGrant where
  stop : Nat
  arrive : Nat
deriving DecidableEq, Repr

/-- A request-buffer entry in use at a target: the stop whose token names it, whether that is a pool token, and the packet (R289). -/
structure TokUse where
  stop : Nat
  pool : Bool
  pkt : Nat
deriving DecidableEq, Repr

/-- A token on its way back: the stop that held it, whether it is a pool token, and when it arrives where it belongs. -/
structure TokRet where
  stop : Nat
  pool : Bool
  arrive : Nat
deriving DecidableEq, Repr

/-- The tokens of a target on one VC: requests in arrival order, grants not used, entries in use, and tokens on their way back (R289
to R291). -/
structure TokSt where
  waiting : List TokReq
  granted : List TokGrant
  held : List TokUse
  coming : List TokRet
deriving DecidableEq, Repr

/-- A packet in the network: header, payload, the error it will meet, its plane, how many of its flits have entered the mesh, whether it
has been given its buffer at the sink, and the router that discards it (R285, R286, R289). -/
structure MeshPkt where
  hdr : BitVec 64
  data : List Byte
  err : FlitErr
  plane : Nat
  sent : Nat
  cleared : Bool
  dropAt : Option Nat
deriving DecidableEq, Repr

/-- A flit in a queue: its packet, its place in the packet, and the first cycle at which it can leave (R288). -/
structure MeshFlit where
  pkt : Nat
  idx : Nat
  ready : Nat
deriving DecidableEq, Repr

/-- A credit on its way back to the sender of a queue. -/
structure MeshCredit where
  queue : Nat
  arrive : Nat
deriving DecidableEq, Repr

/-- The Traverse's mesh (R287, R288): the cycle, the packets in it by number with the next number, the packets that wait to enter in order,
the input queues, the credits in use and on their way back, the packet that holds each output with the input it comes from, the
round-robin pointers, the packets that have reached their stops, the response reservations by stop (R289), and the requests of agents that
await a response, by stop and tag (R271). -/
structure MeshSt where
  cyc : Nat
  nextId : Nat
  pkts : Tbl (Option MeshPkt)
  inj : List Nat
  queues : Tbl (List MeshFlit)
  used : Tbl Nat
  credits : List MeshCredit
  owner : Tbl (Option (Nat × Nat))
  rr : Tbl Nat
  landed : List Nat
  resv : Tbl Nat
  asked : List (Nat × Nat)
deriving DecidableEq, Repr

/-- A mesh with nothing in it. -/
def MeshSt.empty : MeshSt := ⟨0, 0, [], [], [], [], [], [], [], [], [], []⟩

/-- A DATA flit held for replay: SEQ, FPO and its 248 payload bytes (R301, R303). -/
structure HeldFlit where
  seq : Nat
  fpo : Nat
  data : List Byte
deriving DecidableEq, Repr

/-- A link packet that waits to leave; one that is forwarded still fills the receive buffer of port × 8 + class × 2 + SUB (R306). -/
structure QueuedPkt where
  pkt : LinkPkt
  src : Option Nat
deriving DecidableEq, Repr

/-- A Col Link port: flits held for replay, packets that wait for credits, the bytes of packets that have left and stand in no flit yet
with the places where packets start in them, the received bytes of a packet in progress, the last replay's first SEQ, how often in a row
it started there and whether it began by a timeout, whether a NAK of the receiver is outstanding, credits used by class and SUB, failed
training attempts, and whether the port is DOWN (R301 to R306). -/
structure LinkSt where
  held : List HeldFlit
  queue : List QueuedPkt
  stream : List Byte
  starts : List Nat
  part : List Byte
  replaySeq : Nat
  replays : Nat
  timed : Bool
  nakOut : Bool
  used : Tbl Nat
  tries : Nat
  down : Bool
deriving DecidableEq, Repr

/-- A put to another chip that waits for its remote frame token (R310). -/
structure RemPut where
  part : Nat
  chip : Nat
  dpart : Nat
  hdr : FrameHdr
  payload : List Byte
deriving DecidableEq, Repr

/-- The network: tokens by target × 8 + VC, requests that timed out (stop and tag), Col Link ports, puts that wait for a remote frame
token, puts that found no route (R438), and the mesh. -/
structure NetSt where
  tokens : Tbl TokSt
  timedOut : List (Nat × Nat)
  links : Tbl LinkSt
  remPuts : List RemPut
  remFail : List RemPut
  mesh : MeshSt
deriving DecidableEq, Repr

/-! ### Power and thermal control (chapter 18) -/

/-- Power management of a partition: the state being entered, whether a wake event came during the entry, the step whose setpoint is
commanded at the regulator, the step of the last completed setpoint with its tick, and its PCLK cycles so far in units of
`pclkUnit` (R350, R352, R417; Table 6-3). -/
structure PartPwr where
  entering : Option Nat
  wakeAfter : Bool
  avsCmd : Option Nat
  avsDone : Option (Nat × Nat)
  pclk : Nat
deriving DecidableEq, Repr

/-- The power manager: partitions, die sensor readings by pair × 4 + sensor, functions in D3hot, whether D3hot still closes the
Admission Port, and whether main power is on (R247, R358, R361). -/
structure PwrSt where
  parts : Tbl PartPwr
  die : Tbl Byte
  d3 : List Nat
  portHold : Bool
  powered : Bool
deriving DecidableEq, Repr


/-! ### Headframe, debug unlock and pins (chapters 19 and 21) -/

/-- The fuses (R374, R385): per slot the hash of a key, and bits programmed and revoked; SVN_MIN; the device serial.
(DESIGN CHOICE: assumption 5.) -/
structure Fuses where
  imgKey : Tbl (List Byte)
  imgProg : BitVec 4
  imgRevoked : BitVec 4
  dbgKey : Tbl (List Byte)
  dbgProg : BitVec 2
  dbgRevoked : BitVec 2
  svnMin : Nat
  serial : List Byte
deriving DecidableEq, Repr

/-- Progress of boot step B3, which runs alongside B2 (R365). -/
inductive B3St where
  | idle | run | done
deriving DecidableEq, Repr

/-- A manifest entry (Table 19-8) with the engine that fetches it and whether its fetch has ended well. -/
structure ManEnt where
  kind : Nat
  sec : Nat
  src : Nat
  dst : Nat
  len : Nat
  hash : List Byte
  eng : Option Nat
  fin : Bool
deriving DecidableEq, Repr

/-- How the device drives the flash bus (R369, R370, Table 21-5). -/
inductive XspiOut where
  | reset | reading | released | heldHigh
deriving DecidableEq, Repr

/-- Headframe's boot: whether PERST_N is asserted, the running step, the copy being read, its header, section table, public key,
signature and verified sections, B3, the part of B6 that runs, the next register-write entry, the accepted image, the manifest,
the start of B8, the PCIe link, and a takeover of the flash bus. -/
structure BootSt where
  held : Bool
  step : Nat
  copy : Nat
  hdr : List Byte
  table : List Byte
  sig : List Byte
  got : List Nat
  data : Tbl (List Byte)
  b2done : Bool
  b3 : B3St
  linked : Bool
  sub : Nat
  rw : Nat
  accepted : Bool
  man : List ManEnt
  staged : Bool
  t8 : Nat
  xspi : XspiOut
deriving DecidableEq, Repr

/-- What SEC_DBG_STS.BUSY shows in progress: a challenge, or a verification with its result (R385). -/
inductive DbgOp where
  | challenge
  | verify (pass : Option Nat)
deriving DecidableEq, Repr

/-- Debug unlock: the operation in progress, whether the challenge is unspent, and SEC_DBG_RESP as written. -/
structure DbgSt where
  op : Option DbgOp
  live : Bool
  resp : Tbl (BitVec 32)
deriving DecidableEq, Repr

/-- Pins: levels the board drives on GPIO[15:0], the levels their synchronisers last saw, the pins in a switch's high-impedance
cycles, the strap sampled at PERST_N release, and the I3C dynamic address (R422, R425, R426).
(DESIGN CHOICE: assumption 5.) -/
structure PinSt where
  level : BitVec 16
  seen : BitVec 16
  switching : List Nat
  strap : BitVec 3
  i3cDyn : Option (BitVec 7)
deriving DecidableEq, Repr

/-! ### The machine -/

/-- Something the device sends out of the modelled block: messages, answers, put traffic.
(DESIGN CHOICE: assumption 22.) -/
inductive OutMsg where
  | msix (fn : Nat) (vec : Nat) (addr : BitVec 64) (data : BitVec 32)
  | putAck (chip : Nat) (part : Nat) (slot : BitVec 12) (kind : BitVec 8)
  | putNack (chip : Nat) (part : Nat) (slot : BitVec 12) (kind : BitVec 8)
  | put (src : Nat) (dstChip dstPart : Nat) (cid : Nat) (hdr : FrameHdr) (payload : List Byte) (trailer : Option Nat)
  | completion (c : Completion)
  | drained (stack group : Nat)
  | trigPulse (k : Nat)
  | trv (hdr : BitVec 64) (data : List Byte)
  | flit (port : Nat) (hdr : BitVec 32) (data : List Byte) (crc : BitVec 32)
  | linkAck (port seq : Nat)
  | linkNak (port seq : Nat)
  | credit (port cls : Nat) (sub : Bool)
  | tokenAsk (chip part : Nat)
  | frameToken (chip part dst : Nat)
  | linkDenied (chip : Nat) (thdr : BitVec 64)
  | tokenGrant (target vc stop : Nat)
  | aerUnsupported (fn : Nat)
deriving DecidableEq, Repr

/-- What EARLY sets of the endpoint (chapter 19). -/
structure EarlySt where
  applied : Bool
  numVfs : Nat
  bar2Log2 : Nat
  vfBar0Log2 : Nat
  vfBar2Log2 : Nat
  msixPf : Nat
  msixVf : Nat
  subsysVendor : BitVec 16
  subsysId : BitVec 16
  maxSpeed : Nat
  maxWidth : Nat
deriving DecidableEq, Repr

/-- The state of the device, with the commands that wait, what it has sent and the counter of free values (INVENTORY.md, State). -/
structure State where
  product : Product
  pending : List Instr
  regs : Tbl (BitVec 32)
  active : Tbl (BitVec 32)
  masters : Tbl MasterSt
  adm : AdmSt
  slots : Tbl SlotRec
  egr : Tbl EgrRec
  tal : TalSt
  beat : BeatSt
  plats : Tbl PlatSt
  fo : Tbl FoSt
  mem : MemSt
  claims : Tbl (BitVec 32)
  l2 : Tbl L2St
  tlb : Tbl (List TlbEnt)
  walks : Tbl (List WalkEnt)
  mmu : MmuSt
  clus : Tbl Cluster
  adit : Tbl AditSt
  asy : Tbl AsySt
  net : NetSt
  pwr : PwrSt
  evt : EvtSt
  msix : Tbl MsixSt
  dma : Tbl DmaSt
  early : EarlySt
  hostMem : Mem
  hostErr : List Nat
  win : RegWin
  boot : BootSt
  fuses : Fuses
  dbg : DbgSt
  pins : PinSt
  ucieLost : Bool
  out : List OutMsg
  thermtrip : Bool
  freeCtr : Nat
deriving DecidableEq, Repr

/-- Everything the machine holds while PERST_N is asserted for the first time, before its release begins boot step B1: every register at
its Reset value (R446; an unlisted word of `regs` reads so), nothing in memory, no power state, slot, frame or table. The product is
a UB160-W of stepping A0 with no fuse programmed (assumption 5). (DESIGN CHOICE: assumption 2.)
(DESIGN CHOICE: assumption 5.) -/
def State.reset : State :=
  { product := ⟨false, false, 0x4130⟩
    pending := []
    regs := []
    active := []
    masters := []
    adm := ⟨none, none, none, false, 0, false, none, [], [], false, 0, false⟩
    slots := []
    egr := []
    tal := ⟨[], [], [], [], [], 0, 0, 0⟩
    beat :=
      { tick := 0, ts := 0, slew := 0, slewPhase := 0, locked1st := false, idx := 0, bk := 0, bkTs := 0, prevDl := 0, nom := 0,
        placed := 0, clamped := false, hit := false, sync := .off, late := none, lastEdge := none, winEdge := none, missRun := 0,
        reacq := false, loadTs := false, loadCount := false, chain := none, lockRun := 0, outUntil := 0, goodWin := 0,
        depth := [], cycle := none, oldLines := [] }
    plats := []
    fo := []
    mem := ⟨[], [], [], [], [], 0, [], 0, [], []⟩
    claims := []
    l2 := []
    tlb := []
    walks := []
    mmu := ⟨[], [], false, [], []⟩
    clus := []
    adit := []
    asy := []
    net := ⟨[], [], [], [], [], .empty⟩
    pwr := ⟨[], [], [], false, true⟩
    evt := ⟨[], false, false⟩
    msix := []
    dma := []
    early := ⟨false, 0, 0, 0, 0, 0, 0, 0, 0, 0, 0⟩
    hostMem := []
    hostErr := []
    win := ⟨0, []⟩
    boot := ⟨true, 0, 0, [], [], [], [], [], false, .idle, false, 0, 0, false, [], false, 0, .reset⟩
    fuses := ⟨[], 0, 0, [], 0, 0, 0, []⟩
    dbg := ⟨none, false, []⟩
    pins := ⟨0, 0, [], 0, none⟩
    ucieLost := false
    out := []
    thermtrip := false
    freeCtr := 0 }

/-- Reasons a step stops with a fault: the specification gives this block none (every command has an effect). -/
inductive Fault where
  /-- Raised by no meaning of this model; safe. -/
  | none
deriving DecidableEq, Repr

/-- Reasons a command is refused. -/
inductive Refusal where
  /-- Raised by an arm of Dispatch.lean whose command has no meaning yet; safe. -/
  | notModelled (mnemonic : String)
deriving DecidableEq, Repr

end Sys2Proof.Machine
end

