-- ==== Sys2Proof/Machine/Regs.lean ====
section
/-!
DEFINITION. Machine/Regs.lean: the register store: which registers exist at an offset, their reset words, and reads and writes of
single fields by hardware (R12, R13, R394, R446).
-/
namespace Sys2Proof.Machine

/-! ### Lookup in the register block map (R13) -/

/-- The rows of the sub-block a partition-window offset lies in, with the sub-block's offset in the window. -/
def partRows (o : Nat) : List RegRow × Nat :=
  if o < 0x4000 then (rowsPctl, 0)
  else if o < 0x8000 then (rowsL2, 0x4000)
  else if o < 0xC000 then (rowsWcb, 0x8000)
  else if o < 0x10000 then (rowsStk, 0xC000)
  else if o < 0x14000 then (rowsAdit, 0x10000)
  else if o < 0x18000 then (rowsAsy, 0x14000)
  else if o < 0x1C000 then (rowsPlat, 0x18000)
  else if o < 0x20000 then ([], 0x1C000)
  else if o < 0x34000 then (rowsClu, 0x20000 + (o - 0x20000) / 0x1000 * 0x1000)
  else ([], 0x34000)

/-- The rows of the block an offset of register space lies in, with the block's base. -/
def blockRows (off : Nat) : List RegRow × Nat :=
  match off / 0x10000 with
  | 0 => (rowsHdf, 0)
  | 1 => (rowsClk, 0x10000)
  | 2 => (rowsBeat, 0x20000)
  | 3 => (rowsPwr, 0x30000)
  | 4 => (rowsAdm, 0x40000)
  | 5 => (rowsTal, 0x50000)
  | 6 => (rowsEvt, 0x60000)
  | 7 => (rowsPin, 0x70000)
  | 8 => (rowsMmu, 0x80000)
  | 9 => (rowsClm, 0x90000)
  | 10 => (rowsTrv, 0xA0000)
  | 11 => (rowsChk, 0xB0000)
  | 12 => (rowsLnk, 0xC0000)
  | 13 => (rowsFar, 0xD0000)
  | 14 => (rowsSec, 0xE0000)
  | 15 => (rowsDbg, 0xF0000)
  | _ =>
    if off < 0x900000 then
      let b := off / 0x100000 * 0x100000
      let r := partRows (off - b)
      (r.1, b + r.2)
    else ([], off)

/-- A register found in the map: its row and the offset of its (low) word. -/
structure RegAt where
  row : RegRow
  addr : Nat
deriving DecidableEq, Repr

/-- The register of a row list that covers local offset `o`. -/
def findRow (base o : Nat) : List RegRow → Option RegAt
  | [] => none
  | r :: t =>
    let st := if r.pair then max r.stride 8 else r.stride
    let k := (o - r.base) / st
    let a := r.base + k * st
    if r.base ≤ o ∧ k < r.count ∧ o < a + (if r.pair then 8 else 4) then some ⟨r, base + a⟩ else findRow base o t

/-- The register that defines byte offset `off`, if any; an offset of none is reserved (R394). -/
def regAt (off : Nat) : Option RegAt :=
  let r := blockRows off
  findRow r.2 (off - r.2) r.1

/-- The blocks whose BEAT-class fields have a companion register 0x800 above (R45, R62, R87, R110, R253, R317, R362). -/
def hasCompanion (off : Nat) : Bool :=
  match off / 0x10000 with
  | 2 => true
  | 3 => true
  | 4 => true
  | 5 => true
  | 12 => true
  | b => decide (16 ≤ b) && decide (off < 0x900000) &&
      (decide (off % 0x100000 < 0x4000) || (decide (0xC000 ≤ off % 0x100000) && decide (off % 0x100000 < 0x10000)))

/-- The bits of a field in its register. -/
def FieldRow.mask (f : FieldRow) : Nat := (2 ^ f.w - 1) * 2 ^ f.lo

/-- The bits of the BEAT-class fields of a row. -/
def RegRow.beatMask (r : RegRow) : Nat :=
  r.fields.foldl (fun m f => if f.cls = .beat then m ||| f.mask else m) 0

/-- The register whose active values the companion at `off` shows. -/
def companionAt (off : Nat) : Option RegAt :=
  if 0x800 ≤ off ∧ hasCompanion (off - 0x800) = true ∧ (regAt off).isNone = true then
    match regAt (off - 0x800) with
    | some r => if r.row.beatMask = 0 then none else some r
    | none => none
  else none

/-- The reset value of a register row. -/
def RegRow.resetVal (r : RegRow) : Nat :=
  r.fields.foldl (fun m f => m + f.reset % 2 ^ f.w * 2 ^ f.lo) 0

/-- The word at `off` after PERST_N is released with no image applied (R446). -/
def resetWord (off : Nat) : BitVec 32 :=
  match regAt off with
  | some r => BitVec.ofNat 32 (r.row.resetVal / 2 ^ (8 * (off - r.addr)))
  | none => 0

/-! ### Words and fields -/

/-- The stored word at a register offset. -/
def State.word (s : State) (a : Nat) : BitVec 32 := Tbl.get resetWord s.regs a

/-- Stores a word. -/
def State.setWord (s : State) (a : Nat) (v : BitVec 32) : State :=
  { s with regs := Tbl.set resetWord s.regs a v }

/-- The two words at `a` as one 64-bit number. -/
def State.dword (s : State) (a : Nat) : Nat := (s.word a).toNat + (s.word (a + 4)).toNat * 2 ^ 32

/-- A field within a number. -/
def bitsOf (x lo w : Nat) : Nat := x / 2 ^ lo % 2 ^ w

/-- A number with one field replaced. -/
def putBits (x lo w v : Nat) : Nat := x % 2 ^ lo + v % 2 ^ w * 2 ^ lo + x / 2 ^ (lo + w) * 2 ^ (lo + w)

/-- Reads a field; one that reaches bit 32 or above is a field of a 64-bit pair. -/
def State.fld (s : State) (f : Fld) : Nat :=
  if f.lo + f.w ≤ 32 then bitsOf (s.word f.addr).toNat f.lo f.w else bitsOf (s.dword f.addr) f.lo f.w

/-- Hardware writes a field. -/
def State.setFld (s : State) (f : Fld) (v : Nat) : State :=
  if f.lo + f.w ≤ 32 then s.setWord f.addr (BitVec.ofNat 32 (putBits (s.word f.addr).toNat f.lo f.w v))
  else
    let x := putBits (s.dword f.addr) f.lo f.w v
    (s.setWord f.addr (BitVec.ofNat 32 x)).setWord (f.addr + 4) (BitVec.ofNat 32 (x / 2 ^ 32))

/-- A one-bit field as a truth value. -/
def State.flag (s : State) (f : Fld) : Bool := s.fld f == 1

/-- Hardware writes a one-bit field. -/
def State.setFlag (s : State) (f : Fld) (b : Bool) : State := s.setFld f (if b then 1 else 0)

/-- Bit `i` of a field of several bits. -/
def State.fbit (s : State) (f : Fld) (i : Nat) : Bool := (s.fld f).testBit i

/-- Hardware writes bit `i` of a field of several bits. -/
def State.setFbit (s : State) (f : Fld) (i : Nat) (b : Bool) : State :=
  s.setFld f (putBits (s.fld f) i 1 (if b then 1 else 0))

/-- The active value of a BEAT-class field, taken at the last boundary (R12). -/
def State.act (s : State) (f : Fld) : Nat :=
  if f.lo + f.w ≤ 32 then bitsOf (Tbl.get resetWord s.active f.addr).toNat f.lo f.w
  else bitsOf ((Tbl.get resetWord s.active f.addr).toNat + (Tbl.get resetWord s.active (f.addr + 4)).toNat * 2 ^ 32) f.lo f.w

/-- Whether the device is held in reset: PERST_N asserted, THERMTRIP_N latched or no power (R361, R367).
(DEDUCED: assumption 94.) -/
def State.inReset (s : State) : Bool := s.boot.held || s.thermtrip || !s.pwr.powered

/-- Whether clocks are stopped: THERMTRIP_N latched or no power (R361). -/
def State.tripped (s : State) : Bool := s.thermtrip || !s.pwr.powered

/-- A counter that wraps (Table 20-6). -/
def State.countUp (s : State) (f : Fld) : State := s.setFld f (s.fld f + 1)

/-- A counter that wraps, advanced by `n`. -/
def State.countBy (s : State) (f : Fld) (n : Nat) : State := s.setFld f (s.fld f + n)

/-- A counter that saturates (Table 20-6). -/
def State.countSat (s : State) (f : Fld) : State :=
  s.setFld f (if s.fld f = 2 ^ f.w - 1 then s.fld f else s.fld f + 1)

/-- A fresh free value (assumption 1). (DESIGN CHOICE: assumption 1.) -/
def State.fresh (s : State) : Nat × State := (Config.freeNat s.freeCtr, { s with freeCtr := s.freeCtr + 1 })

/-- A fresh free word (assumption 1). (DESIGN CHOICE: assumption 1.) -/
def State.freshBits (s : State) : BitVec 64 × State :=
  (Config.freeBits s.freeCtr, { s with freeCtr := s.freeCtr + 1 })

end Sys2Proof.Machine
end

