-- ==== Sys2Proof/Machine/Events.lean ====
section
/-!
DEFINITION. Machine/Events.lean: MSI-X messages (R401, R402), watermarks (R58, R59), the event log (R404 to R407), the event
codes of Table 22-6 and ALERT_N (R440).
-/
namespace Sys2Proof.Machine

/-- Sends a message out of the block. (DESIGN CHOICE: assumption 22.) -/
def State.send (s : State) (m : OutMsg) : State := { s with out := s.out ++ [m] }

/-! ### MSI-X (R401, R402) -/

/-- What an MSI-X table word reads before it is written: entries are masked (assumption 13).
(PRESUMED: assumption 13.) -/
def msixWordReset (k : Nat) : BitVec 32 := if k % 4 = 3 then 1 else 0

/-- The MSI-X state of a function before it is written. (PRESUMED: assumption 13.) -/
def msixReset : MsixSt := ⟨[], [], false, false⟩

/-- MSI-X state of function `fn`: 0 physical, 1 + v virtual function v. -/
def State.msixOf (s : State) (fn : Nat) : MsixSt := Tbl.get (fun _ => msixReset) s.msix fn

/-- Replaces it. -/
def State.setMsix (s : State) (fn : Nat) (m : MsixSt) : State := { s with msix := Tbl.set (fun _ => msixReset) s.msix fn m }

/-- Whether vector `v` is masked by its entry or by the function. -/
def MsixSt.masked (m : MsixSt) (v : Nat) : Bool := m.fmask || (Tbl.get msixWordReset m.table (4 * v + 3)).getLsbD 0

/-- The message of vector `v`. -/
def MsixSt.msg (m : MsixSt) (fn v : Nat) : OutMsg :=
  .msix fn v ((Tbl.get msixWordReset m.table (4 * v + 1)) ++ (Tbl.get msixWordReset m.table (4 * v)))
    (Tbl.get msixWordReset m.table (4 * v + 2))

/-- Raises vector `v` of function `fn`, which has `n` vectors: sent, or pended while masked or in D3hot (R358, R401); lost with UCIe
module 0. (DEDUCED: assumption 117.) -/
def State.raiseFn (s : State) (fn n v : Nat) : State :=
  let m := s.msixOf fn
  if n ≤ v ∨ m.enabled = false ∨ s.ucieLost = true then s
  else if m.masked v || s.pwr.d3.contains fn then
    (if m.pend.contains v then s else s.setMsix fn { m with pend := m.pend ++ [v] })
  else s.send (m.msg fn v)

/-- Raises a vector of the physical function (Table 20-4). -/
def State.raise (s : State) (v : Nat) : State := s.raiseFn 0 s.early.msixPf v

/-- The virtual function bound to partition `p`, if any (R104). -/
def State.boundVf (s : State) (p : Nat) : Option Nat :=
  if s.flag (PCTL_TENANT_BIND_EN p) then some (s.fld (PCTL_TENANT_VF p)) else none

/-- Raises a source of partition `p`: on its virtual function's vector `vfVec` while that function has MSI-X enabled, else on the
physical function's vector `pfVec` (R402). -/
def State.raisePart (s : State) (p pfVec vfVec : Nat) : State :=
  match s.boundVf p with
  | some v => if (s.msixOf (1 + v)).enabled then s.raiseFn (1 + v) s.early.msixVf vfVec else s.raise pfVec
  | none => s.raise pfVec

/-! ### Bytes -/

/-- A number as `n` little-endian bytes (R14). -/
def bytesLE : Nat → Nat → List Byte
  | 0, _ => []
  | n + 1, x => BitVec.ofNat 8 x :: bytesLE n (x / 256)

/-- Little-endian bytes as a number (R14). -/
def natLE : List Byte → Nat
  | [] => 0
  | b :: t => b.toNat + 256 * natLE t

/-- The byte of a memory. (DESIGN CHOICE: assumption 2.) -/
def Mem.byte (m : Mem) (a : Nat) : Byte := Tbl.get (fun _ => 0) m a

/-- Stores one byte. -/
def Mem.put (m : Mem) (a : Nat) (b : Byte) : Mem := Tbl.set (fun _ => 0) m a b

/-- Stores bytes at rising addresses. -/
def Mem.write (m : Mem) : Nat → List Byte → Mem
  | _, [] => m
  | a, b :: t => Mem.write (Mem.put m a b) (a + 1) t

/-- Reads `n` bytes at rising addresses. -/
def Mem.read (m : Mem) : Nat → Nat → List Byte
  | _, 0 => []
  | a, n + 1 => Mem.byte m a :: Mem.read m (a + 1) n

/-- Whether host memory answers an access to these bytes with a completion error: an environment fact, by 4 KiB page; every access
fails once UCIe module 0 is lost (Table 21-11). (DEDUCED: assumption 117.) -/
def State.hostFails (s : State) (a n : Nat) : Bool :=
  s.ucieLost || s.hostErr.any (fun p => decide (a / 4096 ≤ p) && decide (p ≤ (a + n - 1) / 4096))

/-! ### The event log (R404 to R407, R443) -/

/-- An event code with its severity (Table 22-6). -/
structure EvKind where
  code : Nat
  sev : Nat
deriving DecidableEq, Repr

/-- Event SEAL_VIOLATION (Table 22-6). -/
def ev_SEAL_VIOLATION : EvKind := ⟨0x0001, 0⟩
/-- Event BUSY_WRITE (Table 22-6). -/
def ev_BUSY_WRITE : EvKind := ⟨0x0002, 0⟩
/-- Event ACCESS_WIDTH (Table 22-6). -/
def ev_ACCESS_WIDTH : EvKind := ⟨0x0003, 0⟩
/-- Event ACCESS_ALIGN (Table 22-6). -/
def ev_ACCESS_ALIGN : EvKind := ⟨0x0004, 0⟩
/-- Event PAIR_ABANDONED (Table 22-6). -/
def ev_PAIR_ABANDONED : EvKind := ⟨0x0005, 0⟩
/-- Event OWNER_DENIED (Table 22-6). -/
def ev_OWNER_DENIED : EvKind := ⟨0x0006, 0⟩
/-- Event MASTER_DENIED (Table 22-6). -/
def ev_MASTER_DENIED : EvKind := ⟨0x0007, 0⟩
/-- Event ACK_REJECTED (Table 22-6). -/
def ev_ACK_REJECTED : EvKind := ⟨0x0008, 0⟩
/-- Event IMAGE_FAULT (Table 22-6). -/
def ev_IMAGE_FAULT : EvKind := ⟨0x0101, 2⟩
/-- Event BOOT_FAILED (Table 22-6). -/
def ev_BOOT_FAILED : EvKind := ⟨0x0102, 3⟩
/-- Event RUN (Table 22-6). -/
def ev_RUN : EvKind := ⟨0x0103, 0⟩
/-- Event DEBUG_UNLOCK (Table 22-6). -/
def ev_DEBUG_UNLOCK : EvKind := ⟨0x0104, 0⟩
/-- Event DEBUG_FAIL (Table 22-6). -/
def ev_DEBUG_FAIL : EvKind := ⟨0x0105, 0⟩
/-- Event DEBUG_BUSY (Table 22-6). -/
def ev_DEBUG_BUSY : EvKind := ⟨0x0106, 0⟩
/-- Event LOSS_OF_REF (Table 22-6). -/
def ev_LOSS_OF_REF : EvKind := ⟨0x0201, 2⟩
/-- Event REF_RETURNED (Table 22-6). -/
def ev_REF_RETURNED : EvKind := ⟨0x0202, 0⟩
/-- Event DROOP_LIMIT (Table 22-6). -/
def ev_DROOP_LIMIT : EvKind := ⟨0x0203, 3⟩
/-- Event SYNC_LOST (Table 22-6). -/
def ev_SYNC_LOST : EvKind := ⟨0x0204, 2⟩
/-- Event SLOT_LATE (Table 22-6). -/
def ev_SLOT_LATE : EvKind := ⟨0x0205, 0⟩
/-- Event AVS_FAULT (Table 22-6). -/
def ev_AVS_FAULT : EvKind := ⟨0x0206, 2⟩
/-- Event PARITY_ERR (Table 22-6). -/
def ev_PARITY_ERR : EvKind := ⟨0x0301, 0⟩
/-- Event COMMIT_ERR (Table 22-6). -/
def ev_COMMIT_ERR : EvKind := ⟨0x0302, 0⟩
/-- Event BODY_EXPIRED (Table 22-6). -/
def ev_BODY_EXPIRED : EvKind := ⟨0x0303, 2⟩
/-- Event TABLE_BAD (Table 22-6). -/
def ev_TABLE_BAD : EvKind := ⟨0x0304, 2⟩
/-- Event TALLY_SAT (Table 22-6). -/
def ev_TALLY_SAT : EvKind := ⟨0x0305, 0⟩
/-- Event LEVEL_UP (Table 22-6). -/
def ev_LEVEL_UP : EvKind := ⟨0x0401, 2⟩
/-- Event SENSOR_FAIL (Table 22-6). -/
def ev_SENSOR_FAIL : EvKind := ⟨0x0402, 2⟩
/-- Event STK_CE (Table 22-6). -/
def ev_STK_CE : EvKind := ⟨0x0501, 1⟩
/-- Event STK_UE (Table 22-6). -/
def ev_STK_UE : EvKind := ⟨0x0502, 2⟩
/-- Event POISON_WRITTEN (Table 22-6). -/
def ev_POISON_WRITTEN : EvKind := ⟨0x0503, 2⟩
/-- Event FAR_CE (Table 22-6). -/
def ev_FAR_CE : EvKind := ⟨0x0504, 1⟩
/-- Event FAR_UE (Table 22-6). -/
def ev_FAR_UE : EvKind := ⟨0x0505, 2⟩
/-- Event CXL_DOWN (Table 22-6). -/
def ev_CXL_DOWN : EvKind := ⟨0x0506, 2⟩
/-- Event ROLE_OFF_ACCESS (Table 22-6). -/
def ev_ROLE_OFF_ACCESS : EvKind := ⟨0x0507, 2⟩
/-- Event CLAIM_DENIED (Table 22-6). -/
def ev_CLAIM_DENIED : EvKind := ⟨0x0601, 2⟩
/-- Event BAD_INDEX (Table 22-6). -/
def ev_BAD_INDEX : EvKind := ⟨0x0602, 2⟩
/-- Event CMD_DROP (Table 22-6). -/
def ev_CMD_DROP : EvKind := ⟨0x0603, 2⟩
/-- Event CMD_BAD (Table 22-6). -/
def ev_CMD_BAD : EvKind := ⟨0x0604, 2⟩
/-- Event WALK_ERR (Table 22-6). -/
def ev_WALK_ERR : EvKind := ⟨0x0605, 2⟩
/-- Event INWIN_ERR (Table 22-6). -/
def ev_INWIN_ERR : EvKind := ⟨0x0606, 2⟩
/-- Event NO_ROUTE (Table 22-6). -/
def ev_NO_ROUTE : EvKind := ⟨0x0607, 2⟩
/-- Event TRV_CE (Table 22-6). -/
def ev_TRV_CE : EvKind := ⟨0x0701, 1⟩
/-- Event TRV_UE (Table 22-6). -/
def ev_TRV_UE : EvKind := ⟨0x0702, 2⟩
/-- Event TRV_DROP (Table 22-6). -/
def ev_TRV_DROP : EvKind := ⟨0x0703, 2⟩
/-- Event RESP_DISCARDED (Table 22-6). -/
def ev_RESP_DISCARDED : EvKind := ⟨0x0704, 2⟩
/-- Event REQ_TIMEOUT (Table 22-6). -/
def ev_REQ_TIMEOUT : EvKind := ⟨0x0705, 2⟩
/-- Event LNK_RETRAIN (Table 22-6). -/
def ev_LNK_RETRAIN : EvKind := ⟨0x0801, 1⟩
/-- Event LNK_DOWN (Table 22-6). -/
def ev_LNK_DOWN : EvKind := ⟨0x0802, 2⟩
/-- Event CHK_MISMATCH (Table 22-6). -/
def ev_CHK_MISMATCH : EvKind := ⟨0x0803, 2⟩
/-- Event CHK_CONFLICT (Table 22-6). -/
def ev_CHK_CONFLICT : EvKind := ⟨0x0804, 0⟩
/-- Event CHK_UNCHECKED (Table 22-6). -/
def ev_CHK_UNCHECKED : EvKind := ⟨0x0805, 0⟩
/-- Event PLAT_SRC (Table 22-6). -/
def ev_PLAT_SRC : EvKind := ⟨0x0901, 2⟩
/-- Event PLAT_HDR (Table 22-6). -/
def ev_PLAT_HDR : EvKind := ⟨0x0902, 2⟩
/-- Event PLAT_CHECK (Table 22-6). -/
def ev_PLAT_CHECK : EvKind := ⟨0x0903, 2⟩
/-- Event PLAT_DUP (Table 22-6). -/
def ev_PLAT_DUP : EvKind := ⟨0x0904, 0⟩
/-- Event SLOT_ABANDONED (Table 22-6). -/
def ev_SLOT_ABANDONED : EvKind := ⟨0x0905, 2⟩
/-- Event FO_IGNORED (Table 22-6). -/
def ev_FO_IGNORED : EvKind := ⟨0x0906, 0⟩
/-- Event FO_START (Table 22-6). -/
def ev_FO_START : EvKind := ⟨0x0907, 2⟩
/-- Event FO_DONE (Table 22-6). -/
def ev_FO_DONE : EvKind := ⟨0x0908, 0⟩
/-- Event COMPUTE_FATAL (Table 22-6). -/
def ev_COMPUTE_FATAL : EvKind := ⟨0x0909, 3⟩
/-- Event STALE_RISK (Table 22-6). -/
def ev_STALE_RISK : EvKind := ⟨0x090A, 0⟩
/-- Event WAYOFF_REJ (Table 22-6). -/
def ev_WAYOFF_REJ : EvKind := ⟨0x090B, 0⟩
/-- Event PIPE_DRAINED (Table 22-6). -/
def ev_PIPE_DRAINED : EvKind := ⟨0x090C, 2⟩
/-- Event ADIT_ENQ_DROP (Table 22-6). -/
def ev_ADIT_ENQ_DROP : EvKind := ⟨0x0A01, 2⟩
/-- Event ADIT_DESC_FAULT (Table 22-6). -/
def ev_ADIT_DESC_FAULT : EvKind := ⟨0x0A02, 2⟩
/-- Event ADIT_DONE_LOST (Table 22-6). -/
def ev_ADIT_DONE_LOST : EvKind := ⟨0x0A03, 2⟩
/-- Event ASY_ENQ_DROP (Table 22-6). -/
def ev_ASY_ENQ_DROP : EvKind := ⟨0x0A04, 2⟩
/-- Event ASY_Q_FAULT (Table 22-6). -/
def ev_ASY_Q_FAULT : EvKind := ⟨0x0A05, 2⟩
/-- Event ASY_DONE_LOST (Table 22-6). -/
def ev_ASY_DONE_LOST : EvKind := ⟨0x0A06, 2⟩
/-- Event DMA_FAIL (Table 22-6). -/
def ev_DMA_FAIL : EvKind := ⟨0x0A07, 2⟩

/-- The 32 bytes of a ring entry (Table 20-5). -/
def Event.bytes (e : Event) (seq : Nat) : List Byte :=
  bytesLE 4 seq ++ bytesLE 2 e.code ++ bytesLE 1 e.block ++ bytesLE 1 e.flags ++ bytesLE 8 e.time.toNat ++
    bytesLE 8 e.info0.toNat ++ bytesLE 8 e.info1.toNat

/-- Writes the entry at the ring's head: R404, R405, and R407 for a failed write. -/
def State.ringWrite (s : State) (e : Event) : State :=
  let head := s.fld EVT_LOG_HEAD_SEQ
  let a := s.fld EVT_LOG_BASE_ADDR * 4096 + 32 * (head % 4096)
  if s.hostFails a 32 then
    { s.setFlag EVT_STS_WRITE_ERR true with evt := { s.evt with stopped := true, held := e :: s.evt.held } }
  else
    let s1 := { s with hostMem := Mem.write s.hostMem a (e.bytes head) }
    let full := (head + 2 ^ 32 - s.fld EVT_LOG_ACK_SEQ) % 2 ^ 32 = 4096
    let s2 := if full then (s1.setFld EVT_LOG_ACK_SEQ (s.fld EVT_LOG_ACK_SEQ + 1)).countSat EVT_LOST_COUNT else s1
    let s3 := s2.setFld EVT_LOG_HEAD_SEQ (head + 1)
    if s3.evt.armed && s3.flag EVT_CTL_IRQ_EN then ({ s3 with evt := { s3.evt with armed := false } }).raise 0 else s3

/-- Adds an event to the on-die buffer; when 64 are held the oldest is lost (R407). -/
def State.holdEvent (s : State) (e : Event) : State :=
  if 64 ≤ s.evt.held.length then
    ({ s with evt := { s.evt with held := s.evt.held.drop 1 ++ [e] } }).countSat EVT_LOST_COUNT
  else { s with evt := { s.evt with held := s.evt.held ++ [e] } }

/-- Logs an event: to the ring, or to the buffer while EN = 0 or a failed entry waits (R404, R407). -/
def State.logEvent (s : State) (e : Event) : State :=
  if s.flag EVT_CTL_EN && !s.evt.stopped then s.ringWrite e else s.holdEvent e

/-- Logs an event of a block with its INFO words. -/
def State.log (s : State) (k : EvKind) (block : Nat) (info0 info1 : Nat) : State :=
  s.logEvent ⟨k.code, block, k.sev, s.beat.ts, BitVec.ofNat 64 info0, BitVec.ofNat 64 info1⟩

/-- Logs an event whose INFO bytes 8 to 15 hold the listed details (Table 22-6, assumption 14).
(DESIGN CHOICE: assumption 14.) -/
def State.logD (s : State) (k : EvKind) (block addr : Nat) (detail : List Nat) : State :=
  s.logEvent ⟨k.code, block, k.sev, s.beat.ts, BitVec.ofNat 64 addr, Config.infoPack k.code detail⟩

/-- The event BLOCK code of partition `p` (Table 0-8). -/
def blkPart (p : Nat) : Nat := 0x10 + p

/-- Writes held events to the ring in order until one fails (R407). -/
def State.flushHeld (s : State) : List Event → State
  | [] => s
  | e :: t =>
    let s1 := s.ringWrite e
    if s1.evt.stopped then { s1 with evt := { s1.evt with held := s1.evt.held ++ t } } else s1.flushHeld t

/-- A write of 1 to EVT_CTL.EN (R407): the buffer goes to the ring in order; going to 1 also arms vector 0 (R404). -/
def State.evtEnable (s : State) (was : Bool) : State :=
  let h := s.evt.held
  ({ s with evt := { held := [], stopped := false, armed := s.evt.armed || !was } }).flushHeld h

/-! ### Watermarks (R58, R59) -/

/-- The fields of one watermark. -/
structure WmFlds where
  irq : Fld
  hyst : Fld
  level : Fld
  count : Fld
  down : Fld
  up : Fld
  above : Fld
  vec : Nat
  part : Option (Nat × Nat)
deriving DecidableEq, Repr

/-- Sends the watermark's message (Table 20-4; a partition's source by R402). -/
def State.wmMessage (s : State) (w : WmFlds) : State :=
  match w.part with
  | some (p, vfVec) => s.raisePart p w.vec vfVec
  | none => s.raise w.vec

/-- An upward crossing (R58, R59). -/
def State.wmUp (s : State) (w : WmFlds) : State :=
  let s1 := ((s.setFlag w.above true).countSat w.count).setFlag w.up true
  if !s.flag w.up && s.flag w.irq then s1.wmMessage w else s1

/-- A downward crossing (R58). -/
def State.wmDown (s : State) (w : WmFlds) : State := (s.setFlag w.above false).setFlag w.down true

/-- One evaluation with quantity `q` (R58). -/
def State.wmEval (s : State) (w : WmFlds) (q : Nat) : State :=
  let lvl := s.fld w.level
  if !s.flag w.above && decide (lvl < q) then s.wmUp w
  else if s.flag w.above && decide (q ≤ lvl - s.fld w.hyst) then s.wmDown w
  else s

/-- The registers and vector of a watermark (R60, Table 3-3, Table 20-4). The guard has no LEVEL of the common layout. -/
def wmFlds : WmId → WmFlds
  | .adm => ⟨ADM_WM_CFG_IRQ_EN, ADM_WM_CFG_HYST, ADM_WM_CFG_LEVEL, ADM_WM_STS_COUNT, ADM_WM_STS_CROSSED_DOWN,
      ADM_WM_STS_CROSSED_UP, ADM_WM_STS_LEVEL_ABOVE, 9, none⟩
  | .evt => ⟨EVT_WM_CFG_IRQ_EN, EVT_WM_CFG_HYST, EVT_WM_CFG_LEVEL, EVT_WM_STS_COUNT, EVT_WM_STS_CROSSED_DOWN,
      EVT_WM_STS_CROSSED_UP, EVT_WM_STS_LEVEL_ABOVE, 0, none⟩
  | .plat p => ⟨PLAT_WM_CFG_IRQ_EN p, PLAT_WM_CFG_HYST p, PLAT_WM_CFG_LEVEL p, PLAT_WM_STS_COUNT p,
      PLAT_WM_STS_CROSSED_DOWN p, PLAT_WM_STS_CROSSED_UP p, PLAT_WM_STS_LEVEL_ABOVE p, 58 + p, some (p, 3)⟩
  | .wcb k g => ⟨WCB_WM_CFG_IRQ_EN k g, WCB_WM_CFG_HYST k g, WCB_WM_CFG_LEVEL k g, WCB_WM_STS_COUNT k g,
      WCB_WM_STS_CROSSED_DOWN k g, WCB_WM_STS_CROSSED_UP k g, WCB_WM_STS_LEVEL_ABOVE k g, 66 + 4 * k + g, some (k, 4 + g)⟩
  | .lnk p => ⟨LNK_WM_CFG_IRQ_EN p, LNK_WM_CFG_HYST p, LNK_WM_CFG_LEVEL p, LNK_WM_STS_COUNT p, LNK_WM_STS_CROSSED_DOWN p,
      LNK_WM_STS_CROSSED_UP p, LNK_WM_STS_LEVEL_ABOVE p, 18 + p, none⟩
  | .guard c => ⟨TAL_GUARD_IRQ_EN c, TAL_GUARD_HYST c, TAL_GUARD_THR c, TAL_GUARD_STS_COUNT c, TAL_GUARD_STS_CROSSED_DOWN c,
      TAL_GUARD_STS_CROSSED_UP c, TAL_GUARD_STS_LEVEL_ABOVE c, 10 + c, none⟩

/-! ### ALERT_N (R440) and PIN outputs derived from state -/

/-- ALERT_N is asserted while any of the listed causes holds (R440, R361). -/
def State.alertN (s : State) : Bool :=
  (s.flag CLK_REF_STS_LOSS_OF_REF && s.flag CLK_REF_CTL_ALERT_EN) ||
  (s.flag HDF_IMAGE_STS_FAILED && s.flag HDF_CTL_ALERT_EN) ||
  (s.flag PWR_STS_LEVEL_UP && s.flag PWR_CTL_ALERT_EN) ||
  (List.range 8).any (fun p => s.flag (PCTL_FAULT_ALERT_PEND p) && s.flag (PCTL_FAULT_ALERT_EN p)) ||
  s.thermtrip

end Sys2Proof.Machine
end

