-- ==== Sys2Proof/Machine/Net.lean ====
section
/-!
DEFINITION. Machine/Net.lean: what the other parts use of the network: serial-number order, the Traverse's counters, Col Link port
state and the existence of routes (R296, R303, R307, R445); and wake events (R352).
-/
namespace Sys2Proof.Machine

/-- A number compared with another in serial-number arithmetic over half the range: not after (R445). -/
def serialLe (w a b : Nat) : Bool := decide ((b + 2 ^ w - a % 2 ^ w) % 2 ^ w < 2 ^ (w - 1))

/-- BLOCK code of TRV (Table 0-8). -/
def blkTrv : Nat := 10
/-- BLOCK code of LNK. -/
def blkLnk : Nat := 12

/-- Replaces the network state. -/
def State.withNet (s : State) (n : NetSt) : State := { s with net := n }

/-! ### Stops and routes (R281 to R283) -/

/-- The stop of local stop `ls` of partition `n` (R282). -/
def stopOf (n ls : Nat) : Nat :=
  let x := 6 * (n % 2) + ls / 2 % 6
  let y := 4 * (n / 2) + ls / 12
  2 * (y * 12 + x) + ls % 2

/-- The router of a stop. -/
def routerOf (s : Nat) : Nat := s / 2

/-- The partition whose region holds a stop. -/
def stopPart (s : Nat) : Nat := routerOf s % 12 / 6 + 2 * (routerOf s / 12 / 4)

/-- The local number of a stop in its region. -/
def stopLocal (s : Nat) : Nat := 12 * (routerOf s / 12 % 4) + 2 * (routerOf s % 12 % 6) + s % 2

/-- What stands at a stop (Table 14-2). -/
inductive StopKind where
  | cluster (p c : Nat)
  | bank (p b : Nat)
  | controller (p g : Nat)
  | plat (p : Nat)
  | adit (p : Nat)
  | assay (p : Nat)
  | agent (p : Nat)
  | headframe
  | host
  | root
  | mmu
  | clm
  | chk
  | far
  | evt
  | ucie (m : Nat)
  | dma (d : Nat)
deriving DecidableEq, Repr

/-- The stop map (Table 14-2). -/
def stopKind (s : Nat) : StopKind :=
  let n := stopPart s
  let ls := stopLocal s
  if ls < 20 then .cluster n ls
  else if ls < 36 then .bank n (ls - 20)
  else if ls < 40 then .controller n (ls - 36)
  else if ls = 40 then .plat n
  else if ls = 41 then .adit n
  else if ls = 42 then .assay n
  else if ls = 43 then .agent n
  else match n, ls with
    | 0, 44 => .headframe
    | 0, 45 => .host
    | 0, 46 => .root
    | 0, _ => .mmu
    | 1, 44 => .clm
    | 1, 45 => .chk
    | 1, 46 => .far
    | 1, _ => .evt
    | 6, _ => .dma (ls - 44)
    | 7, _ => .dma (4 + (ls - 44))
    | _, _ => .ucie (n - 2)

/-- The stop of a SOURCE code of Table 13-16 in partition `p`, where no more is known of the sender: a partition's first cluster, Adit,
Assay or plat, the host controller, the UCIe module of chip links, Headframe.
(DESIGN CHOICE: assumption 93.) -/
def sourceStop (source p : Nat) : Nat :=
  match source with
  | 0 => stopOf p 0
  | 1 => stopOf p 41
  | 2 => stopOf p 42
  | 3 => stopOf p 40
  | 4 => stopOf 0 45
  | 5 => stopOf 2 44
  | 6 => stopOf 2 44
  | _ => stopOf 0 44

/-- Whole numbers from `a` toward `b`, both included. -/
def span (a b : Nat) : List Nat :=
  if a ≤ b then (List.range (b - a + 1)).map (fun i => a + i) else (List.range (a - b + 1)).map (fun i => a - i)

/-- The routers of a packet's way: along X, then along Y (R283). -/
def routeOf (src dst : Nat) : List Nat :=
  let x0 := routerOf src % 12
  let y0 := routerOf src / 12
  let x1 := routerOf dst % 12
  let y1 := routerOf dst / 12
  (span x0 x1).map (fun x => y0 * 12 + x) ++ ((span y0 y1).drop 1).map (fun y => y * 12 + x1)

/-- Router hops between two stops. -/
def hopsOf (src dst : Nat) : Nat := (routeOf src dst).length - 1

/-- The plane of a packet (R283); `a` is the line's address, 0 for a packet that names none, and does not count on VCs 4 and 5. -/
def planeOf (src dst vc a : Nat) : Nat :=
  let b := (src % 16) ^^^ (dst % 16)
  if vc = 4 ∨ vc = 5 then b else b ^^^ (a / 2 ^ 7 % 16)

/-! ### Col Link ports and routes -/

/-- A port with nothing held. -/
def linkReset : LinkSt := ⟨[], [], [], [], [], 0, 0, false, false, [], 0, false⟩

/-- Col Link port `p`. -/
def State.linkOf (s : State) (p : Nat) : LinkSt := Tbl.get (fun _ => linkReset) s.net.links p

/-- Replaces it. -/
def State.setLink (s : State) (p : Nat) (l : LinkSt) : State :=
  s.withNet { s.net with links := Tbl.set (fun _ => linkReset) s.net.links p l }

/-- Whether chip `c` has a route: its entry is valid and the port is not DOWN (R307). -/
def State.hasRoute (s : State) (c : Nat) : Bool :=
  decide (c < 63) && s.flag (LNK_ROUTE_V c) && !(s.linkOf (s.fld (LNK_ROUTE_PORT c))).down

/-- Counter `k` counts `n` more: a wrap sets PMU_OVF and may send a message (R296). -/
def State.pmuAdd (s : State) (k n : Nat) : State :=
  let v := s.fld (TRV_PMU_CNT_COUNT k) + n
  let s1 := s.setFld (TRV_PMU_CNT_COUNT k) v
  if 2 ^ 48 ≤ v then
    let s2 := s1.setFbit TRV_STS_PMU_OVF k true
    if s2.flag TRV_CTL_PMU_IRQ_EN then s2.raise 7 else s2
  else s1

/-- Counts `n` of an event at every enabled counter whose selector names it and whose stop and VC filters take it.
(DEDUCED: assumption 93.) -/
def State.pmuEvent (s : State) (ev n : Nat) (at_ : Nat → Bool) (vc : Option Nat) : State :=
  (List.range 8).foldl (fun t k =>
    if t.flag (TRV_PMU_SEL_EN k) && t.fld (TRV_PMU_SEL_EVENT k) == ev && at_ (t.fld (TRV_PMU_SEL_STOP k)) &&
        (match vc with | some v => !t.flag (TRV_PMU_SEL_VC_EN k) || t.fld (TRV_PMU_SEL_VC k) == v | none => true) then
      t.pmuAdd k n
    else t) s

/-- Counts the flits that a packet of `flits` flits on `vc` leaves at the two stops and on the mesh ports between them, for traffic that the
model performs at once (R284, R296). (DESIGN CHOICE: assumption 93.) -/
def State.trvUse (s : State) (src dst vc flits : Nat) : State :=
  if src = dst ∨ !(List.range 8).any (fun k => s.flag (TRV_PMU_SEL_EN k)) then s
  else
    let s1 := (s.pmuEvent 1 flits (fun st => st == src) (some vc)).pmuEvent 2 flits (fun st => st == dst) (some vc)
    (routeOf src dst).dropLast.foldl (fun t r => t.pmuEvent 6 flits (fun st => st / 2 == r) (some vc)) s1

/-! ### Wake events (R350, R352) -/

/-- A partition in A0 with nothing in progress. -/
def partPwrReset : PartPwr := ⟨none, false, none, none, 0⟩

/-- Power management of partition `p`. -/
def State.ppwr (s : State) (p : Nat) : PartPwr := Tbl.get (fun _ => partPwrReset) s.pwr.parts p

/-- Replaces it. -/
def State.setPpwr (s : State) (p : Nat) (x : PartPwr) : State :=
  { s with pwr := { s.pwr with parts := Tbl.set (fun _ => partPwrReset) s.pwr.parts p x } }

/-- The PCLK cycles of partition `p` so far, in units of which one cycle is `pclkUnit`. -/
def State.pclkOf (s : State) (p : Nat) : Nat := (s.ppwr p).pclk

/-- The unit of `State.pclkOf`: a common multiple of three and of the sixteenths of every stretched period. -/
def pclkUnit : Nat := 697680

/-- Whether the compute domain of partition `p` runs: A0 (R350). -/
def State.awake (s : State) (p : Nat) : Bool := s.fld (PWR_PSTATE_STATE p) == 0

/-- A wake event of partition `p` (R352): it starts the return to A0, after an entry in progress. An OFF partition stays (R353). -/
def State.wakeEvent (s : State) (p : Nat) : State :=
  if s.fld (PCTL_ROLE_ROLE_ACTIVE p) = 0 then s
  else
    let x := s.ppwr p
    if x.entering.isSome then s.setPpwr p { x with wakeAfter := true }
    else if s.awake p then s
    else s.setFlag (PWR_PSTATE_WAKING p) true

end Sys2Proof.Machine
end

