-- ==== Sys2Proof/Machine/Port.lean ====
section
/-!
DEFINITION. Machine/Port.lean: Col Link ports: link packets, flits, credits, replay, training (R299, R301 to R306).
-/
namespace Sys2Proof.Machine

/-- Splits a list into pieces of `k` items. -/
def chunks {α : Type} (k : Nat) : Nat → List α → List (List α)
  | 0, _ => []
  | n + 1, l => if l.isEmpty then [] else l.take k :: chunks k n (l.drop k)

/-! ### Link packets and flits as bytes (R301, R302) -/

/-- Bytes of a link packet of `n` data bytes on the wire (Table 15-3). -/
def wireLen (n : Nat) : Nat := 16 + (n + 7) / 8 * 8

/-- Bytes of a link packet on the wire. -/
def linkWire (k : LinkPkt) : Nat := wireLen k.data.length

/-- The bytes of a link packet (Table 15-3). -/
def linkBytes (k : LinkPkt) : List Byte :=
  let b := fun (x : Bool) (n : Nat) => if x then 2 ^ n else 0
  bytesLE 8 k.thdr.toNat ++
    bytesLE 8 (k.dstChip.toNat + k.srcChip.toNat * 2 ^ 8 + k.cls.toNat * 2 ^ 16 + b k.sub 18 + b k.trl 19 + k.pack.toNat * 2 ^ 20 +
      b k.pfmt 22 + b k.dim 23 + k.data.length * 2 ^ 24) ++
    k.data ++ List.replicate ((8 - k.data.length % 8) % 8) 0

/-- The link packet that bytes spell (Table 15-3). -/
def linkOfBytes (b : List Byte) : LinkPkt :=
  let w := natLE ((b.drop 8).take 8)
  { thdr := BitVec.ofNat 64 (natLE (b.take 8)), dstChip := BitVec.ofNat 6 w, srcChip := BitVec.ofNat 6 (w / 2 ^ 8),
    cls := BitVec.ofNat 2 (w / 2 ^ 16), sub := w.testBit 18, trl := w.testBit 19, pack := BitVec.ofNat 2 (w / 2 ^ 20),
    pfmt := w.testBit 22, dim := w.testBit 23, data := (b.drop 16).take (bitsOf w 24 11) }

/-- Takes whole packets off the front of received bytes, with the bytes of a packet still in progress. A header of zeros is no packet: it
fills the rest of a flit. (DESIGN CHOICE: assumption 92.) -/
def takePkts : Nat → List Byte → List LinkPkt × List Byte
  | 0, b => ([], b)
  | n + 1, b =>
    if b.length < 16 then ([], b)
    else if (b.take 16).all (fun x => x == 0) then ([], [])
    else
      let w := wireLen (bitsOf (natLE ((b.drop 8).take 8)) 24 11)
      if b.length < w then ([], b)
      else
        let r := takePkts n (b.drop w)
        (linkOfBytes (b.take w) :: r.1, r.2)

/-- What a DATA flit's payload adds to the bytes in progress: up to FPO it continues the packet in progress, and from there packets start
(R301). -/
def flitPkts (part : List Byte) (fpo : Nat) (payload : List Byte) : List LinkPkt × List Byte :=
  if 31 ≤ fpo then (if part.isEmpty then ([], []) else takePkts 32 (part ++ payload))
  else
    let a := if part.isEmpty then [] else (takePkts 32 (part ++ payload.take (8 * fpo))).1
    let b := takePkts 32 (payload.drop (8 * fpo))
    (a ++ b.1, b.2)

/-- The header of a DATA flit (R301). -/
def flitHdr (seq fpo : Nat) : Nat := seq % 2 ^ 16 + fpo % 32 * 2 ^ 16

/-- Sends a DATA flit with its CRC-32C over header and payload (R301). -/
def State.flitOut (s : State) (p : Nat) (f : HeldFlit) : State :=
  let h := flitHdr f.seq f.fpo
  s.send (.flit p (BitVec.ofNat 32 h) f.data (BitVec.ofNat 32 (crc32c (bytesLE 4 h ++ f.data))))

/-! ### Sending (R301 to R303, R306) -/

/-- The credit pool of a packet: class × 2 + SUB (R306). -/
def creditKey (cls : Nat) (sub : Bool) : Nat := 2 * cls + (if sub then 1 else 0)

/-- Credits of a pool in use. -/
def LinkSt.usedOf (l : LinkSt) (k : Nat) : Nat := Tbl.get (fun _ => 0) l.used k

/-- Whether a packet can leave now: the port is up and holds a credit for it. -/
def State.canSend (s : State) (p : Nat) (k : LinkPkt) : Bool :=
  s.flag (LNK_STS_UP p) && decide ((s.linkOf p).usedOf (creditKey k.cls.toNat k.sub) < 16)

/-- Forms a DATA flit from the bytes that wait and sends it, while bytes wait and fewer than 1024 flits are held; it takes the next SEQ
and is held for replay. Zeros fill a flit that no packet fills. -/
def State.linkEmit (s : State) (p : Nat) : Nat → State
  | 0 => s
  | fuel + 1 =>
    let l := s.linkOf p
    if l.stream.isEmpty || !s.flag (LNK_STS_UP p) || decide (1024 ≤ l.held.length) then s
    else
      let d := l.stream.take 248
      let n := s.fld (LNK_SEQ_TX_NEXT p)
      let fpo := match l.starts.find? (fun x => decide (x < 248)) with | some x => x / 8 | none => 31
      let f : HeldFlit := ⟨n, fpo, d ++ List.replicate (248 - d.length) 0⟩
      let l2 := { l with
        held := l.held ++ [f], stream := l.stream.drop 248
        starts := (l.starts.filter (fun x => decide (248 ≤ x))).map (fun x => x - 248) }
      (((s.setLink p l2).setFld (LNK_SEQ_TX_NEXT p) (n + 1)).flitOut p f).linkEmit p fuel

/-- Returns the credit of the receive buffer that a forwarded packet has left (R306). -/
def State.bufferFree (s : State) (src : Option Nat) : State :=
  match src with
  | some b => s.send (.credit (b / 8) (b % 8 / 2) (b % 2 == 1))
  | none => s

/-- A packet leaves: it uses a credit, its bytes follow those before it back to back (R301), and a forwarded one frees its buffer. -/
def State.sendPkt (s : State) (p : Nat) (k : QueuedPkt) : State :=
  let key := creditKey k.pkt.cls.toNat k.pkt.sub
  let l := s.linkOf p
  let l2 := { l with
    used := Tbl.set (fun _ => 0) l.used key (l.usedOf key + 1), starts := l.starts ++ [l.stream.length]
    stream := l.stream ++ linkBytes k.pkt }
  ((s.setLink p l2).countBy (LNK_TX_BYTES_COUNT p) (linkWire k.pkt)).bufferFree k.src

/-- Sends the waiting packets that can go; packets of one pool keep their order. -/
def State.linkDrain (s : State) (p : Nat) : List QueuedPkt → List QueuedPkt → State
  | [], wait =>
    let s1 := s.setLink p { s.linkOf p with queue := wait }
    s1.linkEmit p ((s1.linkOf p).stream.length / 248 + 1)
  | k :: t, wait =>
    if wait.any (fun w => decide (w.pkt.cls = k.pkt.cls) && decide (w.pkt.sub = k.pkt.sub)) || !s.canSend p k.pkt then
      s.linkDrain p t (wait ++ [k])
    else (s.sendPkt p k).linkDrain p t wait

/-- Packets leave on port `p`, now or when they can. -/
def State.linkSendAll (s : State) (p : Nat) (ks : List QueuedPkt) : State := s.linkDrain p ((s.linkOf p).queue ++ ks) []

/-- A packet of this chip for chip `c` leaves under the chip's route entry (R307, R308). -/
def State.linkTo (s : State) (c : Nat) (k : LinkPkt) : State :=
  s.linkSendAll (s.fld (LNK_ROUTE_PORT c)) [⟨{ k with
    sub := s.flag (LNK_ROUTE_DL c), dim := s.flag (LNK_ROUTE_DIM c) }, none⟩]

/-! ### Replay and training (R299, R304, R305) -/

/-- The port's message of DOWN or retraining (Table 20-4). -/
def State.linkIrq (s : State) (p : Nat) : State := if s.flag (LNK_CTL_IRQ_EN p) then s.raise (18 + p) else s

/-- The port begins to train. -/
def State.linkTrain (s : State) (p : Nat) : State :=
  let l := s.linkOf p
  ((s.setLink p { l with tries := 0, down := false, replays := 0, timed := false }).setFlag (LNK_STS_TRAINING p) true).setFlag
    (LNK_STS_UP p) false

/-- Sends held flits again. -/
def State.resend (s : State) (p : Nat) (fs : List HeldFlit) : State := fs.foldl (fun t f => t.flitOut p f) s

/-- A replay from the first held flit at or after `e`, or after three failed ones at its SEQ a retraining (R304). A NAK that arrives while
a timeout's replay runs restarts the resend and is no further replay (Table 15-10); that replay runs until an ACK or a NAK comes.
(DEDUCED: assumption 92.) -/
def State.linkReplay (s : State) (p e : Nat) (timeout : Bool) : State :=
  let l := s.linkOf p
  match l.held.filter (fun f => serialLe 16 e f.seq) with
  | [] => s
  | f :: t =>
    let n := if l.replaySeq = f.seq then l.replays else 0
    if l.timed && !timeout then (s.setLink p { l with timed := false, replaySeq := f.seq, replays := max n 1 }).resend p (f :: t)
    else if 3 ≤ n then
      (((s.countSat (LNK_RETRAINS_COUNT p)).linkTrain p).logD ev_LNK_RETRAIN blkLnk 0 [p, f.seq]).linkIrq p
    else ((s.setLink p { l with replaySeq := f.seq, replays := n + 1, timed := timeout }).countSat (LNK_REPLAYS_COUNT p)).resend p
      (f :: t)

/-- Frees held flits that satisfy `f`. -/
def State.linkFree (s : State) (p : Nat) (f : HeldFlit → Bool) : State :=
  let l := s.linkOf p
  s.setLink p { l with held := l.held.filter (fun x => !f x) }

/-- Lets waiting packets and bytes go. -/
def State.linkGo (s : State) (p : Nat) : State := s.linkDrain p (s.linkOf p).queue []

/-- ACK: every held flit up to `seq` is freed. -/
def execAck (port : Fin 8) (seq : BitVec 16) (s : State) : Host.Outcome State Fault Refusal :=
  let s1 := s.linkFree port (fun f => serialLe 16 f.seq seq.toNat)
  .next ((s1.setLink port { s1.linkOf port with timed := false }).linkGo port)

/-- NAK: the flits below `seq` are freed, and those from it on are resent before any new flit. -/
def execNak (port : Fin 8) (seq : BitVec 16) (s : State) : Host.Outcome State Fault Refusal :=
  .next (((s.linkFree port (fun f => !serialLe 16 seq.toNat f.seq)).linkReplay port seq.toNat false).linkGo port)

/-- REPLAY_TIMEOUT: the oldest held flit has waited too long. -/
def execReplayTimeout (port : Fin 8) (s : State) : Host.Outcome State Fault Refusal :=
  match (s.linkOf port).held with
  | f :: _ => .next (s.linkReplay port f.seq true)
  | [] => .next s

/-- The width that lanes which passed allow: 8, 4, or none (R299). -/
def State.trainWidth (s : State) (p lanes : Nat) : Nat :=
  if lanes = 255 then 8
  else if s.flag (LNK_CTL_ALLOW_4 p) && (lanes % 16 == 15 || lanes / 16 == 15) then 4
  else 0

/-- Whether a chip's route names port `p`. -/
def State.routedOver (s : State) (p c : Nat) : Bool := s.flag (LNK_ROUTE_V c) && s.fld (LNK_ROUTE_PORT c) == p

/-- The port goes DOWN: what it holds is discarded, the buffers of forwarded packets come free, and puts that wait for a token over it
have no route any more (R305, R366, R438). (DEDUCED: assumption 92.) -/
def State.linkDown (s : State) (p : Nat) : State :=
  let l := s.linkOf p
  let s0 := l.queue.foldl (fun t k => t.bufferFree k.src) s
  let s1 := s0.setLink p { l with
    tries := 0, down := true, held := [], queue := [], stream := [], starts := [], part := [], used := [], timed := false }
  let lost := s1.net.remPuts.filter (fun r => s1.routedOver p r.chip)
  let s2 := s1.withNet { s1.net with
    remPuts := s1.net.remPuts.filter (fun r => !s1.routedOver p r.chip), remFail := s1.net.remFail ++ lost }
  let s3 := ((s2.setFlag (LNK_STS_TRAINING p) false).setFlag (LNK_STS_UP p) false).setFlag (LNK_STS_DOWN p) true
  (s3.logD ev_LNK_DOWN blkLnk 0 [p]).linkIrq p

/-- A training attempt ends (R299, R305). -/
def State.trained (s : State) (p lanes chip peer : Nat) : State :=
  let l := s.linkOf p
  let w := s.trainWidth p lanes
  let s0 := (s.setFld (LNK_STS_LANE_OK p) lanes).setFld (LNK_STS_WIDTH p) w
  if w ≠ 0 then
    let s1 := (s0.setFld (LNK_STS_PEER_CHIP p) chip).setFld (LNK_STS_PEER_PORT p) peer
    let s2 := ((s1.setFlag (LNK_STS_TRAINING p) false).setFlag (LNK_STS_UP p) true).setLink p { l with tries := 0, replays := 0 }
    let s3 := match l.held with
      | [] => s2
      | f :: _ => s2.linkReplay p f.seq false
    s3.linkGo p
  else if l.tries + 1 < 3 then s0.setLink p { l with tries := l.tries + 1 }
  else s0.linkDown p

/-- TRAINING_ATTEMPT of a port in training. -/
def execTrainingAttempt (port : Fin 8) (lanes : BitVec 8) (chip : BitVec 6) (peer : BitVec 3) (s : State) :
    Host.Outcome State Fault Refusal :=
  if s.flag (LNK_STS_TRAINING port) then .next (s.trained port lanes.toNat chip.toNat peer.toNat) else .next s

/-- A write of 1 to LNK_p_CTL.RETRAIN starts a new training from any state (R305). -/
def State.linkRetrain (s : State) (p : Nat) : State := s.linkTrain p

/-- RETRAIN. -/
def execRetrain (port : Fin 8) (s : State) : Host.Outcome State Fault Refusal := .next (s.linkRetrain port)

/-- CREDIT_RETURN: a buffer of the class and SUB is free again (R306). -/
def execCreditReturn (port : Fin 8) (cls : BitVec 2) (sub : Bool) (s : State) : Host.Outcome State Fault Refusal :=
  let l := s.linkOf port
  let k := creditKey cls.toNat sub
  .next ((s.setLink port { l with used := Tbl.set (fun _ => 0) l.used k (l.usedOf k - 1) }).linkGo port)

/-! ### Requests and answers between chips (R274, R306) -/

/-- A Traverse header (Table 14-3). -/
def trvHdr (dst src vc flits op tag cid : Nat) : BitVec 64 :=
  BitVec.ofNat 64 (dst % 2 ^ 9 + src % 2 ^ 9 * 2 ^ 9 + vc % 8 * 2 ^ 18 + (flits - 1) % 16 * 2 ^ 21 + op % 2 ^ 7 * 2 ^ 25 +
    tag % 2 ^ 12 * 2 ^ 32 + cid % 2 ^ 12 * 2 ^ 44)

/-- The flits of a payload. -/
def flitsOf (n : Nat) : Nat := max ((n + 63) / 64) 1

/-- The stop that answers for a local physical address of a chip (Tables 12-2 and 14-2): a channel-group controller, the far-tier front
end, the MMU for an inbound window, the register root. -/
def paStop (a : Nat) : Nat :=
  if a < 0x004000000000 then stopOf (a / 0x000800000000 % 8) (36 + ((a / 2 ^ 7 % 4) ^^^ (a / 2 ^ 15 % 4)))
  else if a < 0x200000000000 then stopOf 1 46
  else if a < 0x240000000000 then stopOf 0 47
  else stopOf 0 46

/-- OP codes of the model's own packets, which the specification leaves to the agents (R285): a read with its length, a write, a put
acknowledgement and a negative one. (DESIGN CHOICE: assumption 92.) -/
def opRead : Nat := 0x40
/-- A write. -/
def opWrite : Nat := 0x41
/-- A put acknowledgement. -/
def opAck : Nat := 0x42
/-- A negative acknowledgement. -/
def opNack : Nat := 0x43
/-- An answer to a request: the data of a read, or a write's acknowledgement. -/
def opData : Nat := 0x44
/-- A denial. -/
def opDenied : Nat := 0x45
/-- A read, modify and write. -/
def opRmw : Nat := 0x46

/-- What a request asks of another chip's memory: to read `n` bytes, to write bytes, or an AMO or CAS of `n` bytes with its operands. -/
inductive RemAsk where
  | read (n : Nat)
  | write (d : List Byte)
  | rmw (n : Nat) (opnd : List Byte)
deriving DecidableEq, Repr

/-- How many bytes its answer holds. -/
def RemAsk.size : RemAsk → Nat
  | .read n => n
  | .write _ => 0
  | .rmw n _ => n

/-- A request to another chip leaves as REQ link packets: each carries the CID, the kind of access, the sender's chip and, in front of the
data, the physical address; a read's data is its length (R274, R306). (DESIGN CHOICE: assumption 92.) -/
def State.remoteSend (s : State) (self cid stop pa : Nat) (ask : RemAsk) : State :=
  let c := pa / 2 ^ 46 % 64
  let pkt := fun (op a : Nat) (d : List Byte) =>
    let b := bytesLE 8 a ++ d
    (⟨{ thdr := trvHdr (paStop (a % 2 ^ 46)) stop 0 (flitsOf b.length) op 0 cid, dstChip := BitVec.ofNat 6 c,
        srcChip := BitVec.ofNat 6 self, cls := 0, sub := s.flag (LNK_ROUTE_DL c), trl := false, pack := 0, pfmt := false,
        dim := s.flag (LNK_ROUTE_DIM c), data := b }, none⟩ : QueuedPkt)
  let ks := match ask with
    | .read n => [pkt opRead pa (bytesLE 8 n)]
    | .rmw n d => [pkt opRmw pa (bytesLE 8 n ++ d)]
    | .write d =>
      let ps := chunks 512 (d.length / 512 + 1) d
      (ps.zip (List.range ps.length)).map (fun e => pkt opWrite (pa + 512 * e.2) e.1)
  s.linkSendAll (s.fld (LNK_ROUTE_PORT c)) ks

/-- The answer to a request of stop `stop` of chip `c` leaves as RSP link packets under its tag; one with an uncorrectable error carries
POISON (R238, R306). (DESIGN CHOICE: assumption 92.) -/
def State.remoteReply (s : State) (self c src stop tag : Nat) (r : Completion) : State :=
  if !s.hasRoute c then s
  else
    let pkt := fun (op : Nat) (d : List Byte) (poison : Bool) =>
      let h := trvHdr stop src 1 (flitsOf d.length) op tag 0
      (⟨{ thdr := if poison then h ||| (1 <<< 56) else h, dstChip := BitVec.ofNat 6 c, srcChip := BitVec.ofNat 6 self, cls := 1,
          sub := s.flag (LNK_ROUTE_DL c), trl := false, pack := 0, pfmt := false, dim := s.flag (LNK_ROUTE_DIM c), data := d }, none⟩ :
        QueuedPkt)
    let ks := match r with
      | .ok d => if d = [] then [pkt opData [] false] else (chunks 1024 (d.length / 1024 + 1) d).map (fun x => pkt opData x false)
      | .poisoned => [pkt opData [] true]
      | _ => [pkt opDenied [] false]
    s.linkSendAll (s.fld (LNK_ROUTE_PORT c)) ks

end Sys2Proof.Machine
end

