-- ==== Sys2Proof/Machine/Mesh.lean ====
section
/-!
DEFINITION. Machine/Mesh.lean: the Traverse's mesh: packet headers, input queues, credits, arbitration, flit errors, response reservations
and tokens (R283, R285 to R292). What a packet does at its stop is in Fabric.lean.
-/
namespace Sys2Proof.Machine

/-! ### Headers (Table 14-3) -/

/-- DST of a header. -/
def hdrDst (h : BitVec 64) : Nat := bitsOf h.toNat 0 9
/-- SRC. -/
def hdrSrc (h : BitVec 64) : Nat := bitsOf h.toNat 9 9
/-- VC. -/
def hdrVc (h : BitVec 64) : Nat := bitsOf h.toNat 18 3
/-- Flits. -/
def hdrFlits (h : BitVec 64) : Nat := bitsOf h.toNat 21 4 + 1
/-- TAG. -/
def hdrTag (h : BitVec 64) : Nat := bitsOf h.toNat 32 12
/-- POISON. -/
def hdrPoison (h : BitVec 64) : Bool := h.getLsbD 56

/-- Whether a packet can be sent at all: its stops and channel exist, its marked bits are 0, and its payload fills LEN flits. -/
def trvOk (k : TrvPkt) : Bool :=
  decide (hdrDst k.hdr < 384) && decide (hdrSrc k.hdr < 384) && decide (hdrVc k.hdr < 6) && decide (k.hdr.toNat < 2 ^ 57) &&
    decide (flitsOf k.data.length = hdrFlits k.hdr)

/-! ### The mesh's state -/

/-- Replaces the mesh. -/
def State.withMesh (s : State) (m : MeshSt) : State := s.withNet { s.net with mesh := m }

/-- Queue depth of a virtual channel, in flits (Table 14-4). -/
def vcDepth (vc : Nat) : Nat := [4, 8, 2, 4, 8, 2].getD vc 0

/-- An input port of a router in a plane; ports are numbered as Table 14-6 numbers them. -/
def portKey (plane router port : Nat) : Nat := (plane * 192 + router) * 6 + port

/-- The queue of a virtual channel at an input port (R287). -/
def queueKey (pk vc : Nat) : Nat := pk * 8 + vc

/-- The buffer of a virtual channel at a stop, in a plane. -/
def stopQueue (plane stop vc : Nat) : Nat := queueKey (16 * 192 * 6 + plane * 384 + stop) vc

/-- The input queue of a stop's own port at its router. -/
def entryQueue (plane stop vc : Nat) : Nat := queueKey (portKey plane (routerOf stop) (4 + stop % 2)) vc

/-- A packet of the mesh. -/
def MeshSt.pkt (m : MeshSt) (i : Nat) : Option MeshPkt := Tbl.get (fun _ => (none : Option MeshPkt)) m.pkts i

/-- Replaces it. -/
def MeshSt.setPkt (m : MeshSt) (i : Nat) (k : Option MeshPkt) : MeshSt :=
  { m with pkts := Tbl.set (fun _ => (none : Option MeshPkt)) m.pkts i k }

/-- A queue. -/
def MeshSt.queue (m : MeshSt) (q : Nat) : List MeshFlit := Tbl.get (fun _ => []) m.queues q

/-- Replaces it. -/
def MeshSt.setQueue (m : MeshSt) (q : Nat) (l : List MeshFlit) : MeshSt := { m with queues := Tbl.set (fun _ => []) m.queues q l }

/-- Credits of a queue that are out: flits in it, and credits on their way back. -/
def MeshSt.usedOf (m : MeshSt) (q : Nat) : Nat := Tbl.get (fun _ => 0) m.used q

/-- Sets them. -/
def MeshSt.setUsed (m : MeshSt) (q n : Nat) : MeshSt := { m with used := Tbl.set (fun _ => 0) m.used q n }

/-- Whether the sender of a queue holds a credit (R288). -/
def MeshSt.credit (m : MeshSt) (q : Nat) : Bool := decide (m.usedOf q < vcDepth (q % 8))

/-- Response reservations of a stop. -/
def MeshSt.resvOf (m : MeshSt) (st : Nat) : Nat := Tbl.get (fun _ => 0) m.resv st

/-- Sets them. -/
def MeshSt.setResv (m : MeshSt) (st n : Nat) : MeshSt := { m with resv := Tbl.set (fun _ => 0) m.resv st n }

/-- A flit enters a queue and uses a credit of it. -/
def MeshSt.push (m : MeshSt) (q : Nat) (f : MeshFlit) : MeshSt :=
  (m.setQueue q (m.queue q ++ [f])).setUsed q (m.usedOf q + 1)

/-- A flit leaves the front of a queue: its credit arrives at the sender two cycles later (R288), and the next flit can leave in the next
cycle. -/
def MeshSt.pop (m : MeshSt) (q : Nat) : MeshSt :=
  let rest := match (m.queue q).drop 1 with
    | f :: t => { f with ready := max f.ready (m.cyc + 1) } :: t
    | [] => []
  let m1 := m.setQueue q rest
  { m1 with credits := m1.credits ++ [⟨q, m1.cyc + 2⟩] }

/-! ### Routing (R283) -/

/-- The output port that router `r` takes toward stop `dst`: along X, then along Y, then the stop's own port. Row numbers rise toward
S. (DESIGN CHOICE: assumption 93.) -/
def outPort (r dst : Nat) : Nat :=
  let d := routerOf dst
  if r % 12 < d % 12 then 1
  else if d % 12 < r % 12 then 3
  else if r / 12 < d / 12 then 2
  else if d / 12 < r / 12 then 0
  else 4 + dst % 2

/-- The router across a mesh port. -/
def neighbour (r port : Nat) : Nat := match port with | 0 => r - 12 | 1 => r + 1 | 2 => r + 12 | _ => r - 1

/-- The port by which a flit sent on a mesh port comes in. -/
def opposite (port : Nat) : Nat := match port with | 0 => 2 | 1 => 3 | 2 => 0 | _ => 1

/-- The queue that an output of a router leads to. -/
def nextQueue (plane r port vc dst : Nat) : Nat :=
  if 4 ≤ port then stopQueue plane dst vc else queueKey (portKey plane (neighbour r port) (opposite port)) vc

/-! ### Flit errors (R286) -/

/-- The place of an uncorrectable flit. -/
def State.trvLoc (s : State) (r plane port : Nat) : State :=
  (((s.setFlag TRV_ERR_LOC_VALID true).setFld TRV_ERR_LOC_ROUTER r).setFld TRV_ERR_LOC_PLANE plane).setFld TRV_ERR_LOC_PORT port

/-- A corrected flit (R286). -/
def State.trvCe (s : State) (r plane port : Nat) : State :=
  let s1 := ((s.countSat TRV_CE_CNT_COUNT).setFlag TRV_STS_CE true).logD ev_TRV_CE blkTrv 0 [r, plane, port]
  s1.pmuEvent 7 1 (fun st => st / 2 == r) none

/-- An uncorrectable flit (R286). -/
def State.trvUe (s : State) (k : EvKind) (r plane port : Nat) : State :=
  let s1 := (((s.countSat TRV_UE_CNT_COUNT).setFlag TRV_STS_UE true).trvLoc r plane port).logD k blkTrv 0 [r, plane, port]
  if s1.flag TRV_CTL_ECC_IRQ_EN then s1.raise 7 else s1

/-- What the check of a flit's code at input port `port` of router `r` finds: the error of its packet, where the packet meets it there.
A head flit, or a flit after it where the packet has one, carries the error. -/
def errAt (e : FlitErr) (flits r plane port idx : Nat) : FlitErr :=
  let on := fun (er : BitVec 8) (epl : BitVec 4) (epo : BitVec 3) (i : Nat) =>
    er.toNat == r && epl.toNat == plane && epo.toNat == port && i == idx
  match e with
  | .none => .none
  | .single er epl epo => if on er epl epo 0 then e else .none
  | .payload er epl epo => if on er epl epo (min 1 (flits - 1)) then e else .none
  | .head er epl epo => if on er epl epo 0 then e else .none

/-- A flit of packet `i` arrives at a router's input port: its code is checked, and it joins its queue, or is discarded with its packet
(R286). -/
def State.arriveAt (s : State) (i : Nat) (k : MeshPkt) (pk vc : Nat) (f : MeshFlit) : State :=
  let plane := pk / 6 / 192
  let r := pk / 6 % 192
  let q := queueKey pk vc
  let last := f.idx + 1 == hdrFlits k.hdr
  let gone := fun (t : State) (k2 : MeshPkt) =>
    let m := t.net.mesh
    let m0 := m.setUsed q (m.usedOf q + 1)
    let m1 : MeshSt := { m0 with credits := m0.credits ++ [⟨q, m.cyc + 2⟩] }
    t.withMesh (m1.setPkt i (if last then none else some k2))
  if k.dropAt = some r then gone s k
  else match errAt k.err (hdrFlits k.hdr) r plane (pk % 6) f.idx with
    | .none => s.withMesh (s.net.mesh.push q f)
    | .single _ _ _ => let t := s.trvCe r plane (pk % 6); t.withMesh (t.net.mesh.push q f)
    | .payload _ _ _ =>
      let t := s.trvUe ev_TRV_UE r plane (pk % 6)
      t.withMesh ((t.net.mesh.setPkt i (some { k with hdr := k.hdr ||| (1 <<< 56) })).push q f)
    | .head _ _ _ =>
      gone ((s.trvUe ev_TRV_DROP r plane (pk % 6)).setFlag TRV_STS_DROP true) { k with dropAt := some r }

/-! ### One output of one router (R288) -/

/-- What an input queue offers in this cycle: the packet of its first flit where that can leave. -/
def MeshSt.offer (m : MeshSt) (q : Nat) : Option (MeshFlit × MeshPkt) :=
  match m.queue q with
  | f :: _ => if f.ready ≤ m.cyc then (m.pkt f.pkt).map (fun k => (f, k)) else none
  | [] => none

/-- Whether input (port, VC) pair `c` of a router can send to output `out`: its first flit is a head that goes there, or a flit of the packet
that holds the output, and there is a credit. -/
def MeshSt.canWin (m : MeshSt) (plane r out c : Nat) : Bool :=
  let q := queueKey (portKey plane r (c / 8)) (c % 8)
  match m.offer q with
  | none => false
  | some (f, k) =>
    let go := outPort r (hdrDst k.hdr) == out && m.credit (nextQueue plane r out (c % 8) (hdrDst k.hdr))
    match Tbl.get (fun _ => (none : Option (Nat × Nat))) m.owner (portKey plane r out) with
    | some (i, c') => go && f.pkt == i && c' == c
    | none => go && f.idx == 0

/-- The (input, VC) pairs of a router in the order the pointer gives them. -/
def pairsFrom (n : Nat) : List Nat := (List.range 48).map (fun i => (n + i) % 48)

/-- One output of one router in one cycle: the round-robin pointer picks among the ready inputs, the winner's flit moves on, and a packet
keeps the output until its tail has passed. -/
def State.meshOut (s : State) (plane r out : Nat) : State :=
  let m := s.net.mesh
  let ok := portKey plane r out
  match (pairsFrom (Tbl.get (fun _ => 0) m.rr ok)).find? (m.canWin plane r out) with
  | none => s
  | some c =>
    let q := queueKey (portKey plane r (c / 8)) (c % 8)
    match m.offer q with
    | none => s
    | some (f, k) =>
      let last := f.idx + 1 == hdrFlits k.hdr
      let m1 := m.pop q
      let m2 := { m1 with
        owner := Tbl.set (fun _ => (none : Option (Nat × Nat))) m1.owner ok (if last then none else some (f.pkt, c))
        rr := Tbl.set (fun _ => 0) m1.rr ok ((c + 1) % 48) }
      let s1 := s.withMesh m2
      if 4 ≤ out then s1.withMesh (m2.push (stopQueue plane (hdrDst k.hdr) (c % 8)) { f with ready := m.cyc + 3 })
      else (s1.pmuEvent 6 1 (fun st => st / 2 == r) (some (c % 8))).arriveAt f.pkt k
        (portKey plane (neighbour r out) (opposite out)) (c % 8) { f with ready := m.cyc + 1 }

/-- The outputs that the first flits of the queues want: plane, router, output port. -/
def MeshSt.wanted (m : MeshSt) : List (Nat × Nat × Nat) :=
  ((m.queues.filter (fun e => decide (e.1 < queueKey (16 * 192 * 6) 0))).filterMap (fun e =>
    match m.offer e.1 with
    | some (_, k) =>
      let pk := e.1 / 8
      some (pk / 6 / 192, pk / 6 % 192, outPort (pk / 6 % 192) (hdrDst k.hdr))
    | none => none)).eraseDups

/-! ### Stops: entering and leaving (R285, R288, R289) -/

/-- A flit leaves a stop's buffer: counted, and a packet whose tail has come has landed. -/
def State.meshEject (s : State) (q : Nat) : State :=
  let m := s.net.mesh
  match m.offer q with
  | none => s
  | some (f, k) =>
    let m1 := m.pop q
    let m2 := if f.idx + 1 == hdrFlits k.hdr then { m1 with landed := m1.landed ++ [f.pkt] } else m1
    (s.withMesh m2).pmuEvent 2 1 (fun st => st == hdrDst k.hdr) (some (hdrVc k.hdr))

/-- Tokens of a target on a VC (Table 14-5): standing tokens of requester `stop`, the pool, and the cap on pool tokens. -/
def tokensOf (tgt vc stop : Nat) : Nat × Nat × Nat :=
  match stopKind tgt with
  | .bank p _ => match stopKind stop with
    | .cluster n _ => if n = p ∧ (vc = 0 ∨ vc = 3) then (2, 0, 0) else (0, 0, 0)
    | _ => (0, 0, 0)
  | .cluster p _ => match stopKind stop with
    | .bank n _ => if n = p ∧ vc = 2 then (2, 0, 0) else (0, 0, 0)
    | _ => (0, 0, 0)
  | .controller _ _ => if vc = 0 then (1, 64, 4) else (0, 0, 0)
  | .ucie _ => if vc = 0 then (1, 128, 8) else (0, 0, 0)
  | .far => if vc = 0 then (1, 128, 8) else (0, 0, 0)
  | .plat _ => (0, 0, 0)
  | .adit _ => (0, 0, 0)
  | .assay _ => (0, 0, 0)
  | _ => if vc = 0 ∨ vc = 5 then (1, 0, 0) else (0, 0, 0)

/-- Key of a target's tokens on a VC. -/
def tokKey (tgt vc : Nat) : Nat := 8 * tgt + vc

/-- The tokens of a target. -/
def State.tokOf (s : State) (k : Nat) : TokSt := Tbl.get (fun _ => (⟨[], [], [], []⟩ : TokSt)) s.net.tokens k

/-- Replaces them. -/
def State.setTok (s : State) (k : Nat) (t : TokSt) : State :=
  s.withNet { s.net with tokens := Tbl.set (fun _ => (⟨[], [], [], []⟩ : TokSt)) s.net.tokens k t }

/-- Standing tokens of a stop that are not with it at cycle `c`: they name an entry, or are on their way back. -/
def TokSt.standOut (t : TokSt) (stop c : Nat) : Nat :=
  (t.held.filter (fun u => u.stop == stop && !u.pool)).length +
    (t.coming.filter (fun u => u.stop == stop && !u.pool && decide (c < u.arrive))).length

/-- Pool tokens of a stop that are out. -/
def TokSt.poolOut (t : TokSt) (stop c : Nat) : Nat :=
  (t.granted.filter (fun u => u.stop == stop)).length + (t.held.filter (fun u => u.stop == stop && u.pool)).length +
    (t.coming.filter (fun u => u.stop == stop && u.pool && decide (c < u.arrive))).length

/-- Pool tokens that are out. -/
def TokSt.outAll (t : TokSt) (c : Nat) : Nat :=
  t.granted.length + (t.held.filter (fun u => u.pool)).length +
    (t.coming.filter (fun u => u.pool && decide (c < u.arrive))).length

/-- Which token of the target a stop can use now: its standing one, which it prefers, or a granted one that has reached it.
(DESIGN CHOICE: assumption 93.) -/
def State.tokenFor (s : State) (tgt vc stop : Nat) : Option Bool :=
  let t := s.tokOf (tokKey tgt vc)
  if t.standOut stop s.net.mesh.cyc < (tokensOf tgt vc stop).1 then some false
  else if t.granted.any (fun g => g.stop == stop && decide (g.arrive ≤ s.net.mesh.cyc)) then some true
  else none

/-- The token names an entry of the target, for packet `i`. -/
def State.tokenUse (s : State) (tgt vc stop : Nat) (pool : Bool) (i : Nat) : State :=
  let k := tokKey tgt vc
  let t := s.tokOf k
  let g := if pool then t.granted.eraseP (fun g => g.stop == stop && decide (g.arrive ≤ s.net.mesh.cyc)) else t.granted
  s.setTok k { t with granted := g, held := t.held ++ [⟨stop, pool, i⟩] }

/-- Whether a packet's sender reserves a response buffer at itself: requests, and snoops for their replies (R289). -/
def reserves (vc : Nat) : Bool := vc == 0 || vc == 2

/-- Whether the sink of a packet has a buffer set aside for it (R289): the requester's reservation for a response, a frame for a put, a token
for every other packet, whose sender also reserves the buffer of its response, of which it holds at most 64. -/
def State.sinkReady (s : State) (h : BitVec 64) : Bool :=
  let vc := hdrVc h
  if vc = 1 then decide (0 < s.net.mesh.resvOf (hdrDst h))
  else if vc = 4 then (match stopKind (hdrDst h) with | .plat _ => true | _ => false)
  else (s.tokenFor (hdrDst h) vc (hdrSrc h)).isSome && (!reserves vc || decide (s.net.mesh.resvOf (hdrSrc h) < 64))

/-- Sets the buffer aside as packet `i` enters. A response uses its reservation up when it lands. -/
def State.sinkTake (s : State) (i : Nat) (h : BitVec 64) : State :=
  let vc := hdrVc h
  if vc = 1 ∨ vc = 4 then s
  else
    let s1 := match s.tokenFor (hdrDst h) vc (hdrSrc h) with
      | some b => s.tokenUse (hdrDst h) vc (hdrSrc h) b i
      | none => s
    if reserves vc then s1.withMesh (s1.net.mesh.setResv (hdrSrc h) (s1.net.mesh.resvOf (hdrSrc h) + 1)) else s1

/-- Whether an earlier packet of the list goes before packet `i`: one of the same stop and plane that is entering, or of the same stop,
plane and VC that waits (R285, R294). -/
def MeshSt.behind (m : MeshSt) (i : Nat) (k : MeshPkt) : Bool :=
  m.inj.any (fun j => j != i && (match m.pkt j with
    | some x => hdrSrc x.hdr == hdrSrc k.hdr && x.plane == k.plane &&
        (decide (0 < x.sent) || (decide (k.sent = 0) && hdrVc x.hdr == hdrVc k.hdr && decide (j < i)))
    | none => false))

/-- Packet `i` sends its next flit into the mesh if it can: its buffer at the sink is set aside, no other packet of its stop is in its way, and
the router's queue has room. A flit that waits for a credit alone is counted (R288, R296). -/
def State.meshInject (s : State) (i : Nat) : State :=
  match s.net.mesh.pkt i with
  | none => s
  | some k =>
    let m := s.net.mesh
    let vc := hdrVc k.hdr
    if m.behind i k || !(k.cleared || s.sinkReady k.hdr) then s
    else
      let s1 := if k.cleared then s else s.sinkTake i k.hdr
      let k1 := { k with cleared := true }
      let q := entryQueue k.plane (hdrSrc k.hdr) vc
      if !s1.net.mesh.credit q then
        (s1.withMesh (s1.net.mesh.setPkt i (some k1))).pmuEvent 3 1 (fun st => st == hdrSrc k.hdr) (some vc)
      else
        let k2 := { k1 with sent := k.sent + 1 }
        let m1 := s1.net.mesh.setPkt i (some k2)
        let m2 := if k2.sent = hdrFlits k.hdr then { m1 with inj := m1.inj.filter (fun j => j != i) } else m1
        ((s1.withMesh m2).pmuEvent 1 1 (fun st => st == hdrSrc k.hdr) (some vc)).arriveAt i k2 (q / 8) vc
          ⟨i, k.sent, m.cyc + 2⟩

/-- One cycle of the mesh: credits arrive, stops take flits, every output grants one flit, packets enter. -/
def State.meshCycle (s : State) : State :=
  let m := s.net.mesh
  let back := m.credits.filter (fun c => decide (c.arrive ≤ m.cyc))
  let m1 := back.foldl (fun t c => t.setUsed c.queue (t.usedOf c.queue - 1))
    { m with credits := m.credits.filter (fun c => decide (m.cyc < c.arrive)) }
  let s1 := s.withMesh m1
  let s2 := ((m1.queues.filter (fun e => decide (queueKey (16 * 192 * 6) 0 ≤ e.1))).map (fun e => e.1)).foldl State.meshEject s1
  let s3 := s2.net.mesh.wanted.foldl (fun t w => t.meshOut w.1 w.2.1 w.2.2) s2
  let s4 := s3.net.mesh.inj.foldl State.meshInject s3
  s4.withMesh { s4.net.mesh with cyc := s4.net.mesh.cyc + 1 }

/-- Whether a packet that waits to enter could, or is entering. -/
def State.meshWilling (s : State) (i : Nat) : Bool :=
  match s.net.mesh.pkt i with
  | some k => k.cleared || s.sinkReady k.hdr
  | none => false

/-- Whether nothing in the mesh moves until a command comes: no flit and no credit on its way, no message of the token network, no packet
that can enter. -/
def State.meshQuiet (s : State) : Bool :=
  let m := s.net.mesh
  m.queues.isEmpty && m.credits.isEmpty && !m.inj.any s.meshWilling &&
    s.net.tokens.all (fun e => e.2.granted.all (fun g => decide (g.arrive ≤ m.cyc)) &&
      e.2.coming.all (fun g => decide (g.arrive ≤ m.cyc)))

/-- Counts `n` cycles of every pool token request that waits (R296). -/
def State.tokWaiting (s : State) (n : Nat) : State :=
  s.net.tokens.foldl (fun t e => e.2.waiting.foldl (fun u r => u.pmuEvent 5 n (fun st => st == r.stop) none) t) s

/-- `n` cycles of the mesh; cycles in which nothing moves pass at once. -/
def State.meshRun (s : State) : Nat → State
  | 0 => s
  | n + 1 =>
    if s.meshQuiet then (s.tokWaiting (n + 1)).withMesh { s.net.mesh with cyc := s.net.mesh.cyc + (n + 1) }
    else (s.tokWaiting 1).meshCycle.meshRun n

/-- Whether a packet is a request of an agent that translates: a cluster, an L2 bank for one, Adit or Assay (R271). -/
def agentAsks (h : BitVec 64) : Bool :=
  hdrVc h == 0 && (match stopKind (hdrSrc h) with
    | .cluster _ _ => true
    | .bank _ _ => true
    | .adit _ => true
    | .assay _ => true
    | _ => false)

/-- A packet comes to its source stop and waits there to enter (R285). Packets that no stop sends change nothing. -/
def State.trvPacket (s : State) (k : TrvPkt) : State :=
  if !trvOk k then s
  else
    let m := s.net.mesh
    let x : MeshPkt := ⟨k.hdr, k.data, k.err, planeOf (hdrSrc k.hdr) (hdrDst k.hdr) (hdrVc k.hdr) k.addr.toNat, 0, false, none⟩
    s.withMesh { (m.setPkt m.nextId (some x)) with
      nextId := m.nextId + 1, inj := m.inj ++ [m.nextId]
      asked := if agentAsks k.hdr then m.asked ++ [(hdrSrc k.hdr, hdrTag k.hdr)] else m.asked }

end Sys2Proof.Machine
end

