-- ==== Sys2Proof/Machine/Tally.lean ====
section
/-!
DEFINITION. Machine/Tally.lean: latency bins, snapshots, guard windows, the Percentile Guard and watermark commands (chapter 3).
-/
namespace Sys2Proof.Machine

/-- BLOCK code of TAL (Table 0-8). -/
def blkTal : Nat := 5

/-- Replaces the tally state. -/
def State.withTal (s : State) (t : TalSt) : State := { s with tal := t }

/-! ### Bins (R49, R50, R53) -/

/-- Whether a sample of `t` ticks is at or above edge E_b = floor(1200 × 2^(b/4)) (R49), in whole numbers. -/
def atEdge (t b : Nat) : Bool := decide (1200 ^ 4 * 2 ^ b < (t + 1) ^ 4)

/-- The bin of a sample: how many of E_1 to E_64 it reaches (R49). -/
def binOf (t : Nat) : Nat := ((List.range 64).filter (fun b => atEdge t (b + 1))).length

/-- Key of a live bin. -/
def binKey (cls kind b : Nat) : Nat := (cls * 2 + kind) * 65 + b

/-- A difference of timestamps as a sample: signed, negative counts as 0 (R18). -/
def sampleOf (later earlier : BitVec 64) : Nat := (later - earlier).toInt.toNat

/-- Counts one sample: in its bin, or lost at a saturated bin (R50, R53), and in the guard window at the present count beat
(R54). (DEDUCED: assumption 72.) -/
def State.countSample (s : State) (cls kind t : Nat) : State :=
  let k := binKey cls kind (binOf t)
  let n := Tbl.get (fun _ => 0) s.tal.bins k
  let w := s.tal.win ++ [⟨s.beat.idx, cls, kind, binOf t⟩]
  if n < 2 ^ 48 - 1 then s.withTal { s.tal with bins := Tbl.set (fun _ => 0) s.tal.bins k (n + 1), win := w }
  else
    let first := Tbl.get (fun _ => false) s.tal.sat k
    let s1 := (s.withTal { s.tal with sat := Tbl.set (fun _ => false) s.tal.sat k true, win := w }).setFbit TAL_STS_SAT cls true
    if first then s1 else s1.logD ev_TALLY_SAT blkTal 0 [cls]

/-! ### Snapshot and clear (R51, R52) -/

/-- Whether the class of bin key `k` is in `mask`. -/
def inMask (mask k : Nat) : Bool := mask.testBit (k / 130)

/-- Replaces the entries of the classes in `mask` by those of `src`. -/
def copyClasses {α : Type} [DecidableEq α] (d : Nat → α) (mask : Nat) (src dst : Tbl α) : Tbl α :=
  (src.filter (fun e => inMask mask e.1)).foldl (fun t e => Tbl.set d t e.1 e.2) (dst.filter (fun e => !inMask mask e.1))

/-- Stores the time of a snapshot for the classes in `mask`. -/
def State.snapTimes (s : State) (mask : Nat) : State :=
  (List.range 8).foldl (fun t n => if mask.testBit n then t.setFld (TAL_SNAP_TIME_TIME n) t.beat.ts.toNat else t) s

/-- The copies and clears that wait are done at a TCLK edge: copies first, whatever the order of the writes that asked for them
(R51, R52). (DESIGN CHOICE: assumption 124.) -/
def State.tallyEdge (s : State) : State :=
  let t := s.tal
  if t.snapPend = 0 ∧ t.clearPend = 0 then s
  else
    let s1 := (s.snapTimes t.snapPend).setFlag TAL_STS_SNAP_BUSY false
    s1.withTal { t with
      snap := copyClasses (fun _ => 0) t.snapPend t.bins t.snap
      snapSat := copyClasses (fun _ => false) t.snapPend t.sat t.snapSat
      bins := t.bins.filter (fun e => !inMask t.clearPend e.1)
      sat := t.sat.filter (fun e => !inMask t.clearPend e.1)
      snapPend := 0
      clearPend := 0 }

/-- A write of TAL_CMD: SNAP and CLEAR wait for the next TCLK edge, WIN_CLEAR for the next boundary (R51, R52, R54). -/
def State.tallyCmd (s : State) (snap clear winClear : Nat) : State :=
  let s1 := if snap = 0 then s else s.setFlag TAL_STS_SNAP_BUSY true
  s1.withTal { s1.tal with
    snapPend := s1.tal.snapPend ||| snap
    clearPend := s1.tal.clearPend ||| clear
    winClear := s1.tal.winClear ||| winClear }

/-- WIN_CLEAR. -/
def execWinClear (mask : BitVec 8) (s : State) : Host.Outcome State Fault Refusal := .next (s.tallyCmd 0 0 mask.toNat)

/-! ### The Percentile Guard (R54 to R57) -/

/-- The windows at a boundary: the last 1024 count beats, without the classes of WIN_CLEAR (R54). What the beat that now begins has
counted already stays. -/
def State.windowTurn (s : State) : State :=
  s.withTal { s.tal with
    win := s.tal.win.filter (fun e => e.idx == s.beat.idx ||
      (decide (s.beat.idx ≤ e.idx + 1024) && !s.tal.winClear.testBit e.cls))
    winClear := 0 }

/-- The divisor 1/m of the rank rule by PCTL (R55). -/
def pctlDiv (p : Nat) : Nat := match p with | 0 => 2 | 1 => 10 | 2 => 100 | _ => 1000

/-- The smallest bin whose cumulative count reaches `r`, searching from `b`; `seen` lie below (R55). -/
def rankBin (win : List WinEnt) (r : Nat) : Nat → Nat → Nat → Nat
  | 0, b, _ => b
  | fuel + 1, b, seen =>
    let c := seen + (win.filter (fun e => e.bin == b)).length
    if r ≤ c then b else rankBin win r fuel (b + 1) c

/-- Opens or closes the guard of a class (R56, R57). -/
def State.guardSet (s : State) (c : Nat) (close : Option Bool) : State :=
  let w := wmFlds (.guard (Fin.ofNat 8 c))
  match close with
  | some true => if s.flag w.above then s else s.wmUp w
  | some false => if s.flag w.above then s.wmDown w else s
  | none => s

/-- The evaluation of one class at a boundary (R55, R56). -/
def State.guardEval (s : State) (c : Nat) : State :=
  let win := s.tal.win.filter (fun e => e.idx != s.beat.idx && e.cls == c && e.kind == s.act (TAL_GUARD_KIND c))
  let n := win.length
  let valid := decide (max (s.act (TAL_GUARD_MIN_MIN_N c)) 1 ≤ n)
  let est := if valid then rankBin win (n - n / pctlDiv (s.act (TAL_GUARD_PCTL c))) 64 0 0 else 0
  let thr := min (s.act (TAL_GUARD_THR c)) 64
  let s1 := ((s.setFlag (TAL_GUARD_EST_VALID c) valid).setFld (TAL_GUARD_EST_EST_BIN c) est).setFld (TAL_GUARD_EST_WIN_N c)
    (min n 0xFFFFFF)
  s1.guardSet c
    (if s.act (TAL_GUARD_EN c) = 0 ∨ valid = false then some false
     else if thr ≤ est then some true
     else if est + s.act (TAL_GUARD_HYST c) < thr then some false
     else none)

/-- Every class's guard at a boundary. (DEDUCED: assumption 116.) -/
def State.guardTurn (s : State) : State := (List.range 8).foldl State.guardEval s.windowTurn

/-- Whether the guard of a class is closed. -/
def State.guardClosed (s : State) (c : Nat) : Bool := s.flag (TAL_GUARD_STS_LEVEL_ABOVE c)

end Sys2Proof.Machine
end

