-- ==== Sys2Proof/Machine/Clock.lean ====
section
/-!
DEFINITION. Machine/Clock.lean: the root PLL and reference monitor, droop stretches, the timestamp, and the placing of beat
boundaries from BEAT_SYNC_IN (chapter 4). What else a boundary does is in Boundary.lean.
-/
namespace Sys2Proof.Machine

/-! ### The PLL and the loss-of-reference monitor (R64, R69 to R71) -/

/-- The BLOCK codes of Table 0-8 that clock and beat events carry. -/
def blkClk : Nat := 1
/-- BLOCK code of BEAT. -/
def blkBeat : Nat := 2

/-- Replaces the beat state. -/
def State.withBeat (s : State) (b : BeatSt) : State := { s with beat := b }

/-- PLL_LOCK: the first lock sets LOCKED and starts the timestamp (R64, R79). -/
def execPllLock (s : State) : Host.Outcome State Fault Refusal :=
  if s.beat.locked1st || s.tripped then .next s
  else .next ((s.setFlag CLK_REF_STS_LOCKED true).withBeat { s.beat with locked1st := true })

/-- OCLK_TRIM_COMPLETE: the first trim after the first lock sets OCLK_TRIMMED (R69). -/
def execOclkTrimComplete (s : State) : Host.Outcome State Fault Refusal :=
  .next (if s.beat.locked1st then s.setFlag CLK_REF_STS_OCLK_TRIMMED true else s)

/-- A declaration of loss of reference with its LOR_CAUSE: holdover, status, count, event, message (R70). ALERT_N follows
`State.alertN`. -/
def State.lossOfRef (s : State) (cause : Nat) : State :=
  let s1 := (((s.setFlag CLK_REF_STS_LOSS_OF_REF true).setFlag CLK_REF_STS_HOLDOVER true).setFlag CLK_REF_STS_LOCKED false)
  let s2 := ((s1.setFlag CLK_REF_STS_RELOCKING false).setFld CLK_REF_STS_LOR_CAUSE cause).countSat CLK_REF_STS_LOR_COUNT
  let s3 := (s2.withBeat { s2.beat with goodWin := 0 }).logD ev_LOSS_OF_REF blkClk 0 [cause]
  if s3.flag CLK_REF_CTL_LOR_IRQ_EN then s3.raise 2 else s3

/-- The reference counts as returned and the PLL relocks (R71). -/
def State.refReturned (s : State) : State :=
  ((s.setFlag CLK_REF_STS_HOLDOVER false).setFlag CLK_REF_STS_RELOCKING true).logD ev_REF_RETURNED blkClk 0 []

/-- REF_EDGE_TIMEOUT: no edge for 4 µs declares loss; the test runs from the first lock (R69), and a loss already declared
stands until the reference returns. -/
def execRefEdgeTimeout (s : State) : Host.Outcome State Fault Refusal :=
  .next (if s.beat.locked1st && !s.flag CLK_REF_STS_HOLDOVER then s.lossOfRef 0 else s)

/-- REF_FREQUENCY_WINDOW: the edge count of one window, and whether edges were present throughout, judged for loss (R69) or, in
holdover, for return after four good windows in a row (R71). Windows run from OCLK_TRIMMED. -/
def execRefFrequencyWindow (edges : Nat) (present : Bool) (s : State) : Host.Outcome State Fault Refusal :=
  if !s.flag CLK_REF_STS_OCLK_TRIMMED then .next s
  else if s.flag CLK_REF_STS_HOLDOVER then
    let n := if present && decide (6336 ≤ edges) && decide (edges ≤ 6464) then s.beat.goodWin + 1 else 0
    if 4 ≤ n then .next (s.withBeat { s.beat with goodWin := 0 }).refReturned
    else .next (s.withBeat { s.beat with goodWin := n })
  else if edges < 6272 ∨ 6528 < edges then .next (s.lossOfRef 1)
  else .next s

/-- RELOCK_COMPLETE: LOCKED reads 1 (R71). -/
def execRelockComplete (s : State) : Host.Outcome State Fault Refusal :=
  .next (if s.flag CLK_REF_STS_RELOCKING then
    (s.setFlag CLK_REF_STS_RELOCKING false).setFlag CLK_REF_STS_LOCKED true else s)

/-! ### Droop (R67, R68) -/

/-- The present stretch of PCLK`p` in sixteenths. -/
def State.depthOf (s : State) (p : Nat) : Nat := Tbl.get (fun _ => 0) s.beat.depth p

/-- The stretch takes depth `d`, held at 4/16; beyond that LIMIT sets and the event is logged (R67). MAX_STRETCH follows. -/
def State.setDepth (s : State) (p d : Nat) : State :=
  let e := min d 4
  let s1 := s.withBeat { s.beat with depth := Tbl.set (fun _ => 0) s.beat.depth p e }
  let s2 := s1.setFld (CLK_PCLK_STS_MAX_STRETCH p) (max (s1.fld (CLK_PCLK_STS_MAX_STRETCH p)) e)
  if 4 < d then (s2.setFbit CLK_DROOP_STS_LIMIT p true).logD ev_DROOP_LIMIT blkClk 0 [p] else s2

/-- A stretch event: counted, OVF at the wrap, ACTIVE set (R68). -/
def State.stretch (s : State) (p d : Nat) : State :=
  let s1 := s.countUp (CLK_DROOP_CNT_COUNT p)
  let s2 := if s1.fld (CLK_DROOP_CNT_COUNT p) = 0 then s1.setFbit CLK_DROOP_STS_OVF p true else s1
  (s2.setFbit CLK_DROOP_STS_ACTIVE p true).setDepth p d

/-- STRETCH_EVENT. A stretch that continues is one event, so a second command changes the depth only (R68). -/
def execStretchEvent (p : Part) (depth : Nat) (s : State) : Host.Outcome State Fault Refusal :=
  if depth = 0 then .next s
  else if s.depthOf p = 0 then .next (s.stretch p depth)
  else .next (s.setDepth p depth)

/-- STRETCH_DEPTH_CHANGE: the depth of a stretch in progress changes (R67, R68). -/
def execStretchDepthChange (p : Part) (depth : Nat) (s : State) : Host.Outcome State Fault Refusal :=
  .next (if depth = 0 ∨ s.depthOf p = 0 then s else s.setDepth p depth)

/-- DROOP_RECOVERY: PCLK returns to its nominal period (R67). -/
def execDroopRecovery (p : Part) (s : State) : Host.Outcome State Fault Refusal :=
  .next ((s.setFbit CLK_DROOP_STS_ACTIVE p false).withBeat
    { s.beat with depth := Tbl.set (fun _ => 0) s.beat.depth p 0 })

/-- A write of 0 to CLK_DROOP_CNT_Pn: it and MAX_STRETCH clear, and a stretch in progress counts as seen from that write (R68). -/
def State.droopClear (s : State) (p : Nat) : State :=
  (s.setFld (CLK_DROOP_CNT_COUNT p) 0).setFld (CLK_PCLK_STS_MAX_STRETCH p) (s.depthOf p)

/-- DROOP_COUNTER_CLEAR. -/
def execDroopCounterClear (p : Part) (s : State) : Host.Outcome State Fault Refusal := .next (s.droopClear p)

/-! ### Time (R79, R81) -/

/-- The timestamp after `n` ticks, with the slew that is left and its phase: one increment withheld, or a second one added,
per 1024 ticks until the error is removed (R81). -/
def slewStep (ts : BitVec 64) (slew : Int) (phase n : Nat) : BitVec 64 × Int × Nat :=
  let k := min ((phase + n) / 1024) slew.natAbs
  if 0 < slew then (ts + BitVec.ofNat 64 (n - k), slew - k, (phase + n) % 1024)
  else if slew < 0 then (ts + BitVec.ofNat 64 (n + k), slew + k, (phase + n) % 1024)
  else (ts + BitVec.ofNat 64 n, 0, (phase + n) % 1024)

/-- `n` TCLK ticks pass; nothing counts before the first lock (R79).
(DESIGN CHOICE: assumption 20.) -/
def BeatSt.ticks (b : BeatSt) (n : Nat) : BeatSt :=
  if b.locked1st then
    let r := slewStep b.ts b.slew b.slewPhase n
    { b with tick := b.tick + n, ts := r.1, slew := r.2.1, slewPhase := r.2.2 }
  else b

/-- Whether the beat generator runs (R72). -/
def State.running (s : State) : Bool := s.flag BEAT_STS_RUNNING

/-- PCLK cycles of partition `p` per TCLK tick of 1.2 GHz, in units of `pclkUnit`: 2.4, 2.0, 1.6 or 1.2 GHz by the step, the slower of
the two while it changes (R66), over 16 + d sixteenths of the period in a stretch of depth d (R67). A compute domain that is not in
A0 has no PCLK (R350). -/
def State.pclkRate (s : State) (p : Nat) : Nat :=
  let step := max (s.fld (CLK_PCLK_STS_STEP p))
    (if s.flag (CLK_PCLK_STS_TRANSITION p) then s.fld (CLK_PCLK_STS_TARGET p) else 0)
  if s.awake p then (6 - step) * (232560 * 16 / (16 + s.depthOf p)) else 0

/-- `n` ticks of every partition's PCLK. -/
def State.pclkTicks (s : State) (n : Nat) : State :=
  (List.range 8).foldl (fun t p => t.setPpwr p { t.ppwr p with pclk := t.pclkOf p + n * s.pclkRate p }) s

/-- `n` FCLK cycles, which are as long as ticks, of every Adit that runs a descriptor and every Assay that runs a query (Tables 4-3,
10-6 and 17-6). -/
def State.busyTicks (s : State) (n : Nat) : State :=
  let s1 := s.adit.foldl (fun t e => if e.2.run.isSome then t.countBy (ADIT_BUSY_COUNT e.1) n else t) s
  s.asy.foldl (fun t e => if e.2.run.isSome then t.countBy (ASY_BUSY_COUNT e.1) n else t) s1

/-- Time passes up to tick `t`, and never past the boundary that is due (assumption 20). The first TCLK edge does the tally copies
that wait (R51). (DESIGN CHOICE: assumption 20.) -/
def State.timeTo (s : State) (t : Nat) : State :=
  let u := if s.running then min t s.beat.placed else t
  if u ≤ s.beat.tick ∨ s.beat.locked1st = false then s
  else
    let s1 := (s.withBeat (s.beat.ticks 1)).tallyEdge
    let s2 := s1.withBeat (s1.beat.ticks (u - s1.beat.tick))
    (((s2.pclkTicks (u - s.beat.tick)).busyTicks (u - s.beat.tick)).pmuEvent 8 (u - s.beat.tick) (fun _ => true) none).meshRun (u - s.beat.tick)

/-- One TCLK tick passes (assumption 20), and with it a cycle of the mesh, which moves before the first lock too.
(DESIGN CHOICE: assumption 20.) -/
def State.idleTick (s : State) : State :=
  if s.beat.locked1st then s.timeTo (s.beat.tick + 1) else s.meshRun 1

/-- SNAP: armed, and done at the next TCLK edge (R51). -/
def execSnap (mask : BitVec 8) (s : State) : Host.Outcome State Fault Refusal :=
  let s1 := s.tallyCmd mask.toNat 0 0
  .next (s1.timeTo (s1.beat.tick + 1))

/-- CLEAR: done at the next TCLK edge (R52). -/
def execClear (mask : BitVec 8) (s : State) : Host.Outcome State Fault Refusal :=
  let s1 := s.tallyCmd 0 mask.toNat 0
  .next (s1.timeTo (s1.beat.tick + 1))

/-! ### Effective beat values (R73, R83) -/

/-- P from the active BEAT_PERIOD. -/
def State.beatP (s : State) : Nat := min (max (s.act BEAT_PERIOD_TICKS) 6000) 2400000

/-- The effective window W. -/
def State.beatW (s : State) : Nat := min (min (max (s.act BEAT_SYNC_WIN_TICKS) 1) (s.beatP / 8)) 4800

/-- The effective minimum work M. -/
def State.beatM (s : State) : Nat := min (s.act BEAT_MIN_WORK_TICKS) s.beatP

/-- The shortest beat (R77). (DEDUCED: assumption 60.) -/
def State.beatMin (s : State) : Nat := max (s.beatP - s.beatW) s.beatM

/-- The effective slack (R83). -/
def State.beatSlack (s : State) : Nat := min (s.act BEAT_SLACK_TICKS) (s.beatP / 4)

/-! ### Placing a boundary from edges (R74 to R76) -/

/-- Sets the sync state and its status field (Table 4-13). -/
def State.setSync (s : State) (x : SyncState) : State :=
  (s.withBeat { s.beat with sync := x }).setFld BEAT_SYNC_STS_STATE
    (match x with | .off => 0 | .acquiring => 1 | .tracking => 2 | .free => 3)

/-- The value of t + j × P nearest `n`, the earlier of two equally near (R76). -/
def nearestEdge (t p n : Nat) : Int :=
  let d : Int := (n : Int) - (t : Int)
  let q := d / (p : Int)
  let lo : Int := t + q * p
  if (n : Int) - lo ≤ lo + p - n then lo else lo + p

/-- Where ACQUIRING places the boundary: place, whether M holds it, and whether it becomes TRACKING (R76). -/
def acqPlace (t n p w earliest : Nat) : Nat × Bool × Bool :=
  let d := nearestEdge t p n - n
  let e := max (-(w : Int)) (min d w)
  let at_ := ((n : Int) + e).toNat
  (max at_ earliest, decide (at_ < earliest), decide (d.natAbs ≤ w))

/-- Places the next boundary in ACQUIRING from the latest edge, if any (R76). -/
def State.acqPlan (s : State) : State :=
  match s.beat.lastEdge with
  | none => s
  | some t =>
    let r := acqPlace t s.beat.nom s.beatP s.beatW (s.beat.bk + s.beatM)
    s.withBeat { s.beat with placed := r.1, clamped := r.2.1 }

/-- t_e − N saturating at ±32,767, as OFFSET holds it (Table 4-13). -/
def offsetField (t n : Nat) : Nat :=
  let d := (t : Int) - (n : Int)
  let c := max (-32767) (min d 32767)
  (c % 65536).toNat

/-- The chain ends: TS_LOCKED reads 0 (R81). -/
def State.endChain (s : State) : State :=
  (s.withBeat { s.beat with chain := none, lockRun := 0 }).setFlag BEAT_SYNC_STS_TS_LOCKED false

/-- The beat after a load of the timestamp with `new`: the beat's boundary is dated on the new timeline too (R80, R447). -/
def BeatSt.loaded (b : BeatSt) (new : BitVec 64) : BeatSt :=
  { b with ts := new, slew := 0, slewPhase := 0, loadTs := false, loadCount := true, bkTs := b.bkTs + (new - b.ts)
           oldLines := b.oldLines ++ [⟨b.bkTs, b.ts⟩] }

/-- The timestamp part of a hit captured `ago` ticks back at timestamp `cap`; `cur` is the period still to add for the beat the
hit's boundary closes, and `skip` says that boundary is yet to come: the load of R80, else the chain of R81. What a chain that has
ended left to slew goes on until the next chain starts, which drops it.
(DEDUCED: assumption 70.) (DEDUCED: assumption 71.) -/
def State.tsHit (s : State) (ago : Nat) (cap : BitVec 64) (cur : Nat) (skip : Bool) : State :=
  if s.beat.loadTs then
    let pre := BitVec.ofNat 64 (s.dword BEAT_TS_PRESET_TIME.addr)
    let b := s.beat.loaded (pre + BitVec.ofNat 64 ago)
    let s1 := (s.withBeat b).endChain
    if s.act BEAT_SYNC_CTL_DISCIPLINE = 1 then
      s1.withBeat { s1.beat with chain := some ⟨pre, 0, skip⟩, lockRun := 1 }
    else s1
  else if s.act BEAT_SYNC_CTL_DISCIPLINE = 1 then
    match s.beat.chain with
    | none => s.withBeat { s.beat with chain := some ⟨cap, 0, skip⟩, lockRun := 1, slew := 0, slewPhase := 0 }
    | some c =>
      let exp := c.exp + BitVec.ofNat 64 (c.acc + cur)
      let e := (cap - exp).toInt
      let run := if e.natAbs ≤ 4 then s.beat.lockRun + 1 else 0
      let s1 := s.withBeat { s.beat with chain := some ⟨exp, 0, skip⟩, lockRun := run, slew := e, slewPhase := 0 }
      if 64 < e.natAbs then s1.setFlag BEAT_SYNC_STS_TS_LOCKED false
      else if 16 ≤ run then s1.setFlag BEAT_SYNC_STS_TS_LOCKED true
      else s1
  else s

/-- A miss: MISSED increments, and at the LOSS_N-th in a row SYNC_LOST (R75, R81).
(DEDUCED: assumption 71.) -/
def State.syncMiss (s : State) : State :=
  let s1 := (s.withBeat { s.beat with late := none, missRun := s.beat.missRun + 1 }).countSat BEAT_SYNC_CNT_MISSED
  if s1.beat.missRun < max (s1.fld BEAT_SYNC_LOSS_N_N) 1 then s1
  else
    let s2 := (s1.setFlag BEAT_SYNC_STS_SYNC_LOST true).logD ev_SYNC_LOST blkBeat 0 [s1.fld BEAT_COUNT_COUNT]
    let s3 := if s2.flag BEAT_SYNC_CTL_LOST_IRQ_EN then s2.raise 3 else s2
    let s4 := s3.endChain
    let b := { s4.beat with missRun := 0, lastEdge := none, winEdge := none, hit := false }
    if s.act BEAT_SYNC_CTL_AUTO_REACQ = 1 then (s4.withBeat b).setSync .acquiring
    else (s4.withBeat b).setSync .free

/-- Closes, at its own time, a late window that ends before tick `t` (R74, R75). -/
def State.closePast (s : State) (t : Nat) : State :=
  match s.beat.late with
  | some w => if w.close < t then (s.timeTo w.close).syncMiss else s
  | none => s

/-- SYNC_MISS: the open window closes without a hit; time moves to its close if that is still ahead (R75). -/
def execSyncMiss (s : State) : Host.Outcome State Fault Refusal :=
  match s.beat.late with
  | some w => .next ((s.timeTo w.close).syncMiss)
  | none => .next s

/-- The late hit of window `w` at tick `t`: OFFSET, the timestamp, and the place of the next boundary (R74, held within R77).
(DEDUCED: assumption 60.) -/
def State.lateHit (s : State) (w : LateWin) (t : Nat) : State :=
  let s1 := (s.setFld BEAT_SYNC_STS_OFFSET (offsetField t w.nom)).tsHit 0 s.beat.ts 0 false
  let want := min (min t (w.nom + s.beatW) + s.beatP) (s.beat.bk + s.beatP + s.beatW)
  let n := max want (s.beat.bk + s.beatMin)
  s1.withBeat { s1.beat with
    late := none, missRun := 0, nom := n, placed := n, clamped := decide (want < s.beat.bk + s.beatM) }

/-- The early hit of the coming boundary at tick `t` (R74, held within R77).
(DEDUCED: assumption 60.) -/
def State.earlyHit (s : State) (t : Nat) : State :=
  let s1 := (s.setFld BEAT_SYNC_STS_OFFSET (offsetField t s.beat.nom)).tsHit 0 s.beat.ts s.beatP true
  s1.withBeat { s1.beat with
    hit := true, missRun := 0, placed := max t (s.beat.bk + s.beatMin), clamped := decide (t < s.beat.bk + s.beatM) }

/-- An edge in TRACKING: late hit, early hit, or ignored and counted (R74). -/
def State.trackEdge (s : State) (t : Nat) : State :=
  match s.beat.late with
  | some w =>
    if t ≤ w.close then s.lateHit w t
    else s.countSat BEAT_SYNC_CNT_OUTSIDE
  | none =>
    if !s.beat.hit && decide (s.beat.nom ≤ t + s.beatW) && decide (t ≤ s.beat.nom) then s.earlyHit t
    else s.countSat BEAT_SYNC_CNT_OUTSIDE

/-- An edge in ACQUIRING: it places the boundary (R76), and the first one in the window the boundary has if it tracks is kept.
(DEDUCED: assumption 70.) -/
def State.acqEdge (s : State) (t : Nat) : State :=
  let inWin := decide (s.beat.nom ≤ t + s.beatW) && decide (t ≤ s.beat.nom + s.beatW)
  let we := if inWin && s.beat.winEdge.isNone then some (t, s.beat.ts) else s.beat.winEdge
  (s.withBeat { s.beat with lastEdge := some t, winEdge := we }).acqPlan

/-- SYNC_EDGE: an edge captured at tick `t`, or now if that is past (R73 to R76). Edges while OFF or FREE are ignored and not
counted. -/
def execSyncEdge (t : Nat) (s : State) : Host.Outcome State Fault Refusal :=
  let s1 := (s.closePast (max t s.beat.tick)).timeTo t
  if !s1.running then .next s1
  else match s1.beat.sync with
    | .off => .next s1
    | .free => .next s1
    | .acquiring => .next (s1.acqEdge s1.beat.tick)
    | .tracking => .next (s1.trackEdge s1.beat.tick)

/-- A write of 1 to REACQ: remembered only while the active MODE is 1 (R75). -/
def State.armReacq (s : State) : State :=
  if s.running && decide (s.act BEAT_SYNC_CTL_MODE = 1) then s.withBeat { s.beat with reacq := true } else s

/-- REACQ. -/
def execReacq (s : State) : Host.Outcome State Fault Refusal := .next s.armReacq

/-- A write of 1 to TS_LOAD arms a load (R80). (DEDUCED: assumption 71.) -/
def State.armLoad (s : State) : State :=
  (s.withBeat { s.beat with loadTs := true }).setFlag BEAT_SYNC_STS_TS_LOAD_PEND true

/-- TS_LOAD. -/
def execTsLoad (s : State) : Host.Outcome State Fault Refusal := .next s.armLoad

/-! ### The generator's own part of a boundary (R72 to R77, R80, R81) -/

/-- The sync state reached at a boundary: the hit of a boundary that enters TRACKING, or its open late side (R74, R76). `pOld`
and `wOld` are the closed beat's P and W. (DEDUCED: assumption 70.) -/
def State.turnSync (s : State) (n pOld wOld : Nat) : State :=
  let b := s.beat
  match b.sync with
  | .off => s
  | .free => s
  | .tracking => if b.hit then s else s.withBeat { b with late := some ⟨n, n + wOld⟩ }
  | .acquiring =>
    match b.lastEdge with
    | none => s
    | some t =>
      if (acqPlace t n pOld wOld 0).2.2 then
        let s1 := s.setSync .tracking
        match b.winEdge with
        | some (te, cap) =>
          ((s1.setFld BEAT_SYNC_STS_OFFSET (offsetField te n)).withBeat { s1.beat with missRun := 0, hit := true }).tsHit
            (b.tick - te) cap 0 false
        | none => s1.withBeat { s1.beat with missRun := 0, late := some ⟨n, n + wOld⟩ }
      else s

/-- The closed beat's period joins the chain, unless the boundary is the hit's own (R81). -/
def State.turnChain (s : State) (pOld : Nat) : State :=
  match s.beat.chain with
  | none => s
  | some c =>
    if c.skip then s.withBeat { s.beat with chain := some { c with skip := false } }
    else s.withBeat { s.beat with chain := some { c with acc := c.acc + pOld } }

/-- MODE and REACQ as the new active values have them (R75); `was` is the active MODE before the boundary. A REACQ taken while the state
already is ACQUIRING starts the acquisition again, without the most recent edge. (DESIGN CHOICE: assumption 126.) -/
def State.turnMode (s : State) (was : Nat) : State :=
  let drop := { s.beat with late := none, hit := false, missRun := 0, lastEdge := none, winEdge := none, reacq := false }
  if s.act BEAT_SYNC_CTL_MODE = 0 then (s.withBeat drop).setSync .off
  else if was = 0 ∨ s.beat.reacq = true then (s.withBeat drop).setSync .acquiring
  else s

/-- BEAT_COUNT at a boundary: the preset at the loading boundary, 0 at boundary 0, else one more (R72, R80). -/
def State.turnCount (s : State) : State :=
  if s.beat.loadCount then
    ((s.setFld BEAT_COUNT_COUNT (s.fld BEAT_COUNT_PRESET_COUNT)).setFlag BEAT_SYNC_STS_TS_LOAD_PEND s.beat.loadTs).withBeat
      { s.beat with loadCount := false }
  else s.countUp BEAT_COUNT_COUNT

/-- The late side of a window closes before the next window opens (R74). -/
def State.turnClose (s : State) : State :=
  match s.beat.late with
  | some w =>
    let o := s.beat.nom - s.beatW
    s.withBeat { s.beat with late := some { w with close := min w.close (o - 1) } }
  | none => s

/-- Whether a command now falls in the TCLK cycle of the boundary that is due (Tables 0-9, 2-19, 3-13, 5-6): the tick is the
boundary's, and the queue has yet to reach it. (DESIGN CHOICE: assumption 121.) -/
def State.inCycle (s : State) : Bool := s.running && s.beat.tick == s.beat.placed

/-- Keeps the registers as they stand before the first write of a boundary's own cycle (Table 0-9).
(DESIGN CHOICE: assumption 121.) -/
def State.noteCycle (s : State) : State :=
  if s.inCycle && s.beat.cycle.all (fun c => c.tick != s.beat.tick) then s.withBeat { s.beat with cycle := some ⟨s.beat.tick, s.regs⟩ }
  else s

/-- The values that take effect at the boundary of this tick: what was written in its own cycle waits for the next one (Table 0-9).
(DESIGN CHOICE: assumption 121.) -/
def State.turnRegs (s : State) : Tbl (BitVec 32) :=
  match s.beat.cycle with
  | some c => if c.tick = s.beat.tick then c.regs else s.regs
  | none => s.regs

/-- A boundary as far as the beat generator goes: it falls at its placed time, values written before its cycle take effect, the sync
state turns, and the next boundary is placed. Boundary 0 is `beatStart`. -/
def State.beatTurn (s0 : State) : State :=
  let s := (s0.closePast s0.beat.placed).timeTo s0.beat.placed
  let b := s.beat
  let pOld := s.beatP
  let wOld := s.beatW
  let was := s.act BEAT_SYNC_CTL_MODE
  let s1 := s.setFld BEAT_STS_LAST_LEN (b.tick - b.bk)
  let s2 := if b.clamped then s1.countSat BEAT_SYNC_CNT2_CLAMPED else s1
  let s3 := (s2.turnChain pOld).turnSync b.nom pOld wOld
  let s4 := { s3 with active := s3.turnRegs }
  let s5 := s4.turnMode was
  let s6 := if s5.act BEAT_SYNC_CTL_DISCIPLINE = 0 ∨ s5.beat.sync ≠ .tracking then s5.endChain else s5
  let s7 := s6.turnCount
  let n := s7.beat.tick + s7.beatP
  let out := if s7.flag BEAT_SYNC_CTL_OUT_EN then s7.beat.tick + 64 else s7.beat.outUntil
  let s8 := s7.withBeat { s7.beat with
    idx := s7.beat.idx + 1, prevDl := s.act ADM_CTL_BODY_DL, bk := s7.beat.tick, bkTs := s7.beat.ts,
    nom := n, placed := n, clamped := false, hit := false, winEdge := none, outUntil := out, cycle := none, oldLines := [] }
  let s9 := if s8.beat.sync = .acquiring then s8.acqPlan else s8
  s9.turnClose

/-- Boundary 0: RUN is set and the generator starts (R72, R383). -/
def State.beatStart (s : State) : State :=
  let s1 := { (s.setFlag BEAT_STS_RUNNING true).setFld BEAT_COUNT_COUNT 0 with active := s.regs }
  let s2 := if s1.act BEAT_SYNC_CTL_MODE = 1 then s1.setSync .acquiring else s1
  let n := s2.beat.tick + s2.beatP
  let out := if s2.flag BEAT_SYNC_CTL_OUT_EN then s2.beat.tick + 64 else s2.beat.outUntil
  s2.withBeat { s2.beat with
    idx := 0, bk := s2.beat.tick, bkTs := s2.beat.ts, nom := n, placed := n, clamped := false,
    hit := false, late := none, lastEdge := none, winEdge := none, missRun := 0, outUntil := out, cycle := none, oldLines := [] }

/-- BEAT_SYNC_OUT is high for 64 ticks from each boundary at which OUT_EN is set (R78); a pulse that has begun runs its length, whatever
OUT_EN becomes. (DESIGN CHOICE: assumption 125.) -/
def State.syncOut (s : State) : Bool := decide (s.beat.tick < s.beat.outUntil)

end Sys2Proof.Machine
end

