-- ==== Sys2Proof/Machine/Mem.lean ====
section
/-!
DEFINITION. Machine/Mem.lean: the local address map, claims, stack controllers with error check and write combining, and the far
tier (chapter 12; R267 to R269, R274).
-/
namespace Sys2Proof.Machine

/-- BLOCK code of CLM (Table 0-8). -/
def blkClm : Nat := 9
/-- BLOCK code of FAR. -/
def blkFar : Nat := 13

/-- Replaces the memory state. -/
def State.withMem (s : State) (m : MemSt) : State := { s with mem := m }

/-! ### The address map (R232 to R234, R249, R250, R274) -/

/-- What a local physical address names (Table 12-2). -/
inductive Loc where
  | stack (n : Nat)
  | ddr (ch : Nat)
  | cxl (dev : Nat)
  | regs
  | aperture (w : Nat)
  | none
deriving DecidableEq, Repr

/-- This chip's number; 63 acts as 0 (Table 13-10). -/
def State.chip (s : State) : Nat := if s.fld MMU_CTL_CHIP = 63 then 0 else s.fld MMU_CTL_CHIP

/-- The chip bits of a physical address (R274). -/
def chipBits (pa : Nat) : Nat := pa / 2 ^ 46 % 64

/-- The local part of a physical address (R232). -/
def localPa (pa : Nat) : Nat := pa % 2 ^ 46

/-- Whether a physical address names this chip (R274). -/
def State.isLocal (s : State) (pa : Nat) : Bool := chipBits pa == 63 || chipBits pa == s.chip

/-- The enabled CXL window that covers local address `a` (R250, R254). -/
def State.cxlWin (s : State) (a : Nat) : Option Nat :=
  (List.range 4).find? (fun i => s.flag (FAR_CXL_WIN_CTL_EN i) && decide (s.fld (FAR_CXL_WIN_CTL_WAYS i) ≤ 3) &&
    decide (s.fld (FAR_CXL_WIN_BASE_BASE i) * 2 ^ 28 ≤ a) &&
    decide (a < s.fld (FAR_CXL_WIN_BASE_BASE i) * 2 ^ 28 + s.fld (FAR_CXL_WIN_CTL_SIZE_GIB i) * 2 ^ 30))

/-- The device that a CXL window's interleave selects for `a`: pieces of 256 B × 2^GRAN go round its ways, and TGT names each way's
device (R250, Table 12-7). -/
def State.cxlDev (s : State) (i a : Nat) : Nat :=
  let o := a - s.fld (FAR_CXL_WIN_BASE_BASE i) * 2 ^ 28
  let way := o / (256 * 2 ^ min (s.fld (FAR_CXL_WIN_CTL_GRAN i)) 6) % 2 ^ s.fld (FAR_CXL_WIN_CTL_WAYS i)
  s.fld (FAR_CXL_WIN_TGT_TGT i) / 16 ^ way % 16

/-- The DDR5 channel of offset `o` in the far tier's window: bit [8] where two channels of equal capacity interleave, else channel 0 and
channel 1 behind it (R249). -/
def State.ddrChannel (s : State) (o : Nat) : Nat :=
  let c0 := s.fld FAR_DDR_CFG_CH0_GIB
  if s.flag FAR_DDR_CFG_ILV && c0 == s.fld FAR_DDR_CFG_CH1_GIB then o / 2 ^ 8 % 2
  else if o < c0 * 2 ^ 30 then 0 else 1

/-- Decodes a local physical address; an address that is not populated is `none` (Table 12-2, R234). -/
def State.loc (s : State) (a : Nat) : Loc :=
  if a < 0x004000000000 then
    (if a % 0x000800000000 < 24 * 2 ^ 30 then .stack (a / 0x000800000000) else .none)
  else if 0x010000000000 ≤ a ∧ a < 0x020000000000 then
    (if a - 0x010000000000 < (s.fld FAR_DDR_CFG_CH0_GIB + s.fld FAR_DDR_CFG_CH1_GIB) * 2 ^ 30 then
      .ddr (s.ddrChannel (a - 0x010000000000)) else .none)
  else if 0x100000000000 ≤ a ∧ a < 0x140000000000 then
    (match s.cxlWin a with | some i => .cxl (s.cxlDev i a) | none => .none)
  else if 0x200000000000 ≤ a ∧ a < 0x240000000000 then .aperture ((a - 0x200000000000) / 0x001000000000)
  else if 0x3F0000000000 ≤ a ∧ a < 0x3F0004000000 then .regs
  else .none

/-- Whether a place is populated for local requests (R234, R276). -/
def Loc.populated : Loc → Bool
  | .stack _ => true
  | .ddr _ => true
  | .cxl _ => true
  | .regs => true
  | .aperture _ => false
  | .none => false

/-- The channel group of a byte of a stack window (R233). -/
def groupOf (a : Nat) : Nat := (a / 2 ^ 7 % 4) ^^^ (a / 2 ^ 15 % 4)

/-- Key of the WCB of group `g` of stack `k`. -/
def wcbKey (k g : Nat) : Nat := 4 * k + g

/-- The role in effect of a partition (R90). -/
def State.role (s : State) (p : Nat) : Nat := s.fld (PCTL_ROLE_ROLE_ACTIVE p)

/-! ### Claims (R267 to R269) -/

/-- Who sends a request: CID, SOURCE code, partition, chip, and the stop it leaves from. -/
structure Req where
  cid : Nat
  source : Nat
  part : Nat
  chip : Nat
  stop : Nat
deriving DecidableEq, Repr

/-- The request of command operands. -/
def reqOf (q : ReqArgs) : Req := ⟨q.cid.toNat, q.source.toNat, q.part.val, q.chip.toNat, sourceStop q.source.toNat q.part.val⟩

/-- A request of the device's own with the SYSTEM CID (R257). -/
def State.sysReq (s : State) (source part : Nat) : Req := ⟨0xFFF, source, part, s.chip, sourceStop source part⟩

/-- Whether a request reaches the stack of partition `p` through its memory crossbar: from its L2 banks, Adit, Assay or plat (R284). -/
def Req.crossbar (q : Req) (p : Nat) : Bool :=
  stopPart q.stop == p && (match stopKind q.stop with
    | .bank _ _ => true
    | .plat _ => true
    | .adit _ => true
    | .assay _ => true
    | _ => false)

/-- The flits that a request for one granule piece and its response leave on the Traverse (R284). -/
def State.trvMem (s : State) (q : Req) (a : Nat) : State :=
  let t := paStop a
  if decide (a < 0x004000000000) && q.crossbar (a / 0x000800000000) then s
  else (s.trvUse q.stop t 0 1).trvUse t q.stop 1 1

/-- The claim entry of the granule of local address `a`. -/
def State.claimOf (s : State) (a : Nat) : Nat := (Tbl.get (fun _ => 0) s.claims (a / 2 ^ 21)).toNat

/-- Whether an entry permits CID `q` an access that reads, writes or both (R267). -/
def claimOk (e q : Nat) (r w : Bool) : Bool :=
  ((q ^^^ (e % 4096)) &&& (e / 4096 % 4096)) == 0 && (!r || e.testBit 24) && (!w || e.testBit 25)

/-- Whether the claim check lets the request through at local address `a` (R267, R234). Register space answers clusters only, and
not by this path (R263). -/
def State.claimed (s : State) (q : Req) (a : Nat) (r w : Bool) : Bool :=
  (s.loc a).populated && decide (s.loc a ≠ .regs) && (q.cid == 0xFFF || claimOk (s.claimOf a) q.cid r w)

/-- Records one denial: count, address, information, sticky bit, event, message (R268). -/
def State.deny (s : State) (q : Req) (pa : Nat) (write : Bool) : State :=
  let s1 := (s.countSat CLM_DENY_CNT_COUNT).setFld CLM_DENY_ADDR_PA pa
  let s2 := (s1.setFlag CLM_DENY_ADDR_VALID true).setFld CLM_DENY_INFO_SOURCE q.source
  let s3 := (s2.setFlag CLM_DENY_INFO_WRITE write).setFld CLM_DENY_INFO_SRC_CHIP q.chip
  let s4 := (s3.setFld CLM_DENY_INFO_PART q.part).setFld CLM_DENY_INFO_CID q.cid
  let s5 := (s4.setFlag CLM_STS_DENY true).logD ev_CLAIM_DENIED blkClm pa [q.cid, q.chip]
  if s5.flag CLM_CTL_DENY_IRQ_EN then s5.raise 6 else s5

/-! ### Granules in the DRAM (R238, R239) -/

/-- The physical error of a granule. -/
def MemSt.err (m : MemSt) (g : Nat) : EccErr := Tbl.get (fun _ => EccErr.none) m.ecc g

/-- Sets it. -/
def MemSt.setErr (m : MemSt) (g : Nat) (e : EccErr) : MemSt := { m with ecc := Tbl.set (fun _ => EccErr.none) m.ecc g e }

/-- POISON of a granule. -/
def MemSt.poisoned (m : MemSt) (g : Nat) : Bool := Tbl.get (fun _ => false) m.poison g

/-- Sets it. -/
def MemSt.setPoison (m : MemSt) (g : Nat) (b : Bool) : MemSt := { m with poison := Tbl.set (fun _ => false) m.poison g b }

/-- Where errors of a granule are reported: a stack's registers or those of the far tier (R238, R248). -/
inductive ErrSite where
  | stk (n : Nat)
  | far
deriving DecidableEq, Repr

/-- The site that reports errors at a local address. -/
def errSite (a : Nat) : ErrSite := if a < 0x004000000000 then .stk (a / 0x000800000000) else .far

/-- A corrected error is counted, recorded and logged (R238). -/
def State.ceAt (s : State) (a : Nat) : State :=
  match errSite a with
  | .stk n =>
    let s1 := ((s.countSat (STK_CE_CNT_COUNT n)).setFlag (STK_ERR_ADDR_VALID n) true).setFlag (STK_ERR_ADDR_UE n) false
    let s2 := (s1.setFld (STK_ERR_ADDR_ADDR n) (a / 64)).logD ev_STK_CE (blkPart n) a []
    if s2.flag (STK_CTL_CE_IRQ_EN n) then s2.raisePart n (50 + n) 2 else s2
  | .far =>
    let s1 := ((s.countSat FAR_CE_CNT_COUNT).setFlag FAR_ERR_ADDR_VALID true).setFlag FAR_ERR_ADDR_UE false
    (s1.setFld FAR_ERR_ADDR_ADDR (a / 64)).logD ev_FAR_CE blkFar a []

/-- An uncorrectable error is counted, recorded and logged (R238). -/
def State.ueAt (s : State) (q : Req) (a : Nat) : State :=
  match errSite a with
  | .stk n =>
    let s1 := ((s.countSat (STK_UE_CNT_COUNT n)).setFlag (STK_ERR_ADDR_VALID n) true).setFlag (STK_ERR_ADDR_UE n) true
    let s2 := (s1.setFld (STK_ERR_ADDR_ADDR n) (a / 64)).logD ev_STK_UE (blkPart n) a [q.cid, q.source]
    if s2.flag (STK_CTL_UE_IRQ_EN n) then s2.raisePart n (50 + n) 2 else s2
  | .far =>
    let s1 := ((s.countSat FAR_UE_CNT_COUNT).setFlag FAR_ERR_ADDR_VALID true).setFlag FAR_ERR_ADDR_UE true
    (s1.setFld FAR_ERR_ADDR_ADDR (a / 64)).logD ev_FAR_UE blkFar a [q.cid, q.source]

/-- Counts bytes read at the DRAM of a stack (Table 12-6). -/
def State.rdBytes (s : State) (a n : Nat) : State :=
  match errSite a with | .stk k => s.countBy (STK_RD_BYTES_COUNT k) n | .far => s

/-- Counts bytes written at the DRAM of a stack. -/
def State.wrBytes (s : State) (a n : Nat) : State :=
  match errSite a with | .stk k => s.countBy (STK_WR_BYTES_COUNT k) n | .far => s

/-- Reads the granule that holds address `a` for its code: whether it is good, and the errors it shows corrected, rewritten, counted and
logged (R238, R239). A granule with both kinds of error is uncorrectable. -/
def State.granuleRead (s : State) (q : Req) (a : Nat) : Bool × State :=
  let g := a / 64
  let s1 := s.rdBytes a 64
  if s.mem.poisoned g = true ∨ s.mem.err g = .ue then (false, s1.ueAt q (g * 64))
  else if s.mem.err g = .ce then (true, ((s1.withMem (s1.mem.setErr g .none)).wrBytes a 64).ceAt (g * 64))
  else (true, s1)

/-! ### Write combining (R242 to R245) -/

/-- The WCB of a group. -/
def MemSt.wcbOf (m : MemSt) (k : Nat) : WcbGroup := Tbl.get (fun _ => (⟨[], []⟩ : WcbGroup)) m.wcb k

/-- Replaces it. -/
def MemSt.setWcb (m : MemSt) (k : Nat) (w : WcbGroup) : MemSt := { m with wcb := Tbl.set (fun _ => (⟨[], []⟩ : WcbGroup)) m.wcb k w }

/-- The byte of an entry at offset `o` of its line, where its mask covers it. -/
def WcbEntry.at_ (e : WcbEntry) (o : Nat) : Option Byte := Tbl.get (fun _ => (none : Option Byte)) e.bytes o

/-- Merges bytes from offset `o` on. -/
def WcbEntry.merge (e : WcbEntry) : Nat → List Byte → WcbEntry
  | _, [] => e
  | o, b :: t => WcbEntry.merge { e with bytes := Tbl.set (fun _ => (none : Option Byte)) e.bytes o (some b) } (o + 1) t

/-- The byte at address `a` of the newest entry that covers it (R245); entries are oldest first. -/
def forwarded (es : List WcbEntry) (a : Nat) : Option Byte :=
  es.foldl (fun r e => if e.line = a / 128 then (match e.at_ (a % 128) with | some b => some b | none => r) else r) none

/-- Index of a drain cause (Table 12-5). -/
def DrainCause.idx : DrainCause → Nat
  | .full => 0
  | .age => 1
  | .fence => 2
  | .capacity => 3
  | .other => 4

/-- Counts a drain (Table 12-5). -/
def State.countDrain (s : State) (k : Nat) (c : DrainCause) : State := s.countUp (WCB_DRAIN_CNT_COUNT (k / 4) (k % 4) c.idx)

/-- Starts draining the entries that satisfy `f` and do not drain yet, oldest first, each counted once (R243). -/
def State.startDrain (s : State) (k : Nat) (c : DrainCause) (f : WcbEntry → Bool) : State :=
  let w := s.mem.wcbOf k
  let go := w.entries.filter (fun e => e.draining.isNone && f e)
  let es := w.entries.map (fun e => if e.draining.isNone && f e then { e with draining := some c } else e)
  let s1 := s.withMem (s.mem.setWcb k { w with entries := es })
  go.foldl (fun t _ => t.countDrain k c) s1

/-- Whether every mask bit of an entry is set. -/
def WcbEntry.full (e : WcbEntry) : Bool := e.bytes.length == 128

/-- Starts the drain of full entries (R243). -/
def State.drainFull (s : State) (k : Nat) : State := s.startDrain k .full WcbEntry.full

/-- How many mask bits of half `h` of an entry are set. -/
def WcbEntry.halfCount (e : WcbEntry) (h : Nat) : Nat := (e.bytes.filter (fun x => x.1 / 64 == h)).length

/-- Puts the covered bytes of half `h` into memory. -/
def Mem.putEntry (m : Mem) (e : WcbEntry) (h : Nat) : Mem :=
  e.bytes.foldl (fun t x => if x.1 / 64 = h then (match x.2 with | some b => Mem.put t (e.line * 128 + x.1) b | none => t) else t) m

/-- The granule write of half `h` of an entry: whole, read-modify-write, or nothing (R243, R239).
(DEDUCED: assumption 81.) -/
def State.drainHalf (s : State) (k : Nat) (e : WcbEntry) (h : Nat) : State :=
  let a := e.line * 128 + h * 64
  let n := e.halfCount h
  if n = 0 then s
  else if n = 64 then
    let m := (s.mem.setErr (a / 64) .none).setPoison (a / 64) false
    (s.withMem { m with bytes := Mem.putEntry m.bytes e h }).wrBytes a 64
  else
    let q := s.sysReq 7 (k / 4)
    let r := s.granuleRead q a
    let s1 := r.2.countUp (WCB_RMW_CNT_COUNT (k / 4) (k % 4))
    let m := (s1.mem.setErr (a / 64) .none).setPoison (a / 64) (!r.1)
    let s2 := (s1.withMem { m with bytes := Mem.putEntry m.bytes e h }).wrBytes a 64
    if r.1 then s2 else s2.logD ev_POISON_WRITTEN (blkPart (k / 4)) a []

/-- Whether a drain request still waits on some entry. -/
def MemSt.marked (m : MemSt) (r : DrainReq) : Bool :=
  r.groups.any (fun k => (m.wcbOf k).entries.any (fun e => e.marks.contains r.id))

/-- A drain request answers (R244): the status its source shows. Of several DRAIN requests of a partition the last one counts. -/
def State.drainAnswer (s : State) (r : DrainReq) : State :=
  match r.src with
  | .ctl p =>
    if s.mem.drains.any (fun x => decide (x.src = .ctl p)) then s
    else (s.setFlag (WCB_STS_DRAIN_BUSY p) false).setFlag (WCB_STS_DRAIN_DONE p) true
  | .ext => s.send (.drained (r.groups.headD 0 / 4) (r.groups.headD 0 % 4))
  | .fence _ _ => s
  | .maint _ _ => s
  | .flush _ => s
  | .retention _ => s

/-- Answers the requests none of whose entries is left. -/
def State.answerDrains (s : State) : State :=
  let fin := s.mem.drains.filter (fun r => !s.mem.marked r)
  let s1 := s.withMem { s.mem with drains := s.mem.drains.filter s.mem.marked }
  fin.foldl State.drainAnswer s1

/-- Writes one line piece into the WCB of group `k`, with a free entry or a line to merge into (R242). -/
def State.wcbMerge (s : State) (k : Nat) (w : WcbWrite) : State :=
  let g := s.mem.wcbOf k
  let line := w.addr / 128
  let hit := g.entries.any (fun e => e.draining.isNone && e.line == line)
  let es := if hit then
      g.entries.map (fun e => if e.draining.isNone && e.line == line then e.merge (w.addr % 128) w.data else e)
    else g.entries ++ [WcbEntry.merge ⟨line, [], s.beat.tick, none, []⟩ (w.addr % 128) w.data]
  (s.withMem (s.mem.setWcb k { g with entries := es })).drainFull k

/-- Whether a write can merge now: an entry holds its line, or fewer than 64 are in use, and no earlier write waits. -/
def WcbGroup.accepts (g : WcbGroup) (w : WcbWrite) : Bool :=
  g.stalled.isEmpty && (g.entries.any (fun e => e.draining.isNone && e.line == w.addr / 128) || decide (g.entries.length < 64))

/-- The first non-draining entry of a group's list. -/
def oldestLive : List WcbEntry → Option WcbEntry
  | [] => none
  | e :: t => if e.draining.isNone then some e else oldestLive t

/-- A write needs an entry while all 64 are in use: the oldest entry drains for CAPACITY, unless it drains already (R243). -/
def State.drainCapacity (s : State) (k : Nat) : State :=
  let g := s.mem.wcbOf k
  match g.entries with
  | e :: _ => if 64 ≤ g.entries.length then s.startDrain k .capacity (fun x => decide (x = e)) else s
  | [] => s

/-- Whether a piece of write `id` still waits at some controller. -/
def MemSt.writeWaits (m : MemSt) (id : Nat) : Bool := m.wcb.any (fun g => g.2.stalled.any (fun w => w.id == id))

/-- A write number that no waiting piece has. -/
def MemSt.newWrite (m : MemSt) : Nat := m.wcb.foldl (fun n g => g.2.stalled.foldl (fun k w => max k w.id) n) 0 + 1

/-- A use that invalidation commands waited for has ended (R271). -/
def State.useEnd (s : State) (u : TransUse) : State :=
  { s with mmu := { s.mmu with waits := s.mmu.waits.filter (fun x => decide (x ≠ u)) } }

/-- A waiting write has merged: with its last piece its request is acknowledged (R242). -/
def State.ackMerged (s : State) (id : Nat) : State :=
  if id = 0 ∨ s.mem.writeWaits id = true then s else (s.send (.completion (.ok []))).useEnd (.write id)

/-- Merges waiting writes while they can. -/
def State.retryStalled (s : State) (k : Nat) : List WcbWrite → State
  | [] => s
  | w :: t =>
    let g := s.mem.wcbOf k
    if WcbGroup.accepts { g with stalled := [] } w then
      (((s.withMem (s.mem.setWcb k { g with stalled := t })).wcbMerge k w).ackMerged w.id).retryStalled k t
    else (s.withMem (s.mem.setWcb k { g with stalled := w :: t })).drainCapacity k

/-- Removes the oldest draining entry from a list. -/
def takeDraining : List WcbEntry → Option (WcbEntry × List WcbEntry)
  | [] => none
  | e :: t =>
    if e.draining.isSome then some (e, t)
    else match takeDraining t with
      | some (x, r) => some (x, e :: r)
      | none => none

/-- Frees the oldest draining entry of group `k`: its granule writes are performed, waiting writes retry, and drain requests
answer (R243, R244). -/
def State.freeEntry (s : State) (k : Nat) : State :=
  let g := s.mem.wcbOf k
  match takeDraining g.entries with
  | none => s
  | some (e, rest) =>
    let s1 := (s.drainHalf k e 0).drainHalf k e 1
    let s2 := s1.withMem (s1.mem.setWcb k { g with entries := rest })
    (s2.retryStalled k g.stalled).answerDrains

/-- Frees draining entries of group `k`, at most `n`. -/
def State.freeEntries (s : State) (k : Nat) : Nat → State
  | 0 => s
  | n + 1 => if (s.mem.wcbOf k).entries.any (fun e => e.draining.isSome) then (s.freeEntry k).freeEntries k n else s

/-- A write to one line that waits at the controller where it must (R243): CAP_STALL shows it. -/
def State.wcbArrive (s : State) (k : Nat) (w : WcbWrite) : State :=
  let g := s.mem.wcbOf k
  if g.accepts w then s.wcbMerge k w
  else (s.withMem (s.mem.setWcb k { g with stalled := g.stalled ++ [w] })).drainCapacity k

/-- A write to one line whose source waits for its acknowledgement: entries are freed until it has merged (R242).
(DESIGN CHOICE: assumption 80.) -/
def State.wcbWait (s : State) (k : Nat) (w : WcbWrite) : State :=
  let s1 := s.wcbArrive k w
  if (s1.mem.wcbOf k).stalled.isEmpty then s1 else s1.freeEntries k (64 + (s1.mem.wcbOf k).stalled.length)

/-- A drain request arrives at the groups: every entry present is marked and starts to drain (R244). -/
def State.drainRequest (s : State) (src : DrainSrc) (c : DrainCause) (groups : List Nat) : State :=
  let id := s.mem.drainId
  let s1 := s.withMem { s.mem with drainId := id + 1, drains := s.mem.drains ++ [⟨id, src, groups⟩] }
  let s2 := groups.foldl (fun t k =>
    let g := t.mem.wcbOf k
    let t1 := t.withMem (t.mem.setWcb k { g with entries := g.entries.map (fun e => { e with marks := e.marks ++ [id] }) })
    t1.startDrain k c (fun _ => true)) s1
  s2.answerDrains

/-- A drain request whose source waits for the answer: every marked entry is freed. -/
def State.drainWait (s : State) (src : DrainSrc) (c : DrainCause) (groups : List Nat) : State :=
  groups.foldl (fun t k => t.freeEntries k 64) (s.drainRequest src c groups)

/-- The four groups of partition `p`. -/
def partGroups (p : Nat) : List Nat := [4 * p, 4 * p + 1, 4 * p + 2, 4 * p + 3]

/-! ### Requests to memory -/

/-- How a request to memory ends. -/
inductive MemRes where
  | ok (data : List Byte)
  | denied (pa : Nat)
  | ue (pa : Nat)
deriving DecidableEq, Repr

/-- Splits `n` bytes at `a` into pieces that each lie in one granule. -/
def pieces : Nat → Nat → Nat → List (Nat × Nat)
  | 0, _, _ => []
  | _, _, 0 => []
  | fuel + 1, a, n =>
    let k := min n (64 - a % 64)
    (a, k) :: pieces fuel (a + k) (n - k)

/-- The granule pieces of `n` bytes at `a`. -/
def granules (a n : Nat) : List (Nat × Nat) := pieces (n / 64 + 2) a n

/-- Whether the stack of an OFF partition is asked (R234). (DEDUCED: assumption 82.) -/
def State.roleOffAt (s : State) (a : Nat) : Bool :=
  match s.loc a with
  | .stack n => s.role n == 0
  | _ => false

/-- Reports the abort of a request at address `a` (R234, R268). (DEDUCED: assumption 82.) -/
def State.abortAt (s : State) (q : Req) (a : Nat) (write : Bool) : State :=
  if s.roleOffAt a then s.logD ev_ROLE_OFF_ACCESS (blkPart (a / 0x000800000000)) a [q.cid, q.source]
  else s.deny q a write

/-- The lowest byte address of a request that is aborted, if any. -/
def State.firstDenied (s : State) (q : Req) (r w : Bool) : List (Nat × Nat) → Option Nat
  | [] => none
  | (a, _) :: t => if s.roleOffAt a || !s.claimed q a r w then some a else s.firstDenied q r w t

/-- A request reaching a stack in self-refresh waits for the exit (R241, R353). -/
def State.exitSr (s : State) (a : Nat) : State :=
  match s.loc a with
  | .stack n => if s.flag (STK_STS_SELF_REFRESH n) then s.setFlag (STK_STS_SELF_REFRESH n) false else s
  | _ => s

/-- Reads one granule piece with WCB forwarding (R245): the DRAM is read where some byte is not forwarded. A far piece is read
at its controller, and fails while the CXL link is down (R248, R250). (DEDUCED: assumption 81.) -/
def State.readPiece (s0 : State) (q : Req) (bulk : Bool) (a n : Nat) : Option (List Byte) × State :=
  let s := s0.trvMem q a
  match s.loc a with
  | .stack k =>
    let key := wcbKey k (groupOf a)
    let es := if bulk then [] else (s.mem.wcbOf key).entries
    let fw := (List.range n).map (fun i => forwarded es (a + i))
    let s1 := if fw.any Option.isSome then s.countUp (WCB_FWD_CNT_COUNT k (groupOf a)) else s
    let dram := Mem.read s.mem.bytes a n
    let data := List.zipWith (fun f d => Option.getD f d) fw dram
    if fw.all Option.isSome then (some data, s1)
    else
      let r := (s1.exitSr a).granuleRead q a
      (if r.1 then some data else none, r.2)
  | .cxl _ =>
    if (s.fld FAR_STS_UPS).testBit 2 then
      let r := s.granuleRead q a
      (if r.1 then some (Mem.read s.mem.bytes a n) else none, r.2)
    else (none, s.ueAt q (a / 64 * 64))
  | _ =>
    let r := s.granuleRead q a
    (if r.1 then some (Mem.read s.mem.bytes a n) else none, r.2)

/-- Reads the pieces of a request in order, up to the first uncorrectable error. -/
def State.readPieces (s : State) (q : Req) (bulk : Bool) : List (Nat × Nat) → List Byte → MemRes × State
  | [], acc => (.ok acc, s)
  | (a, n) :: t, acc =>
    let r := s.readPiece q bulk a n
    match r.1 with
    | some d => r.2.readPieces q bulk t (acc ++ d)
    | none => (.ue a, r.2)

/-- A read of `n` bytes at local address `a` (R245, R268). -/
def State.localRead (s : State) (q : Req) (bulk : Bool) (a n : Nat) : MemRes × State :=
  let ps := granules a n
  match s.firstDenied q true false ps with
  | some d => (.denied d, s.abortAt q d false)
  | none => s.readPieces q bulk ps []

/-- The memory after the piece `data` lands at far-tier address `a`: a whole granule is written anew, without POISON (R239). -/
def MemSt.farPut (m : MemSt) (a : Nat) (data : List Byte) : MemSt :=
  let m1 := if data.length < 64 then m else (m.setErr (a / 64) .none).setPoison (a / 64) false
  { m1 with bytes := Mem.write m1.bytes a data }

/-- Writes the permitted piece `data` at `a`: into the WCB of its group, or at the far tier (R242, R248). Where the source does not wait,
a piece that finds no entry waits under the last write number. -/
def State.writePiece (s0 : State) (q : Req) (wait : Bool) (a : Nat) (data : List Byte) : Option Nat × State :=
  let s := s0.trvMem q a
  match s.loc a with
  | .stack k =>
    let key := wcbKey k (groupOf a)
    let s1 := s.exitSr a
    (none, if wait then s1.wcbWait key ⟨a, data, 0⟩ else s1.wcbArrive key ⟨a, data, s.mem.ackId⟩)
  | .cxl _ =>
    if (s.fld FAR_STS_UPS).testBit 2 then
      (none, s.withMem (s.mem.farPut a data))
    else (some a, s.ueAt q (a / 64 * 64))
  | _ => (none, s.withMem (s.mem.farPut a data))

/-- Writes pieces in order, leaving out those that are aborted (R43, R148, R268). -/
def State.writePieces (s : State) (q : Req) (wait : Bool) : List (Nat × Nat) → List Byte → Option Nat → Option Nat × State
  | [], _, ue => (ue, s)
  | (a, n) :: t, data, ue =>
    if s.roleOffAt a || !s.claimed q a false true then s.writePieces q wait t (data.drop n) ue
    else
      let r := s.writePiece q wait a (data.take n)
      r.2.writePieces q wait t (data.drop n) (if ue.isSome then ue else r.1)

/-- A write at local address `a`: permitted bytes are written, and a denial is reported once (R268). -/
def State.localWrite (s : State) (q : Req) (wait : Bool) (a : Nat) (data : List Byte) : MemRes × State :=
  let ps := granules a data.length
  let bad := s.firstDenied q false true ps
  let r := s.writePieces q wait ps data none
  match bad with
  | some d => (.denied d, r.2.abortAt q d true)
  | none => match r.1 with
    | some u => (.ue u, r.2)
    | none => (.ok [], r.2)

/-- A request to another chip's memory: without a route it fails at once; with one, it leaves as link packets with its CID, kind and
sender's chip, and the other chip's answer is open, one that a DOWN port makes uncorrectable among them (R274, R305).
(DESIGN CHOICE: assumption 21.) -/
def State.remoteAsk (s0 : State) (q : Req) (pa : Nat) (ask : RemAsk) : MemRes × State :=
  if !s0.hasRoute (chipBits pa) then (.denied pa, s0.logD ev_NO_ROUTE 8 pa [chipBits pa])
  else
    let s := s0.remoteSend s0.chip q.cid q.stop pa ask
    let r := s.fresh
    match r.1 % 3 with
    | 0 => (.ok ((List.range ask.size).map (fun i => BitVec.ofNat 8 (Config.freeNat (r.2.freeCtr + i)))),
        { r.2 with freeCtr := r.2.freeCtr + ask.size })
    | 1 => (.denied pa, r.2)
    | _ => (.ue pa, r.2)

/-- A read of physical memory by an agent of this chip (R274). -/
def State.physRead (s : State) (q : Req) (bulk : Bool) (pa n : Nat) : MemRes × State :=
  if s.isLocal pa then s.localRead q bulk (localPa pa) n else s.remoteAsk q pa (.read n)

/-- A write of physical memory by an agent of this chip that waits for its acknowledgement. -/
def State.physWrite (s : State) (q : Req) (pa : Nat) (data : List Byte) : MemRes × State :=
  if s.isLocal pa then s.localWrite q true (localPa pa) data else s.remoteAsk q pa (.write data)

/-- A completion as it returns to a requester. -/
def MemRes.completion : MemRes → Completion
  | .ok d => .ok d
  | .denied _ => .abort
  | .ue _ => .poisoned

/-- Sends the completion of a request. -/
def sendRes (r : MemRes × State) : State := r.2.send (.completion r.1.completion)

/-! ### Commands at the controllers -/

/-- STACK_READ: a non-bulk read at a channel-group controller (R245). -/
def execStackRead (q : ReqArgs) (pa : BitVec 46) (n : Nat) (s : State) : Host.Outcome State Fault Refusal :=
  .next (sendRes (s.localRead (reqOf q) false pa.toNat n))

/-- BULK_READ: returns DRAM contents only (R245). -/
def execBulkRead (q : ReqArgs) (pa : BitVec 46) (n : Nat) (s : State) : Host.Outcome State Fault Refusal :=
  .next (sendRes (s.localRead (reqOf q) true pa.toNat n))

/-- STACK_WRITE: a write at a channel-group controller; it waits there while all 64 entries are in use, and is acknowledged once it has
merged (R242, R243). -/
def execStackWrite (q : ReqArgs) (pa : BitVec 46) (data : List Byte) (s : State) : Host.Outcome State Fault Refusal :=
  let id := s.mem.newWrite
  let r := (s.withMem { s.mem with ackId := id }).localWrite (reqOf q) false pa.toNat data
  .next (if r.2.mem.writeWaits id && decide (r.1 = .ok []) then r.2 else sendRes r)

/-- A CXL request is with the device: its completion waits for the device's acknowledgement (R250).
(DESIGN CHOICE: assumption 130.) -/
def State.cxlSent (s : State) (q : Req) (a : Nat) (old : Option (List Byte)) (r : MemRes) : State :=
  s.withMem { s.mem with cxlOut := s.mem.cxlOut ++ [⟨a, q.cid, q.source, r.completion, old⟩] }

/-- The device acknowledges every CXL request it holds, in order. (DESIGN CHOICE: assumption 130.) -/
def State.cxlAnswer (s : State) : State :=
  s.mem.cxlOut.foldl (fun t x => t.send (.completion x.res)) ((s.withMem { s.mem with cxlOut := [] }).useEnd .cxl)

/-- Performs a far-tier access (R248). -/
def State.farOp (s : State) (q : Req) (a : Nat) : MemOp → MemRes × State
  | .read n => s.localRead q false a n
  | .write d => s.localWrite q true a d

/-- FAR_REQUEST: the far-tier front end claim-checks and performs an access in arrival order (R248). A CXL access stays outstanding until
the device has acknowledged it. -/
def execFarRequest (q : ReqArgs) (pa : BitVec 46) (op : MemOp) (s : State) : Host.Outcome State Fault Refusal :=
  let a := pa.toNat
  let r := s.farOp (reqOf q) a op
  let old := match op with
    | .read _ => none
    | .write d => some (Mem.read s.mem.bytes a d.length)
  .next (match s.loc a, r.1 with
    | .cxl _, .ok _ => r.2.cxlSent (reqOf q) a old r.1
    | _, _ => sendRes r)

/-- WCB_AGE_EXPIRY: the oldest entry of the group that does not drain yet reaches WCB_AGE_MAX, and with it every entry as old
(R243). (DESIGN CHOICE: assumption 80.) -/
def execWcbAgeExpiry (k : Part) (g : Fin 4) (s : State) : Host.Outcome State Fault Refusal :=
  let key := wcbKey k g
  match oldestLive (s.mem.wcbOf key).entries with
  | some e => .next (s.startDrain key .age (fun x => decide (x.alloc ≤ e.alloc)))
  | none => .next s

/-- WCB_ENTRY_FREED: the oldest draining entry's granule writes are performed (R243).
(DESIGN CHOICE: assumption 80.) -/
def execWcbEntryFreed (k : Part) (g : Fin 4) (s : State) : Host.Outcome State Fault Refusal :=
  .next (s.freeEntry (wcbKey k g))

/-- DRAIN_REQUEST: a drain request arrives at a controller (R244). -/
def execDrainRequest (k : Part) (g : Fin 4) (s : State) : Host.Outcome State Fault Refusal :=
  .next (s.drainRequest .ext .fence [wcbKey k g])

/-- A write of 1 to WCB_CTL.DRAIN (R244). -/
def State.wcbCtlDrain (s : State) (p : Nat) : State :=
  (s.setFlag (WCB_STS_DRAIN_BUSY p) true).drainRequest (.ctl p) .other (partGroups p)

/-- WCB_DRAIN. -/
def execWcbDrain (p : Part) (s : State) : Host.Outcome State Fault Refusal := .next (s.wcbCtlDrain p)

/-- The first address of the group's share of stack `k` at or above `a`, by granule, within `n` granules.
(DEDUCED: assumption 83.) -/
def nextShare (g a : Nat) : Nat → Nat
  | 0 => a
  | n + 1 => if groupOf a = g then a else nextShare g (a + 64) n

/-- Patrol scrub reads the granule at `a`: a correctable one is rewritten corrected, an uncorrectable one with POISON = 1 (R240). -/
def State.scrubAt (s : State) (part a : Nat) : State :=
  let r := s.granuleRead (s.sysReq 7 part) a
  if r.1 then r.2 else (r.2.withMem ((r.2.mem.setPoison (a / 64) true).setErr (a / 64) .none)).wrBytes a 64

/-- Where the next scrub read of a share stands. -/
def State.setScrub (s : State) (key o : Nat) : State :=
  s.withMem { s.mem with scrub := Tbl.set (fun _ => 0) s.mem.scrub key o }

/-- Patrol scrub of a channel group reads its next granule; past the top of the stack a pass ends. A pass is counted for the stack when its
last group's pass ends, which is group 3's. (DEDUCED: assumption 83.) -/
def State.scrubStack (s : State) (k g : Nat) : State :=
  if !s.flag (STK_CTL_SCRUB_EN k) || s.flag (STK_STS_SELF_REFRESH k) then s
  else
    let base := k * 0x000800000000
    let a := nextShare g (base + Tbl.get (fun _ => 0) s.mem.scrub (wcbKey k g)) 512
    let nx := nextShare g (a + 64) 512 - base
    let wrap := decide (24 * 2 ^ 30 ≤ nx)
    let s2 := (s.scrubAt k a).setScrub (wcbKey k g) (if wrap then 0 else nx)
    if wrap && g == 3 then s2.countUp (STK_SCRUB_PASSES k) else s2

/-- The first offset of DDR5 channel `ch` at or above `o`, by granule, within `n` granules. -/
def State.ddrShare (s : State) (ch o : Nat) : Nat → Nat
  | 0 => o
  | n + 1 => if s.ddrChannel o = ch then o else s.ddrShare ch (o + 64) n

/-- Where a search for channel `ch`'s share begins: channels that do not interleave lie one behind the other (R249). -/
def State.ddrFirst (s : State) (ch : Nat) : Nat :=
  if ch = 1 ∧ !(s.flag FAR_DDR_CFG_ILV && s.fld FAR_DDR_CFG_CH0_GIB == s.fld FAR_DDR_CFG_CH1_GIB) then
    s.fld FAR_DDR_CFG_CH0_GIB * 2 ^ 30 else 0

/-- Patrol scrub of a DDR5 channel, which follows R240 (R249): it reads the channel's next granule, while the channel serves.
(DEDUCED: assumption 83.) -/
def State.scrubDdr (s : State) (ch : Nat) : State :=
  let top := (s.fld FAR_DDR_CFG_CH0_GIB + s.fld FAR_DDR_CFG_CH1_GIB) * 2 ^ 30
  let o := s.ddrShare ch (max (Tbl.get (fun _ => 0) s.mem.scrub (32 + ch)) (s.ddrFirst ch)) 8
  if !(s.fld FAR_STS_UPS).testBit ch || decide (top ≤ o) || s.ddrChannel o != ch then s
  else
    let nx := s.ddrShare ch (o + 64) 8
    (s.scrubAt 0 (0x010000000000 + o)).setScrub (32 + ch) (if top ≤ nx ∨ s.ddrChannel nx ≠ ch then 0 else nx)

/-- SCRUB_READ (R240, R249). -/
def execScrubRead (k : ScrubMem) (g : Fin 4) (s : State) : Host.Outcome State Fault Refusal :=
  .next (match k with
    | .stack p => s.scrubStack p g
    | .ddr => s.scrubDdr g)

/-- The stack's sensor readings, °C. -/
def State.stackTemps (s : State) (k : Nat) : List Nat :=
  let t := s.fld (STK_TEMP_G k)
  [t % 256, t / 256 % 256, t / 65536 % 256, t / 16777216 % 256]

/-- Notes a stack whose sensors have just read 85 °C or more (R241). -/
def State.noteHot (s : State) (k : Nat) : State :=
  if (s.stackTemps k).any (fun t => decide (85 ≤ t)) && !s.mem.hot.contains k then s.withMem { s.mem with hot := s.mem.hot ++ [k] }
  else s

/-- REFRESH: the rate doubles at the first refresh after a sensor has read 85 °C or more, and is normal again after every sensor
reads 82 °C or less (R241). -/
def execRefresh (k : Part) (s : State) : Host.Outcome State Fault Refusal :=
  if s.mem.hot.contains k.val || (s.stackTemps k).any (fun t => decide (85 ≤ t)) then
    .next ((s.withMem { s.mem with hot := s.mem.hot.filter (fun x => x != k.val) }).setFlag (STK_STS_REFRESH_2X k) true)
  else if (s.stackTemps k).all (fun t => decide (t ≤ 82)) then .next (s.setFlag (STK_STS_REFRESH_2X k) false)
  else .next s

/-- An outstanding CXL request ends as the link drops: with an uncorrectable error, counted and logged; what a store leaves in the device is
open (R250, Table 12-8). (DESIGN CHOICE: assumption 130.) -/
def State.cxlLost (s : State) (x : CxlReq) : State :=
  let q : Req := ⟨x.cid, x.source, 0, s.chip, sourceStop x.source 0⟩
  let r := s.fresh
  let s1 := match x.old with
    | some d => if r.1 % 2 = 0 then r.2.withMem { r.2.mem with bytes := Mem.write r.2.mem.bytes x.addr d } else r.2
    | none => s
  (s1.ueAt q (x.addr / 64 * 64)).send (.completion .poisoned)

/-- The link of the CXL port goes down (R250). -/
def execCxlDown (s : State) : Host.Outcome State Fault Refusal :=
  let s1 := ((s.setFld FAR_STS_UPS (putBits (s.fld FAR_STS_UPS) 2 1 0)).setFld FAR_STS_CXL_LANES 0).setFld FAR_STS_CXL_SPEED 0
  .next (s.mem.cxlOut.foldl State.cxlLost (((s1.withMem { s1.mem with cxlOut := [] }).useEnd .cxl).logD ev_CXL_DOWN blkFar 0 []))

/-! ### Claim updates (R269) -/

/-- Whether granule index `i` is populated. -/
def State.granulePop (s : State) (i : Nat) : Bool := decide (i < 2 ^ 25) && (s.loc (i * 2 ^ 21)).populated

/-- Applies the entry to the populated granules of a run. -/
def State.claimRun (s : State) (v : BitVec 32) (i : Nat) : Nat → State
  | 0 => s
  | n + 1 =>
    (if s.granulePop i then { s with claims := Tbl.set (fun _ => 0) s.claims i v } else s).claimRun v (i + 1) n

/-- The skipped indices of a run: how many, and the first. -/
def State.claimSkips (s : State) (i : Nat) : Nat → Nat × Option Nat
  | 0 => (0, none)
  | n + 1 =>
    let r := s.claimSkips (i + 1) n
    if s.granulePop i then r else (r.1 + 1, some i)

/-- A write to CLM_ENTRY (R269): applied to COUNT granules, one FCLK cycle each, with BUSY until CLAIM_UPDATE_DONE.
(DEDUCED: assumption 110.) -/
def State.claimWrite (s : State) (v : BitVec 32) : State :=
  let i := s.fld CLM_INDEX_INDEX
  let n := max (s.fld CLM_RANGE_COUNT) 1
  let sk := s.claimSkips i n
  let s1 := ((s.claimRun (v &&& 0x03FFFFFF#32) i n).setFld CLM_INDEX_INDEX (i + n)).setFlag CLM_STS_BUSY true
  match sk.2 with
  | some f => (s1.setFlag CLM_STS_BAD_INDEX true).log ev_BAD_INDEX blkClm (f * 2 ^ 21) sk.1
  | none => s1

/-- CLAIM_UPDATE_DONE: the update has reached every array (R269). -/
def execClaimUpdateDone (s : State) : Host.Outcome State Fault Refusal := .next (s.setFlag CLM_STS_BUSY false)

end Sys2Proof.Machine
end

