-- ==== Sys2Proof/Machine/Xlate.lean ====
section
/-!
DEFINITION. Machine/Xlate.lean: contexts, page walks, TLBs, invalidation commands and requests from other chips (chapter 13).
-/
namespace Sys2Proof.Machine

/-- BLOCK code of MMU (Table 0-8). -/
def blkMmu : Nat := 8

/-- The CID an agent of partition `p` carries: the tenant's on a bound partition, else its own (R257). -/
def State.agentCid (s : State) (p own : Nat) : Nat :=
  if s.flag (PCTL_TENANT_BIND_EN p) then s.fld (PCTL_TENANT_CID p) else own

/-! ### Page-table entries (R259, R260) -/

/-- The lowest VA bit a level indexes (Table 13-4). -/
def levelLo : Nat → Nat
  | 0 => 48
  | 1 => 39
  | 2 => 30
  | 3 => 21
  | _ => 16

/-- How many VA bits a level indexes. -/
def levelBits : Nat → Nat
  | 0 => 8
  | 1 => 9
  | 2 => 9
  | 3 => 9
  | _ => 5

/-- What one table entry says: a fault, the next table, or a leaf (R260). -/
inductive PteRes where
  | fault
  | next (table : Nat)
  | leaf (e : TlbEnt)
deriving DecidableEq, Repr

/-- Decodes the entry `x` read at `lvl` for virtual address `va` (Table 13-5, R260). -/
def pteDecode (cid va lvl x : Nat) : PteRes :=
  let addr := x % 2 ^ 52 / 256 * 256
  let lo := levelLo lvl
  if !x.testBit 0 || decide (2 ^ 52 ≤ x) then .fault
  else if x.testBit 1 then
    if lvl < 2 || decide (addr % 2 ^ lo ≠ 0) || (x.testBit 6 && x.testBit 7) || (x.testBit 3 && !x.testBit 2) then .fault
    else .leaf ⟨.l2, cid, va / 2 ^ lo * 2 ^ lo, lo, addr, x.testBit 2, x.testBit 3, x.testBit 4, x.testBit 5, x.testBit 6, x.testBit 7⟩
  else if decide (bitsOf x 2 6 ≠ 0) || decide (4 ≤ lvl) || decide (addr % 2 ^ (levelBits (lvl + 1) + 3) ≠ 0) then .fault
  else .next addr

/-! ### Walks (R256, R259, R260, R264) -/

/-- The walk cache of partition `p`. -/
def State.walkOf (s : State) (p : Nat) : List WalkEnt := Tbl.get (fun _ => []) s.walks p

/-- Adds a walk-cache entry; of 256 held, an open choice goes. (DESIGN CHOICE: assumption 84.) -/
def State.walkAdd (s : State) (p : Nat) (e : WalkEnt) : State :=
  let l := s.walkOf p
  if l.contains e then s
  else if l.length < 256 then { s with walks := Tbl.set (fun _ => []) s.walks p (l ++ [e]) }
  else
    let r := s.fresh
    { r.2 with walks := Tbl.set (fun _ => []) r.2.walks p (l.eraseIdx (r.1 % 256) ++ [e]) }

/-- The next table that the walk cache names for level `lvl` of `va`. -/
def walkFind (l : List WalkEnt) (cid va lvl : Nat) : Option Nat :=
  let tag := if lvl = 0 then 0 else va / 2 ^ levelLo (lvl - 1)
  (l.find? (fun e => e.cid == cid && e.level == lvl && e.tag == tag)).map (fun e => e.next)

/-- The deepest level at or below `lvl` whose table the walk cache names. -/
def walkStart (l : List WalkEnt) (cid va : Nat) : Nat → Option (Nat × Nat)
  | 0 => (walkFind l cid va 0).map (fun t => (0, t))
  | lvl + 1 => match walkFind l cid va (lvl + 1) with
    | some t => some (lvl + 1, t)
    | none => walkStart l cid va lvl

/-- An eight-byte read of a table by a walker, with the SYSTEM CID; an uncorrectable one sets WALK_ERR and is logged (R260). -/
def State.walkRead (s : State) (p pa : Nat) : Option Nat × State :=
  let r := s.physRead (s.sysReq 7 p) false pa 8
  match r.1 with
  | .ok d => (some (natLE d), r.2)
  | .ue a => (none, (r.2.setFlag MMU_STS_WALK_ERR true).logD ev_WALK_ERR blkMmu a [0xFFF])
  | .denied _ => (none, r.2)

/-- Walks from the table of level `lvl` on; at most `n` more levels (R259). -/
def State.walkFrom (s : State) (p cid va : Nat) : Nat → Nat → Nat → Option TlbEnt × State
  | 0, _, _ => (none, s)
  | n + 1, lvl, table =>
    let r := s.walkRead p (table + 8 * bitsOf va (levelLo lvl) (levelBits lvl))
    match r.1 with
    | none => (none, r.2)
    | some x => match pteDecode cid va lvl x with
      | .fault => (none, r.2)
      | .leaf e => (some e, r.2)
      | .next t => (r.2.walkAdd p ⟨cid, lvl + 1, va / 2 ^ levelLo lvl, t⟩).walkFrom p cid va n (lvl + 1) t

/-- The page-table root of the copy list, on a spare that has taken a stage over (R107). -/
def State.takenRoot (s : State) (p : Nat) : Option Nat :=
  if s.flag (PCTL_STS_TAKEN_OVER p) then
    some (Tbl.get (fun _ => (⟨.none, 0, 0⟩ : FoSt)) s.fo (s.fld (PCTL_STS_FROM p))).ptRoot
  else none

/-- A translation walk: the leaf, or none for PAGE_FAULT (R256, R260). -/
def State.walk (s : State) (p cid va : Nat) : Option TlbEnt × State :=
  match s.takenRoot p, walkStart (s.walkOf p) cid va 4 with
  | some t, _ => s.walkFrom p cid va 5 0 t
  | none, some (lvl, t) => s.walkFrom p cid va 5 lvl t
  | none, none =>
    let r := s.walkRead p (s.fld MMU_CTX_BASE_BASE * 2 ^ 15 + 8 * cid)
    match r.1 with
    | none => (none, r.2)
    | some x =>
      if !x.testBit 0 then (none, r.2)
      else
        let t := bitsOf x 11 41 * 2 ^ 11
        (r.2.walkAdd p ⟨cid, 0, 0, t⟩).walkFrom p cid va 5 0 t

/-! ### TLBs (Table 13-6) -/

/-- The TLB entries of partition `p`. -/
def State.tlbOf (s : State) (p : Nat) : List TlbEnt := Tbl.get (fun _ => []) s.tlb p

/-- Entries of a structure (Table 13-6). -/
def tlbCap : TlbId → Nat
  | .l1d _ => 48
  | .l1i _ => 16
  | .adit => 32
  | .assay => 64
  | .l2 => 4096

/-- The ways of a set of a structure: the L2 TLB is 8-way, the others are fully associative. -/
def tlbWays : TlbId → Nat
  | .l2 => 8
  | id => tlbCap id

/-- The set of a leaf in a structure: the low bits of its page's number in the L2 TLB.
(DESIGN CHOICE: assumption 84.) -/
def TlbEnt.set (e : TlbEnt) (id : TlbId) : Nat := e.va / 2 ^ e.lg % (tlbCap id / tlbWays id)

/-- Removes the `n`-th of the entries that satisfy `f`. -/
def tlbDrop (f : TlbEnt → Bool) : List TlbEnt → Nat → List TlbEnt
  | [], _ => []
  | e :: t, n => if f e then (if n = 0 then t else e :: tlbDrop f t (n - 1)) else e :: tlbDrop f t n

/-- Installs a leaf in structure `id`; where its set is full, an open choice goes.
(DESIGN CHOICE: assumption 84.) -/
def State.tlbAdd (s : State) (p : Nat) (id : TlbId) (e : TlbEnt) : State :=
  let l := s.tlbOf p
  let f := fun (x : TlbEnt) => decide (x.at_ = id) && x.set id == e.set id
  let n := (l.filter f).length
  if n < tlbWays id then { s with tlb := Tbl.set (fun _ => []) s.tlb p (l ++ [{ e with at_ := id }]) }
  else
    let r := s.fresh
    { r.2 with tlb := Tbl.set (fun _ => []) r.2.tlb p (tlbDrop f l (r.1 % n) ++ [{ e with at_ := id }]) }

/-- Whether an entry translates `va` of `cid`. -/
def TlbEnt.hits (e : TlbEnt) (cid va : Nat) : Bool := e.cid == cid && decide (va / 2 ^ e.lg = e.va / 2 ^ e.lg)

/-- Looks a structure up. -/
def tlbFind (l : List TlbEnt) (id : TlbId) (cid va : Nat) : Option TlbEnt :=
  l.find? (fun e => decide (e.at_ = id) && e.hits cid va)

/-- Translates through an L1 structure, the L2 TLB and a walk (R259, R264). -/
def State.translate (s : State) (p : Nat) (id : TlbId) (cid va : Nat) : Option TlbEnt × State :=
  let l := s.tlbOf p
  match tlbFind l id cid va with
  | some e => (some e, s)
  | none => match tlbFind l .l2 cid va with
    | some e => (some e, if id = .l2 then s else s.tlbAdd p id e)
    | none =>
      let r := s.walk p cid va
      match r.1 with
      | none => (none, r.2)
      | some e =>
        let s1 := r.2.tlbAdd p .l2 e
        (some e, if id = .l2 then s1 else s1.tlbAdd p id e)

/-- The physical address of `va` through a leaf. -/
def TlbEnt.phys (e : TlbEnt) (va : Nat) : Nat := e.pa + va % 2 ^ e.lg

/-- The kinds of access (R261). -/
inductive Access where
  | read | write | rmw | fetch
deriving DecidableEq, Repr

/-- Whether a leaf permits an access; `user` for a cluster at User level (R261). -/
def TlbEnt.permits (e : TlbEnt) (k : Access) (user : Bool) : Bool :=
  (match k with
    | .read => e.r
    | .write => e.w
    | .rmw => e.r && e.w
    | .fetch => e.x && !e.dev) && (!user || e.u)

/-- PAGE_WALK: a walk of context `cid`, whose leaf enters the L2 TLB (R259, R260). -/
def execPageWalk (p : Part) (cid : BitVec 12) (va : BitVec 56) (s : State) : Host.Outcome State Fault Refusal :=
  let r := s.walk p cid.toNat va.toNat
  match r.1 with
  | some e => .next (r.2.tlbAdd p .l2 e)
  | none => .next r.2

/-! ### Invalidation (R270 to R272) -/

/-- The removal a command makes from each partition's structures (Table 13-9). -/
def State.dropLeaves (s : State) (keepT : TlbEnt → Bool) (keepW : WalkEnt → Bool) : State :=
  { s with
    tlb := (s.tlb.map (fun e => (e.1, e.2.filter keepT))).filter (fun e => decide (e.2 ≠ []))
    walks := (s.walks.map (fun e => (e.1, e.2.filter keepW))).filter (fun e => decide (e.2 ≠ [])) }

/-- The four words of a command as numbers. -/
def cmdWord (ws : List (BitVec 64)) (k : Nat) : Nat := (ws.getD k 0).toNat

/-- Whether a command has a defined OP and no nonzero bit that Table 13-8 marks 0. -/
def cmdOk (ws : List (BitVec 64)) : Bool :=
  let w0 := cmdWord ws 0
  let op := w0 % 16
  decide (1 ≤ op) && decide (op ≤ 6) && bitsOf w0 6 10 == 0 && bitsOf w0 28 4 == 0 &&
    (op != 6 || bitsOf w0 22 6 == 0) && bitsOf (cmdWord ws 1) 56 8 == 0 && bitsOf (cmdWord ws 1) 0 16 == 0 &&
    bitsOf (cmdWord ws 2) 32 32 == 0 && bitsOf (cmdWord ws 3) 52 12 == 0 && bitsOf (cmdWord ws 3) 0 3 == 0

/-- The effect of a command at T_e (Table 13-9). -/
def State.cmdRemove (s : State) (ws : List (BitVec 64)) : State :=
  let w0 := cmdWord ws 0
  let cid := bitsOf w0 16 12
  let va := cmdWord ws 1
  let len := (max (cmdWord ws 2) 1) * 65536
  let noWalk := fun (w : WalkEnt) => !(w.cid == cid)
  match w0 % 16 with
  | 1 => s.dropLeaves (fun e => !e.hits cid va) noWalk
  | 2 => s.dropLeaves (fun e => !(e.cid == cid && decide (e.va < va + len) && decide (va < e.va + 2 ^ e.lg))) noWalk
  | 3 => s.dropLeaves (fun e => !(e.cid == cid)) noWalk
  | 4 => { s with tlb := [], walks := [], mmu := { s.mmu with inTlb := [] } }
  | 6 => { s with mmu := { s.mmu with inTlb := s.mmu.inTlb.filter (fun e => !(e.win == cid)) } }
  | _ => s

/-- The uses in progress that a command waits for (R271): maintenance operations, failover copies, misses that wait for a bank's grant,
requests on the Traverse that await their response, writes that wait to merge, and CXL requests. Every other access of the model has
ended when the command that made it has. -/
def State.usesNow (s : State) : List TransUse :=
  ((List.range 8).flatMap (fun p =>
    ((List.range 20).filter (fun c => s.flag (L2_MAINT_STS_BUSY p c))).map (fun c => TransUse.maint p c) ++
    (if (Tbl.get (fun _ => (⟨.none, 0, 0⟩ : FoSt)) s.fo p).phase = .copying then [TransUse.copy p] else []))) ++
  s.l2.flatMap (fun e => e.2.reqs.map (fun r => TransUse.miss e.1 r)) ++
  s.net.mesh.asked.map (fun a => TransUse.trv a.1 a.2) ++
  (s.mem.wcb.flatMap (fun g => (g.2.stalled.filter (fun w => w.id != 0)).map (fun w => TransUse.write w.id))) ++
  (if s.mem.cxlOut = [] then [] else [TransUse.cxl])

/-- The command at the head takes effect (R271). -/
def State.cmdStart (s : State) : State :=
  match s.mmu.queue with
  | [] => s
  | ws :: _ =>
    if s.mmu.headOn then s
    else
      let s1 := { s with mmu := { s.mmu with headOn := true, waits := s.usesNow } }
      if cmdOk ws then s1.cmdRemove ws
      else (s1.setFlag MMU_STS_CMD_BAD true).logD ev_CMD_BAD blkMmu 0 [cmdWord ws 0 / 2 ^ 32]

/-- Enqueues a command, or drops it while 64 are held (R270). -/
def State.cmdEnqueue (s : State) (ws : List (BitVec 64)) : State :=
  if 64 ≤ s.mmu.queue.length then
    (s.setFlag MMU_STS_CMD_DROP true).logD ev_CMD_DROP blkMmu 0 [cmdWord ws 0 / 2 ^ 32]
  else ({ s with mmu := { s.mmu with queue := s.mmu.queue ++ [ws] } }).cmdStart


/-- Completes the head command once its uses have drained: record, fence number, message, and the next command takes effect
(R271, R272). -/
def State.cmdComplete (s : State) : State :=
  match s.mmu.queue with
  | [] => s
  | ws :: rest =>
    if s.mmu.waits ≠ [] then s
    else
      let w0 := cmdWord ws 0
      let bad := if cmdOk ws then 0 else 1
      let rec_ := bytesLE 8 (w0 / 2 ^ 32 + bad * 2 ^ 32)
      let s1 := if w0.testBit 4 then (s.physWrite (s.sysReq 7 0) (bitsOf (cmdWord ws 3) 3 49 * 8) rec_).2 else s
      let s2 := s1.setFld MMU_FENCE_DONE_FENCE (w0 / 2 ^ 32)
      let s3 := if w0.testBit 5 && s2.flag MMU_CTL_CMD_IRQ_EN then s2.raise 5 else s2
      ({ s3 with mmu := { s3.mmu with queue := rest, headOn := false } }).cmdStart

/-- MMU_COMMAND_COMPLETE. -/
def execMmuCommandComplete (s : State) : Host.Outcome State Fault Refusal := .next s.cmdComplete

/-- Word 0 with its OP replaced. -/
def withOp (w0 : BitVec 64) (op : BitVec 4) : BitVec 64 := w0.extractLsb' 4 60 ++ op

/-- Stores the four command words and enqueues them (R270). -/
def State.cmdPost (s : State) (w0 w1 w2 w3 : BitVec 64) : State :=
  ({ s with mmu := { s.mmu with words := Tbl.set (fun _ => 0) (Tbl.set (fun _ => 0) (Tbl.set (fun _ => 0)
    (Tbl.set (fun _ => 0) s.mmu.words 0 w0) 1 w1) 2 w2) 3 w3 } }).cmdEnqueue [w0, w1, w2, w3]

/-- PAGE. -/
def execPage (w0 w1 w2 w3 : BitVec 64) (s : State) : Host.Outcome State Fault Refusal := .next (s.cmdPost (withOp w0 1) w1 w2 w3)
/-- RANGE. -/
def execRange (w0 w1 w2 w3 : BitVec 64) (s : State) : Host.Outcome State Fault Refusal := .next (s.cmdPost (withOp w0 2) w1 w2 w3)
/-- CID. -/
def execCid (w0 w1 w2 w3 : BitVec 64) (s : State) : Host.Outcome State Fault Refusal := .next (s.cmdPost (withOp w0 3) w1 w2 w3)
/-- ALL. -/
def execAll (w0 w1 w2 w3 : BitVec 64) (s : State) : Host.Outcome State Fault Refusal := .next (s.cmdPost (withOp w0 4) w1 w2 w3)
/-- SYNC. -/
def execSync (w0 w1 w2 w3 : BitVec 64) (s : State) : Host.Outcome State Fault Refusal := .next (s.cmdPost (withOp w0 5) w1 w2 w3)
/-- INWIN. -/
def execInwin (w0 w1 w2 w3 : BitVec 64) (s : State) : Host.Outcome State Fault Refusal := .next (s.cmdPost (withOp w0 6) w1 w2 w3)

/-- CLM_ENTRY_WRITE by a permitted master (R269): refused while an update runs, and frozen by LOCK after the seal. -/
def execClmEntryWrite (v : BitVec 32) (s : State) : Host.Outcome State Fault Refusal :=
  if s.flag CLM_STS_BUSY then .next (s.log ev_BUSY_WRITE blkClm CLM_ENTRY_CID.addr v.toNat)
  else if s.flag CLM_CTL_LOCK && s.flag HDF_SEAL_SEALED then
    .next ((s.countSat HDF_SEAL_VIOL_CNT).log ev_SEAL_VIOLATION blkClm CLM_ENTRY_CID.addr v.toNat)
  else .next (s.claimWrite v)

/-! ### Requests from other chips (R275 to R277) -/

/-- A window failure: flagged and logged (R277). -/
def State.inwinErr (s : State) (pa src : Nat) : State :=
  (s.setFlag MMU_STS_INWIN_ERR true).logD ev_INWIN_ERR blkMmu pa [src]

/-- Caches an inbound leaf; of 512, an open choice goes (R276). (DESIGN CHOICE: assumption 84.) -/
def State.inAdd (s : State) (e : InEnt) : State :=
  if s.mmu.inTlb.length < 512 then { s with mmu := { s.mmu with inTlb := s.mmu.inTlb ++ [e] } }
  else
    let r := s.fresh
    { r.2 with mmu := { r.2.mmu with inTlb := r.2.mmu.inTlb.eraseIdx (r.1 % 512) ++ [e] } }

/-- Translates a window offset from level L2 on (R276). -/
def State.inTranslate (s : State) (w off : Nat) : Option InEnt × State :=
  match s.mmu.inTlb.find? (fun e => e.win == w && decide (off / 2 ^ e.lg = e.off / 2 ^ e.lg)) with
  | some e => (some e, s)
  | none =>
    let r := s.walkFrom 0 4096 off 3 2 (s.fld (MMU_INWIN_ROOT_ROOT w) * 2 ^ 9)
    let s1 := { r.2 with walks := s.walks }
    match r.1 with
    | none => (none, s1)
    | some e =>
      let x : InEnt := ⟨w, e.va, e.lg, e.pa, e.r, e.w⟩
      (some x, s1.inAdd x)

/-- Whether an operation writes. -/
def opWrites : MemOp → Bool
  | .read _ => false
  | .write _ => true

/-- How many bytes an operation moves. -/
def opLen : MemOp → Nat
  | .read n => n
  | .write d => d.length

/-- Performs an operation on the granule pieces `ps`, one denial with its lowest address at most (R268). -/
def State.piecesOp (s : State) (q : Req) (ps : List (Nat × Nat)) (op : MemOp) : MemRes × State :=
  let low := s.firstDenied q (!opWrites op) (opWrites op) (sortBy (fun x y => decide (x.1 ≤ y.1)) ps)
  match op, low with
  | .read _, some d => (.denied d, s.abortAt q d false)
  | .read _, none => s.readPieces q false ps []
  | .write d, _ =>
    let r := s.writePieces q true ps d none
    match low, r.1 with
    | some x, _ => (.denied x, r.2.abortAt q x true)
    | none, some u => (.ue u, r.2)
    | none, none => (.ok [], r.2)

/-- Splits `n` bytes at window offset `o` at the ends of the smallest pages. -/
def pagePieces : Nat → Nat → Nat → List (Nat × Nat)
  | 0, _, _ => []
  | _, _, 0 => []
  | fuel + 1, o, n =>
    let k := min n (2 ^ 16 - o % 2 ^ 16)
    (o, k) :: pagePieces fuel (o + k) (n - k)

/-- Translates the pages of a window request, in order: the granule pieces they name, or none where one of them is refused (R266, R276). -/
def State.inPages (s : State) (w : Nat) (write : Bool) : List (Nat × Nat) → List (Nat × Nat) → Option (List (Nat × Nat)) × State
  | [], acc => (some acc, s)
  | (o, n) :: t, acc =>
    let r := s.inTranslate w o
    match r.1 with
    | none => (none, r.2)
    | some e =>
      let pa := e.pa + o % 2 ^ e.lg
      if !(if write then e.w else e.r) || !r.2.isLocal pa || !(r.2.loc (localPa pa)).populated then (none, r.2)
      else r.2.inPages w write t (acc ++ granules (localPa pa) n)

/-- A request that arrives in inbound window `w`: every page it touches is translated and permitted before a byte moves (R266, R276,
R277). One that goes on past the window's end is refused. (DESIGN CHOICE: assumption 131.) -/
def State.windowReq (s : State) (src w a : Nat) (op : MemOp) : MemRes × State :=
  let off := a % 2 ^ 36
  let bad := fun (t : State) => ((.denied a : MemRes), t.inwinErr a src)
  if !s.flag (MMU_INWIN_EN w) || !(s.fld (MMU_INWIN_SRC_CHIP w) == 63 || s.fld (MMU_INWIN_SRC_CHIP w) == src) ||
      !(if opWrites op then s.flag (MMU_INWIN_W w) else s.flag (MMU_INWIN_R w)) || decide (2 ^ 36 < off + opLen op) then bad s
  else
    let r := s.inPages w (opWrites op) (pagePieces (opLen op / 2 ^ 16 + 2) off (opLen op)) []
    match r.1 with
    | none => bad r.2
    | some ps => r.2.piecesOp ⟨r.2.fld (MMU_INWIN_CID w), 6, 0, src, sourceStop 6 0⟩ ps op

/-- A request from chip `src`: through an inbound window, or plain (R275). -/
def State.remoteReq (s : State) (src cid a : Nat) (op : MemOp) : MemRes × State :=
  match s.loc a with
  | .aperture w => s.windowReq src w a op
  | _ =>
    let q : Req := ⟨cid, 5, 0, src, sourceStop 5 0⟩
    if !s.fbit MMU_PLAIN_ALLOW_ALLOW src then (.denied a, s.deny q a (opWrites op)) else s.piecesOp q (granules a (opLen op)) op

/-- Handles a request of stop `stop` of another chip under its tag: its answer returns to the sender (R275, R277, R306). -/
def State.remoteServe (s : State) (src cid stop tag a : Nat) (op : MemOp) : State :=
  let r := s.remoteReq src cid a op
  r.2.remoteReply s.chip src (paStop a) stop tag r.1.completion

/-- REMOTE_REQUEST: a request from another chip is handled, and its answer returns to the sender. -/
def execRemoteRequest (src : RemSrc) (cid : BitVec 12) (pa : BitVec 46) (op : MemOp) (s : State) : Host.Outcome State Fault Refusal :=
  .next (sendRes ((s.remoteReq src.chip.toNat cid.toNat pa.toNat op).1,
    s.remoteServe src.chip.toNat cid.toNat src.stop.toNat src.tag.toNat pa.toNat op))

end Sys2Proof.Machine
end

