-- ==== Sys2Proof/Machine/Admission.lean ====
section
/-!
DEFINITION. Machine/Admission.lean: the Admission Port: answers, the class table on both sides, accept and retirement records, ring
entries and body deadlines (chapter 2; R92, R447).
-/
namespace Sys2Proof.Machine

/-- BLOCK code of ADM (Table 0-8). -/
def blkAdm : Nat := 4

/-- Replaces the admission state. -/
def State.withAdm (s : State) (a : AdmSt) : State := { s with adm := a }

/-! ### Ring entries (R42, Table 2-11) -/

/-- The record of a slot. -/
def State.slot (s : State) (k : Nat) : SlotRec := Tbl.get (fun _ => SlotRec.none) s.slots k

/-- Replaces it. -/
def State.setSlot (s : State) (k : Nat) (r : SlotRec) : State := { s with slots := Tbl.set (fun _ => SlotRec.none) s.slots k r }

/-- The entry stride (Table 2-12). -/
def State.ringStride (s : State) : Nat := 4096 * 2 ^ min (s.fld ADM_CTL_RING_STRIDE) 8

/-- The physical address of the ring entry of a slot. -/
def State.ringAddr (s : State) (k : Nat) : Nat := s.fld ADM_RING_BASE_BASE * 2 ^ 16 + k * s.ringStride

/-- The code of a ring entry STATE. -/
def SlotPhase.code : SlotPhase → Nat
  | .free => 0
  | .accepted => 1
  | .posted => 2
  | .taken => 3

/-- The device writes into a ring entry with the SYSTEM CID (R42). -/
def State.ringWriteAt (s : State) (k off : Nat) (d : List Byte) : State := (s.physWrite (s.sysReq 7 0) (s.ringAddr k + off) d).2

/-- Sets STATE of a ring entry, in the record and in memory. -/
def State.setPhase (s : State) (k : Nat) (p : SlotPhase) : State :=
  (s.setSlot k (if p = .free then SlotRec.none else { s.slot k with phase := p })).ringWriteAt k 7 (bytesLE 1 p.code)

/-- Releases a slot. -/
def State.releaseSlot (s : State) (k : Nat) : State := s.setPhase k .free

/-- DEADLINE_BEAT of a slot in the present numbering of beats (R44, R447). -/
def State.deadlineBeat (s : State) (r : SlotRec) : Nat := (s.fld BEAT_COUNT_COUNT + r.deadline - s.beat.idx) % 2 ^ 32

/-- The sixteen device-written bytes of a ring entry header (Table 2-11). -/
def State.ringHeader (s : State) (k : Nat) : List Byte :=
  let r := s.slot k
  bytesLE 4 r.reqSeq.toNat ++ bytesLE 2 k ++ bytesLE 1 r.tc ++ bytesLE 1 r.phase.code ++ bytesLE 2 r.tag ++
    bytesLE 1 r.promptBlk ++ bytesLE 1 r.genBlk ++ bytesLE 4 (s.deadlineBeat r)

/-! ### The answer (R32 to R34) -/

/-- Ones in a number of `n` bits. -/
def onesIn (n x : Nat) : Nat := ((List.range n).filter (fun i => x.testBit i)).length

/-- Whether QDP is right: odd parity over QD and QV = 1 (Table 2-2). -/
def qdpGood (qd : BitVec 32) (qdp : Bool) : Bool := (onesIn 32 qd.toNat + 1 + (if qdp then 1 else 0)) % 2 == 1

/-- An answer of Table 2-7. -/
inductive Answer where
  | accept (slot : Nat)
  | defer (cause hint : Nat)
  | refuse (reason : Nat)
deriving DecidableEq, Repr

/-- QA of an answer (Table 2-7). -/
def Answer.qa : Answer → BitVec 16
  | .accept k => BitVec.ofNat 16 (0x4000 + k % 4096)
  | .defer c h => BitVec.ofNat 16 (0x8000 + c % 16 * 256 + h % 256)
  | .refuse r => BitVec.ofNat 16 (0xC000 + r % 16)

/-- The class header of a table. -/
def ClsTable.hdr (t : ClsTable) (c : Nat) : ClsHdr := t.hdrs.getD c ⟨2, 2, 0, 0, 0, 0, 0⟩

/-- The answer of the port to a descriptor (R34). -/
def portAnswer (a : ActTable) (staleDefer : Bool) (qd : BitVec 32) (qdp : Bool) : Answer :=
  let c := qd.toNat % 8
  let pb := bitsOf qd.toNat 3 8
  let gb := bitsOf qd.toNat 11 8
  let h := a.tbl.hdr c
  let n := a.used.getD c 0
  if a.tbl.parityEn && !qdpGood qd qdp then .refuse 1
  else if staleDefer then .defer 5 1
  else if h.st = 2 then .refuse h.code
  else if h.promptMax < pb then .refuse 3
  else if h.genMax < gb then .refuse 4
  else if h.st = 1 then .defer h.code h.hint
  else if n < h.gcount then .accept (a.tbl.grants.getD (h.gstart + n) 0)
  else .defer 1 h.hint

/-- Drives QAV, QA and QAP, odd parity over QA and QAV (Table 2-2). -/
def State.drive (s : State) (qav : Bool) (qa : BitVec 16) : State :=
  s.withAdm { s.adm with qav := qav, qa := qa, qap := (onesIn 16 qa.toNat + (if qav then 1 else 0)) % 2 == 0 }

/-! ### The receiver's swap (R36, R38, R39) -/

/-- The levels an observer of the port's outputs sees, QAV, QA and QAP: while PERST_N is asserted they are high-impedance and their
pull-downs hold them low, which none stands for (R28). -/
def State.portOut (s : State) : Option (Bool × BitVec 16 × Bool) :=
  if s.inReset then none else some (s.adm.qav, s.adm.qa, s.adm.qap)

/-- The retirement record of a table (R41). -/
def ActTable.retire (a : ActTable) : UpRec := .retire ⟨a.tbl.buildBeat, a.used⟩ a.tbl.idx

/-- The table of boundary `idx` retired with nothing consumed. -/
def retireUnused (idx buildBeat : Nat) : UpRec := .retire ⟨buildBeat, List.replicate 8 0⟩ idx

/-- A table becomes active; the one it replaces retires (R36, R39). -/
def State.activate (s : State) (t : ClsTable) : State :=
  let old := match s.adm.active with | some a => [a.retire] | none => []
  (s.withAdm { s.adm with active := some ⟨t, List.replicate 8 0⟩, up := s.adm.up ++ old }).setFld ADM_STS_TABLE_BEAT t.buildBeat

/-- The swap at the first QCLK edge after a boundary indication (R36, R39). -/
def State.swapNow (s : State) : State :=
  if s.adm.swapPend then
    let s0 := s.withAdm { s.adm with swapPend := false, ready := none }
    let s1 := match s.adm.ready with
      | some t => s0.activate t
      | none => s0
    (s1.setFlag ADM_STS_STALE (decide (1 ≤ s.adm.missed))).setFlag ADM_STS_STALE_DEFER (decide (2 ≤ s.adm.missed))
  else s

/-- A table that arrived while the port answers TABLE_STALE becomes active at the next edge (R39). -/
def State.swapStale (s : State) : State :=
  match s.adm.arrived with
  | some t =>
    if s.flag ADM_STS_STALE_DEFER then
      let s1 := s.activate t
      ((s1.withAdm { s1.adm with arrived := none, metDue := true, missed := 0 }).setFlag ADM_STS_STALE false).setFlag
        ADM_STS_STALE_DEFER false
    else s
  | none => s

/-- A rising edge of QCLK at the receiver (R36, R45). (DEDUCED: assumption 74.) -/
def State.qclkEdge (s : State) : State := (s.setFlag ADM_STS_QCLK_PRESENT true).swapNow.swapStale

/-- SWAP_EDGE: a QCLK edge of a cycle with QV = 0 (R29, R36). While the device is held in reset the port neither answers nor sees QCLK
(R28). -/
def execSwapEdge (s : State) : Host.Outcome State Fault Refusal :=
  .next (if s.inReset then s else (s.drive false 0).qclkEdge)

/-- QCLK_STOP: no edge for 1 µs (Table 2-13). -/
def execQclkStop (s : State) : Host.Outcome State Fault Refusal := .next (s.setFlag ADM_STS_QCLK_PRESENT false)

/-- The consumption of an ACCEPT at the commit edge, with its accept record; the timestamp replica is within 12 ticks (R29, R41).
(DESIGN CHOICE: assumption 73.) -/
def State.consume (s : State) (a : ActTable) (qd : BitVec 32) (slot : Nat) : State :=
  let c := qd.toNat % 8
  let r := s.fresh
  let dev : Int := (r.1 % 25 : Nat) - 12
  let rec_ : AcceptRec := ⟨BitVec.ofNat 12 slot, BitVec.ofNat 3 c, qd, BitVec.ofInt 64 (s.beat.ts.toNat + dev)⟩
  r.2.withAdm { r.2.adm with
    active := some { a with used := a.used.set c (a.used.getD c 0 + 1) }
    up := r.2.adm.up ++ [.accept rec_] }

/-- ADMISSION_DESCRIPTOR: a cycle with QV = 1, answered and committed from the table active before its closing edge (R29, R34,
R38); nothing answers while the device is held in reset (R28). (DESIGN CHOICE: assumption 73.) (DEDUCED: assumption 74.) -/
def execAdmissionDescriptor (qd : BitVec 32) (qdp : Bool) (s : State) : Host.Outcome State Fault Refusal :=
  if s.inReset then .next s
  else match s.adm.active with
  | none => .next ((s.drive false 0).qclkEdge)
  | some a =>
    if a.tbl.portClosed then .next ((s.drive false 0).qclkEdge)
    else
      let ans := portAnswer a (s.flag ADM_STS_STALE_DEFER) qd qdp
      let s1 := s.drive true ans.qa
      match ans with
      | .accept k => .next ((s1.consume a qd k).qclkEdge)
      | .defer _ _ => .next s1.qclkEdge
      | .refuse r =>
        if r = 1 then .next (((s1.setFlag ADM_STS_PARITY_ERR true).logD ev_PARITY_ERR blkAdm 0 [qd.toNat]).qclkEdge)
        else .next s1.qclkEdge

/-! ### The class table image (R40, Table 2-9) -/

/-- Eight header bytes. -/
def hdrBytes (h : ClsHdr) : List Byte :=
  bytesLE 1 (h.st + 4 * h.code) ++ bytesLE 1 h.hint ++ bytesLE 1 h.promptMax ++ bytesLE 1 h.genMax ++ bytesLE 2 h.gstart ++
    bytesLE 2 h.gcount

/-- The image of a table as Derida sends it. -/
def tableImage (t : ClsTable) : List Byte :=
  let g := t.grants ++ List.replicate (1024 - t.grants.length) 0
  let body := t.hdrs.flatMap hdrBytes ++ g.flatMap (bytesLE 2) ++ bytesLE 8 t.buildBeat ++
    bytesLE 4 ((if t.parityEn then 1 else 0) + (if t.portClosed then 2 else 0))
  body ++ bytesLE 4 (crc32c body)

/-- Bytes `o` to `o + n - 1` of an image as a number. -/
def imgNat (img : List Byte) (o n : Nat) : Nat := natLE ((img.drop o).take n)

/-- The header of class `c` in an image. -/
def imgHdr (img : List Byte) (c : Nat) : ClsHdr :=
  let b := imgNat img (8 * c) 1
  ⟨b % 4, b / 4 % 16, imgNat img (8 * c + 1) 1, imgNat img (8 * c + 2) 1, imgNat img (8 * c + 3) 1,
    imgNat img (8 * c + 4) 2 % 1024, imgNat img (8 * c + 6) 2 % 2048⟩

/-- Whether the marked bits of a header are 0, its STATE valid and its range in the array (Table 2-9). -/
def imgHdrOk (img : List Byte) (c : Nat) : Bool :=
  let h := imgHdr img c
  decide (imgNat img (8 * c) 1 < 64) && decide (h.st ≠ 3) && decide (imgNat img (8 * c + 4) 2 < 1024) &&
    decide (imgNat img (8 * c + 6) 2 < 2048) && decide (h.gstart + h.gcount ≤ 1024)

/-- Whether the grant ranges of two classes overlap. -/
def rangesMeet (a b : ClsHdr) : Bool :=
  decide (0 < a.gcount) && decide (0 < b.gcount) && decide (a.gstart < b.gstart + b.gcount) && decide (b.gstart < a.gstart + a.gcount)

/-- The checks of R40 on an image. -/
def imgOk (img : List Byte) : Bool :=
  decide (img.length = 2128) && decide (imgNat img 0x84C 4 = crc32c (img.take 0x84C)) &&
    (List.range 8).all (imgHdrOk img) &&
    (List.range 8).all (fun i => (List.range i).all (fun j => !rangesMeet (imgHdr img i) (imgHdr img j))) &&
    (List.range 1024).all (fun i => decide (imgNat img (0x40 + 2 * i) 2 < 4096)) && decide (imgNat img 0x848 4 < 4)

/-- The table of an image, received as that of boundary `idx`. -/
def imgTable (idx : Nat) (img : List Byte) : ClsTable :=
  ⟨idx, imgNat img 0x840 8, (List.range 8).map (imgHdr img), (List.range 1024).map (fun i => imgNat img (0x40 + 2 * i) 2),
    (imgNat img 0x848 4).testBit 0, (imgNat img 0x848 4).testBit 1⟩

/-- The boundary of the table now due, where the image is that table's: its BUILD_BEAT, and, where a load of BEAT_COUNT has given
another table not yet retired the same one, the contents that were built (R39, R447). (DEDUCED: assumption 117.) -/
def State.dueImage (s : State) (img : List Byte) : Option Nat :=
  match s.adm.due, s.adm.built.getLast? with
  | some d, some x =>
    let twins := s.adm.built.filter (fun y => y.buildBeat == x.buildBeat)
    if d.1 = x.idx ∧ x.buildBeat = imgNat img 0x840 8 ∧ (twins.length ≤ 1 ∨ tableImage x = img) then some d.1 else none
  | _, _ => none

/-- CLASS_TABLE_ARRIVAL: an image that fails its checks is discarded and logged; one that is not the table now due arrives too
late and is discarded; else it is held for its swap (R39, R40). Nothing arrives over a lost UCIe module (R432).
(DEDUCED: assumption 117.) -/
def execClassTableArrival (img : List Byte) (s : State) : Host.Outcome State Fault Refusal :=
  if s.ucieLost then .next s
  else if !imgOk img then .next (s.logD ev_TABLE_BAD blkAdm 0 [])
  else match s.dueImage img with
    | some i => if s.adm.metDue then .next s else .next (s.withAdm { s.adm with arrived := some (imgTable i img) })
    | none => .next s

/-- BOUNDARY_INDICATION: the table due is ready for the swap edge, or is discarded and retired unused (R39). A ready table that
no QCLK edge has made active is skipped and retires unused (Table 2-19). -/
def execBoundaryIndication (s : State) : Host.Outcome State Fault Refusal :=
  let a := s.adm
  let due := (a.built.getLast?).map (fun x => (x.idx, x.buildBeat))
  match a.due with
  | none => .next (s.withAdm { a with due := due, swapPend := true })
  | some d =>
    if a.metDue then .next (s.withAdm { a with due := due, swapPend := true, metDue := false, missed := 0 })
    else match a.arrived with
      | some t =>
        let skip := match a.ready with | some r => [retireUnused r.idx r.buildBeat] | none => []
        .next (s.withAdm { a with
          due := due, swapPend := true, ready := some t, arrived := none, missed := 0, up := a.up ++ skip })
      | none =>
        .next ((s.withAdm { a with
          due := due, swapPend := true, missed := a.missed + 1, up := a.up ++ [retireUnused d.1 d.2] }).setFlag ADM_STS_STALE true)

/-! ### Derida: records, deadlines and COMMIT (R41 to R44) -/

/-- The GEN_MAX of the class header in the table that granted a slot. -/
def State.grantGenMax (s : State) (k c : Nat) : Nat :=
  match s.adm.built.find? (fun t => ((t.grants.drop (t.hdr c).gstart).take (t.hdr c).gcount).contains k) with
  | some t => (t.hdr c).genMax
  | none => 0

/-- A slot whose body is late is released (R44). -/
def State.expireBody (s : State) (k : Nat) : State :=
  let r := s.slot k
  if r.phase = .accepted ∧ r.deadline ≤ s.beat.idx then
    ((s.releaseSlot k).setFlag ADM_STS_BODY_EXPIRED true).logD ev_BODY_EXPIRED blkAdm 0 [k, r.tc]
  else s

/-- BODY_DL as it acts (Table 2-12). -/
def bodyDl (v : Nat) : Nat := max v 1

/-- Whether a commit edge with timestamp `ts` lies in the present beat: on the present timeline or on one that a load in this beat
replaced (R44, R80); a stamp may run ahead of BEAT_TIMESTAMP by the replica's 12 ticks (R41). -/
def State.inBeat (s : State) (ts : BitVec 64) : Bool :=
  let on := fun (a b : BitVec 64) => decide (0 ≤ (ts - a).toInt) && decide ((ts - b).toInt ≤ 12)
  on s.beat.bkTs s.beat.ts || s.beat.oldLines.any (fun l => on l.start l.stop)

/-- ACCEPT_RECORD: the next request sequence number and the ring entry header (R42); the deadline counts from the beat of the
commit edge with the BODY_DL active there (R44). A commit edge that is not in this beat was in the last one. -/
def execAcceptRecord (slot : BitVec 12) (tc : BitVec 3) (desc : BitVec 32) (ts : BitVec 64) (s : State) :
    Host.Outcome State Fault Refusal :=
  let k := slot.toNat
  let early := !s.inBeat ts && decide (0 < s.beat.idx)
  let dl := if early then s.beat.idx - 1 + bodyDl s.beat.prevDl else s.beat.idx + bodyDl (s.act ADM_CTL_BODY_DL)
  let gb := bitsOf desc.toNat 11 8
  let r : SlotRec :=
    { phase := .accepted, tc := tc.toNat, reqSeq := BitVec.ofNat 32 (s.fld ADM_REQ_SEQ_NEXT), tag := bitsOf desc.toNat 20 12,
      promptBlk := bitsOf desc.toNat 3 8, genBlk := if gb = 0 then s.grantGenMax k tc.toNat else gb, acceptTs := ts,
      deadline := dl, postedIdx := 0, postedOff := 0, out := ⟨none, none⟩ }
  let up := match s.adm.up with
    | .accept x :: t => if x = ⟨slot, tc, desc, ts⟩ then t else s.adm.up
    | l => l
  let s1 := ((s.withAdm { s.adm with up := up }).setSlot k r).countUp ADM_REQ_SEQ_NEXT
  .next ((s1.ringWriteAt k 0 (s1.ringHeader k)).expireBody k)

/-- The table that a retirement record names: that of the record's boundary where it is the oldest on its way, else the oldest table
with that BUILD_BEAT (R447). -/
def State.retired (s : State) (beat : Nat) (used : List Nat) : Option ClsTable :=
  match s.adm.up with
  | .retire x i :: _ => s.adm.built.find? (fun t => if x = ⟨beat, used⟩ then t.idx == i && t.buildBeat == beat else t.buildBeat == beat)
  | _ => s.adm.built.find? (fun t => t.buildBeat == beat)

/-- RETIREMENT_RECORD: the table's grants are no longer reserved, so those not consumed return to the pool (R37, R41). Consumed
ones stay held by their slots' states. -/
def execRetirementRecord (beat : BitVec 48) (used : List Nat) (s : State) : Host.Outcome State Fault Refusal :=
  let up := match s.adm.up with
    | .retire x i :: t => if x = ⟨beat.toNat, used⟩ then t else .retire x i :: t
    | l => l
  let built := match s.retired beat.toNat used with
    | some t => s.adm.built.erase t
    | none => s.adm.built
  .next (s.withAdm { s.adm with built := built, up := up })

/-- A COMMIT that is ignored (R43). -/
def State.commitErr (s : State) (k : Nat) : State :=
  (s.setFlag ADM_STS_COMMIT_ERR true).logD ev_COMMIT_ERR blkAdm (s.ringAddr k + 0x14) [k, (s.slot k).tc]

/-- BODY_LEN of a ring entry, as memory holds it. -/
def State.bodyLen (s : State) (k : Nat) : Option Nat × State :=
  let r := s.physRead (s.sysReq 7 0) false (s.ringAddr k + 0x10) 4
  (match r.1 with
   | .ok d => some (natLE d)
   | _ => none, r.2)

/-- A matching COMMIT with the BODY_LEN that was read (R43). -/
def State.commitOk (s : State) (k len : Nat) : State :=
  let r := s.slot k
  if len ≤ s.ringStride - 64 then
    (s.setSlot k { r with phase := .posted, postedIdx := s.beat.idx, postedOff := s.beat.tick - s.beat.bk }).ringWriteAt k 7
      (bytesLE 1 2)
  else s.commitErr k

/-- Whether a COMMIT of slot `k` is late: it falls in the TCLK cycle of the boundary that is the slot's deadline (R44). -/
def State.commitLate (s : State) (k : Nat) : Bool := s.inCycle && decide ((s.slot k).deadline ≤ s.beat.idx + 1)

/-- A write that covers COMMIT bytes of slot `k`: `all` says it wrote all four with permission (R43). -/
def State.commitSeen (s : State) (k : Nat) (all : Bool) (v : BitVec 32) : State :=
  let r := s.slot k
  if all && decide (r.phase = .accepted) && decide (v = r.reqSeq) && !s.commitLate k then
    match s.bodyLen k with
    | (some n, t) => t.commitOk k n
    | (none, t) => t.commitErr k
  else s.commitErr k

/-- Writes the enabled bytes of a word. -/
def State.writeEnabled (s : State) (q : Req) (a : Nat) (be : BitVec 4) (v : BitVec 32) : State :=
  (List.range 4).foldl (fun t i =>
    if be.getLsbD i then (t.localWrite q true (a + i) (bytesLE 1 (v.toNat / 256 ^ i))).2 else t) s

/-- COMMIT: a driver write of the COMMIT bytes that `be` enables, under context `cid` (R43). -/
def execCommit (slot : BitVec 12) (be : BitVec 4) (v : BitVec 32) (cid : BitVec 12) (s : State) : Host.Outcome State Fault Refusal :=
  let a := localPa (s.ringAddr slot.toNat + 0x14)
  let q : Req := ⟨cid.toNat, 4, 0, s.chip, sourceStop 4 0⟩
  if be = 0 then .next s
  else
    let ok := s.claimed q a false true && !s.roleOffAt a
    let s1 := if ok then s.writeEnabled q a be v else s.abortAt q a true
    .next (s1.commitSeen slot.toNat (ok && decide (be = 15)) v)

/-! ### Building a class table (R35, R37, R92) -/

/-- The active stage batch (Table 5-7). -/
def State.batchB (s : State) (p : Nat) : Nat := min (max (s.act (PCTL_BATCH_B p)) 1) 4096

/-- The failover record of a partition. -/
def State.foOf (s : State) (p : Nat) : FoSt := Tbl.get (fun _ => (⟨.none, 0, 0⟩ : FoSt)) s.fo p

/-- Replaces it. -/
def State.setFo (s : State) (p : Nat) (f : FoSt) : State := { s with fo := Tbl.set (fun _ => (⟨.none, 0, 0⟩ : FoSt)) s.fo p f }

/-- The partition that runs the stage of partition `p`: itself, or the spare that took it, through every takeover since (R107). -/
def State.runner (s : State) : Nat → Nat → Nat
  | 0, p => p
  | n + 1, p => if (s.foOf p).phase = .done then s.runner n (s.foOf p).spare else p

/-- The partitions that run the stage of partition `p` or are taking it over (R35, R107). -/
def State.runners (s : State) : Nat → Nat → List Nat
  | 0, _ => []
  | n + 1, p =>
    let f := s.foOf p
    let self := if 1 ≤ s.role p ∧ s.role p ≤ 3 then [p] else []
    if f.phase = .none then self
    else if f.phase = .done then self ++ s.runners n f.spare
    else self ++ f.spare :: s.runners n f.spare

/-- The partitions of this chip on the chain from partition `p` on, following NEXT while it names this chip (R91, R21). -/
def State.chain (s : State) : Nat → Nat → List Nat
  | 0, _ => []
  | n + 1, p =>
    let nx := s.fld (PCTL_NEXT_CHIP p)
    if s.fld (PCTL_ROLE_ROLE p) = 3 ∨ !(nx == 63 || nx == s.chip) then [p]
    else p :: s.chain n (s.fld (PCTL_NEXT_PART p))

/-- Whether a partition's thermal level keeps its pipeline closed (R35, R359). -/
def State.thermal2 (s : State) (p : Nat) : Bool := decide (2 ≤ s.fld (PWR_THERM_LEVEL p))

/-- Whether some partition that runs a stage of the pipeline of INGRESS partition `p` is at thermal level 2 or higher (R35). -/
def State.pipeHot (s : State) (p : Nat) : Bool :=
  (s.chain 8 p).any (fun x => (s.runners 8 x).any s.thermal2)

/-- Whether a class's PIPE names an INGRESS partition (R92). -/
def State.pipeOk (s : State) (c : Nat) : Bool := s.fld (PCTL_ROLE_ROLE (s.fld (ADM_CLASS_CFG_PIPE c))) == 1

/-- STATE and CODE of a class header (R35); the values are those active from the boundary. -/
def State.hdrState (s : State) (c : Nat) : Nat × Nat :=
  let mode := s.act ADM_CTL_MODE
  if s.act (ADM_CLASS_CFG_EN c) = 0 then (2, 2)
  else if mode = 3 then (2, 5)
  else if mode = 2 then (1, 4)
  else if 3 ≤ s.fld PWR_STS_DEV_LEVEL then (1, 3)
  else if s.act (ADM_CLASS_CFG_HOLD c) = 1 then (1, 4)
  else if s.guardClosed c then (1, 2)
  else if s.pipeOk c && s.pipeHot (s.fld (ADM_CLASS_CFG_PIPE c)) then (1, 3)
  else (0, 0)

/-- Slots of the range of INGRESS partition `p`. -/
def State.slotRange (s : State) (p : Nat) : List Nat :=
  (List.range (s.fld (PCTL_SLOTS_SLOT_COUNT p))).map (fun i => s.fld (PCTL_SLOTS_SLOT_BASE p) + i)

/-- The grants of a table in all its classes. -/
def ClsTable.granted (t : ClsTable) : List Nat := t.hdrs.flatMap (fun h => (t.grants.drop h.gstart).take h.gcount)

/-- The size in effect of the pool of INGRESS partition `p` (R92), 0 while it drains (R437); B and PCTL_CMD are those of the partition
that runs the stage now. -/
def State.poolSize (s : State) (p : Nat) : Nat :=
  let q := s.runner 8 p
  if s.act (PCTL_CMD_CMD q) = 1 then 0
  else min (s.fld (PCTL_SLOTS_SLOT_COUNT p)) (s.fld (PCTL_STAGE_LOOP_LEN p) * s.batchB q)

/-- Adds the grants of class `c` to those placed so far: its header's start and count, and the array (R37). -/
def State.grantClass (s : State) (reserved : List Nat) (closed : Bool) (c : Nat) (arr : List Nat) : ClsHdr × List Nat :=
  let st := s.hdrState c
  let p := s.fld (ADM_CLASS_CFG_PIPE c)
  let range := s.slotRange p
  let isFree := fun k => decide ((s.slot k).phase = .free) && !reserved.contains k && !arr.contains k
  let free := range.filter isFree
  let held := range.length - free.length
  let n := if st.1 ≠ 0 ∨ closed = true ∨ s.pipeOk c = false then 0
    else min (min (s.act (ADM_CLASS_CFG_QUOTA c)) (s.poolSize p - held)) (1024 - arr.length)
  let take := free.take n
  (⟨st.1, st.2, s.act (ADM_CLASS_LIM_HINT c), s.act (ADM_CLASS_LIM_PROMPT_MAX c), s.act (ADM_CLASS_LIM_GEN_MAX c),
    if take = [] then 0 else arr.length, take.length⟩, arr ++ take)

/-- Fills the classes in order, each header kept with its class. -/
def State.grantAll (s : State) (reserved : List Nat) (closed : Bool) : List Nat → List Nat → List (Nat × ClsHdr) → List (Nat × ClsHdr) × List Nat
  | [], arr, hs => (hs, arr)
  | c :: t, arr, hs =>
    let r := s.grantClass reserved closed c arr
    s.grantAll reserved closed t r.2 (hs ++ [(c, r.1)])

/-- Whether the port closes: MODE CLOSED, or the physical function in D3hot or on its way there (R35). -/
def State.portCloses (s : State) : Bool := s.act ADM_CTL_MODE == 0 || s.pwr.portHold

/-- Builds T(k) from the state at boundary k (R35, R37). PORT_CLOSED stands in the table, so MODE = CLOSED ends the answers at the swap
edge after boundary k+1, as R36 has it. (DESIGN CHOICE: assumption 123.) -/
def State.buildTable (s : State) : State :=
  let k := s.fld BEAT_COUNT_COUNT
  let closed := s.portCloses
  let order := (List.range 8).map (fun i => (k + i) % 8)
  let r := s.grantAll (s.adm.built.flatMap ClsTable.granted) closed order [] []
  let hdr := fun c => match r.1.find? (fun x => x.1 == c) with | some x => x.2 | none => ⟨0, 0, 0, 0, 0, 0, 0⟩
  let t : ClsTable := ⟨s.beat.idx, k, (List.range 8).map hdr, r.2, s.flag ADM_CTL_PARITY_EN, closed⟩
  s.withAdm { s.adm with built := s.adm.built ++ [t] }

/-- Late bodies at a boundary, in slot order (R44). -/
def State.expireBodies (s : State) : State := s.slots.foldl (fun t e => t.expireBody e.1) s

/-- At the loading boundary DEADLINE_BEAT of every ACCEPTED entry is rewritten (R447). -/
def State.rewriteDeadlines (s : State) : State :=
  s.slots.foldl (fun t e =>
    if e.2.phase = .accepted then t.ringWriteAt e.1 0x0C (bytesLE 4 (t.deadlineBeat e.2)) else t) s

/-- The admission queue depth: slots in STATE = ACCEPTED (2.7). -/
def State.queueDepth (s : State) : Nat := (s.slots.filter (fun e => decide (e.2.phase = .accepted))).length

end Sys2Proof.Machine
end

