-- ==== Sys2Proof/Machine/Check.lean ====
section
/-!
DEFINITION. Machine/Check.lean: frame headers as bytes (Table 5-3) and the Check Unit's contexts (R313 to R316).
-/
namespace Sys2Proof.Machine

/-- BLOCK code of CHK (Table 0-8). -/
def blkChk : Nat := 11

/-- The 64 bytes of a frame header (Table 5-3). -/
def FrameHdr.bytes (h : FrameHdr) : List Byte :=
  bytesLE 2 h.slot.toNat ++ bytesLE 1 h.tc.toNat ++ bytesLE 1 h.kind.toNat ++
    bytesLE 2 (h.srcChip.toNat + h.srcPart.toNat * 256) ++
    bytesLE 2 ((if h.late then 1 else 0) + (if h.sampleValid then 2 else 0) + (if h.sampleKind then 4 else 0) +
      (if h.finalPass then 8 else 0)) ++
    bytesLE 4 h.reqSeq.toNat ++ bytesLE 4 h.beatTag.toNat ++ bytesLE 4 h.pos.toNat ++ bytesLE 4 h.ntok.toNat ++
    bytesLE 4 h.len.toNat ++ bytesLE 4 0 ++ bytesLE 8 h.sample.toNat ++ bytesLE 8 h.acceptTs.toNat ++ bytesLE 16 h.stageData.toNat

/-- The header of a put as it arrives; LATE is the plat's to set. -/
def putFrame (h : PutHdr) : FrameHdr :=
  { slot := h.slot, tc := h.tc, kind := h.kind, srcChip := h.srcChip, srcPart := h.srcPart, late := false,
    sampleValid := h.sampleValid, sampleKind := h.sampleKind, finalPass := h.finalPass, reqSeq := h.reqSeq,
    beatTag := h.beatTag, pos := h.pos, ntok := h.ntok, len := h.len, sample := h.sample, acceptTs := h.acceptTs,
    stageData := h.stageData }

/-- Whether context `n` is enabled with a direction and a binding kind (Table 15-9). -/
def State.ctxIs (s : State) (n dir bkind : Nat) : Bool :=
  s.flag (CHK_CTX_CFG_EN n) && s.fld (CHK_CTX_CFG_DIR n) == dir && s.fld (CHK_CTX_CFG_BKIND n) == bkind

/-- A context's peer chip, 63 read as this chip. -/
def State.ctxChip (s : State) (n : Nat) : Nat :=
  if s.fld (CHK_CTX_CFG_PCHIP n) = 63 then s.chip else s.fld (CHK_CTX_CFG_PCHIP n)

/-- The contexts bound to a put stream (Table 15-5). -/
def State.putCtxs (s : State) (dir lpart chip part : Nat) : List Nat :=
  (List.range 16).filter (fun n => s.ctxIs n dir 0 && s.fld (CHK_CTX_CFG_LPART n) == lpart && s.ctxChip n == chip &&
    s.fld (CHK_CTX_CFG_PPART n) == part)

/-- The contexts bound to a DMA engine in a direction. -/
def State.dmaCtxs (s : State) (dir eng : Nat) : List Nat :=
  (List.range 16).filter (fun n => s.ctxIs n dir 1 && s.fld (CHK_CTX_CFG_LPART n) == eng)

/-- The polynomial of a context; 0b11 acts as 0b00. -/
def State.ctxPoly (s : State) (n : Nat) : Nat := s.fld (CHK_CTX_CFG_POLY n) % 3

/-- Of contexts bound alike the lowest acts, and the others flag the conflict (R316).
(DEDUCED: assumption 79.) -/
def State.chkPick (s : State) (l : List Nat) : Option Nat × State :=
  match l with
  | [] => (none, s)
  | n :: [] => (some n, s)
  | n :: m :: _ => (some n, (s.setFlag CHK_STS_CONFLICT true).logD ev_CHK_CONFLICT blkChk 0 [m])

/-- A mismatch in context `n` (R315). -/
def State.chkErr (s : State) (n expected : Nat) : State :=
  let s1 := ((s.countSat (CHK_CTX_ERRS_COUNT n)).setFbit CHK_STS_ERR n true).setFld (CHK_CTX_EXP_VALUE n) expected
  let s2 := s1.logD ev_CHK_MISMATCH blkChk 0 [n]
  if s2.flag CHK_CTL_IRQ_EN then s2.raise 8 else s2

/-- Context `n` processes one unit (R313). -/
def State.chkRun (s : State) (n : Nat) (data : List Byte) : Nat × State :=
  let v := crcOf (s.ctxPoly n) data
  (v, (s.countUp (CHK_CTX_UNITS_COUNT n)).setFld (CHK_CTX_LAST_VALUE n) v)

/-- The check of a unit against an expected value: whether it holds. (DEDUCED: assumption 79.) -/
def State.chkCompare (s : State) (n : Nat) (data : List Byte) (expected : Nat) : Bool × State :=
  let r := s.chkRun n data
  if r.1 = expected then (true, r.2) else (false, r.2.chkErr n expected)

/-- The check of a put that completes at partition `p`: false is a CHECK failure (R315). A frame without a trailer at a bound
context is a mismatch whose expected value is open. -/
def State.chkPut (s : State) (p : Nat) (h : FrameHdr) (payload : List Byte) (trailer : Option (BitVec 64)) : Bool × State :=
  let r := s.chkPick (s.putCtxs 1 p h.srcChip.toNat h.srcPart.toNat)
  let data := FrameHdr.bytes { h with late := false } ++ payload
  match r.1, trailer with
  | some n, some t => r.2.chkCompare n data (t.toNat % 2 ^ (8 * crcBytes (r.2.ctxPoly n)))
  | some n, none =>
    let x := (r.2.chkRun n data).2.freshBits
    (false, x.2.chkErr n x.1.toNat)
  | none, some _ => (true, (r.2.setFlag CHK_STS_UNCHECKED true).logD ev_CHK_UNCHECKED blkChk 0 [])
  | none, none => (true, r.2)

end Sys2Proof.Machine
end

