-- ==== Sys2Proof/Machine/Link.lean ====
section
/-!
DEFINITION. Machine/Link.lean: Col Links: packing, received flits, routing and the sending of puts (R301, R303, R306 to R312).
-/
namespace Sys2Proof.Machine

/-! ### Packing (R311, R312) -/

/-- One block of 32 elements in BFP8: scale byte and E4M3 codes. -/
def bfpBlock (t : Fmt) (b : List Byte) : List Byte :=
  let vs := (unpackBits t.w 32 (natLE b)).map t.decode
  let sc := scaleSel fmtE4 vs
  BitVec.ofNat 8 sc :: vs.map (fun v => BitVec.ofNat 8 (scaledEncode envRne fmtE4 sc v).bits)

/-- A block as the receiver decodes it (R161); a code that stands above the format's largest finite value decodes as that value, so that
no finite element overflows (R323). (DEDUCED: assumption 92.) -/
def bfpUnblock (t : Fmt) (b : List Byte) : List Byte :=
  let sc := (b.headD 0).toNat
  (b.drop 1).flatMap (fun c => bytesLE (t.w / 8) (encodeVal t true .rne (scaledVal fmtE4 sc c.toNat)).bits)

/-- How a packet of a frame divides into what is packed and what is raw: its flits, whether it has the frame's header, and how many of its
flits hold no whole granule of header or payload: a payload's last bytes and the trailer. -/
structure PackShape where
  flits : Nat
  first : Bool
  tail : Nat
deriving DecidableEq, Repr

/-- Granules of an element block: one of bfloat16, two of binary32. -/
def perBlock (t : Fmt) : Nat := t.w / 16

/-- Raw granules at a packet's front: the header; and, since a packet holds sixteen granules and the header shifts the payload's blocks by
one, the second granule of a binary32 block that began in the packet before (Table 16-7). -/
def PackShape.lead (x : PackShape) (t : Fmt) : Nat :=
  min (x.flits - x.tail) (if x.first || decide (1 < perBlock t) then 1 else 0)

/-- Whole blocks of a packet. -/
def PackShape.blocks (x : PackShape) (t : Fmt) : Nat := (x.flits - x.tail - x.lead t) / perBlock t

/-- The shape of packet `i` of a frame of `n` header and payload bytes, of which the packet is `d`. -/
def shapeOf (n i : Nat) (d : List Byte) : PackShape :=
  let whole := (min n (1024 * i + d.length) - 1024 * i) / 64
  ⟨flitsOf d.length, i == 0, flitsOf d.length - whole⟩

/-- Packs the data of one packet of a frame (R311, R312): the header, granules that complete no block and the tail are raw. -/
def packData (mode : Nat) (t : Fmt) (x : PackShape) (d : List Byte) : List Byte :=
  match mode with
  | 1 =>
    let gs := chunks 64 17 d
    let zero := fun (i : Nat) (g : List Byte) =>
      decide (i + x.tail < x.flits) && !(x.first && i == 0) && g.all (fun b => b == 0)
    let idx := gs.zip (List.range gs.length)
    bytesLE 2 (idx.foldl (fun m e => if zero e.2 e.1 then m + 2 ^ e.2 else m) 0) ++
      (idx.filter (fun e => !zero e.2 e.1)).flatMap (fun e => e.1)
  | 2 =>
    let k := 64 * x.lead t
    let n := x.blocks t
    let w := 64 * perBlock t
    d.take k ++ (chunks w n ((d.drop k).take (w * n))).flatMap (bfpBlock t) ++ d.drop (k + w * n)
  | _ => d

/-- Puts the granules of a ZERO packet back: `m` is the bitmap, `n` the granules left. -/
def zeroUnpack (m : Nat) : Nat → Nat → List Byte → List Byte
  | 0, _, _ => []
  | n + 1, i, d =>
    if m.testBit i then List.replicate 64 0 ++ zeroUnpack m n (i + 1) d
    else d.take 64 ++ zeroUnpack m n (i + 1) (d.drop 64)

/-- The data of a packet as the destination chip unpacks it. -/
def unpackData (mode : Nat) (t : Fmt) (x : PackShape) (d : List Byte) : List Byte :=
  match mode with
  | 1 => zeroUnpack (natLE (d.take 2)) x.flits 0 (d.drop 2)
  | 2 =>
    let k := 64 * x.lead t
    let n := x.blocks t
    d.take k ++ (chunks 33 n ((d.drop k).take (33 * n))).flatMap (bfpUnblock t) ++ d.drop (k + 33 * n)
  | _ => d

/-- OP of a put's packet: its shape, so that the destination can unpack it without the frame.
(DESIGN CHOICE: assumption 92.) -/
def PackShape.op (x : PackShape) : Nat := (if x.first then 1 else 0) + 2 * x.tail

/-- The shape that a packet's Traverse header tells. -/
def shapeOfHdr (h : BitVec 64) : PackShape := ⟨hdrFlits h, h.getLsbD 25, bitsOf h.toNat 26 6⟩

/-- The packets of a frame: the pieces of header, payload and trailer with their shapes; `n` is the length without the trailer. -/
def framePackets (n : Nat) (b : List Byte) : List (PackShape × List Byte) :=
  let parts := chunks 1024 (b.length / 1024 + 1) b
  (parts.zip (List.range parts.length)).map (fun e => (shapeOf n e.2 e.1, e.1))

/-- A frame as the receiving plat will store it: under BFP8, packed and unpacked packet by packet (R314). -/
def storedFrame (mode : Nat) (t : Fmt) (b : List Byte) : List Byte :=
  if mode = 2 then (framePackets b.length b).flatMap (fun e => unpackData 2 t e.1 (packData 2 t e.1 e.2)) else b

/-- The packed element format of a PFMT bit. -/
def pfmtOf (b : Bool) : Fmt := if b then fmtS else fmtBf

/-! ### Arriving flits and packets (R301, R303, R306 to R308) -/

/-- The stop of the UCIe module that leads to port `p` (R298, Table 14-2). -/
def portStop (p : Nat) : Nat := stopOf (2 + p / 2) 44

/-- A packet for this chip is unpacked and delivered: a request to memory is served, and every other packet goes on over the Traverse to its
stop (R275, R302, R311). -/
def State.linkDeliver (s : State) (p : Nat) (k : LinkPkt) : State :=
  let h := k.thdr
  let op := bitsOf h.toNat 25 7
  let cid := bitsOf h.toNat 44 12
  let a := natLE (k.data.take 8) % 2 ^ 46
  let src := k.srcChip.toNat
  if k.cls = 0 ∧ op = opRead then
    s.remoteServe src cid (hdrSrc h) (hdrTag h) a (.read (natLE ((k.data.drop 8).take 8)))
  else if k.cls = 0 ∧ op = opWrite then s.remoteServe src cid (hdrSrc h) (hdrTag h) a (.write (k.data.drop 8))
  else
    let d := unpackData k.pack.toNat (pfmtOf k.pfmt) (shapeOfHdr h) k.data
    (s.trvUse (portStop p) (hdrDst h) (hdrVc h) (hdrFlits h)).send (.trv h d)

/-- A packet arrives: delivered here, forwarded under this chip's entry, or discarded for want of a route and answered. The receive buffer
of a forwarded packet is free once it has left (R306 to R308). -/
def State.rxPkt (s : State) (p : Nat) (k : LinkPkt) : State :=
  let s1 := s.countBy (LNK_RX_BYTES_COUNT p) (linkWire k)
  let buf := some (p * 8 + k.cls.toNat * 2 + (if k.sub then 1 else 0))
  let c := k.dstChip.toNat
  if c = s.chip ∨ c = 63 then (s1.linkDeliver p k).bufferFree buf
  else if !s.hasRoute c then
    (((s1.logD ev_NO_ROUTE 8 0 [c]).send (.linkDenied k.srcChip.toNat k.thdr)).remoteReply s.chip k.srcChip.toNat (hdrDst k.thdr)
      (hdrSrc k.thdr) (hdrTag k.thdr) .abort).bufferFree buf
  else
    let dim := s.flag (LNK_ROUTE_DIM c)
    let sub := s.flag (LNK_ROUTE_DL c) || (k.dim == dim && k.sub)
    s1.linkSendAll (s.fld (LNK_ROUTE_PORT c)) [⟨{ k with sub := sub, dim := dim }, buf⟩]

/-- LINK_PACKET. -/
def execLinkPacket (port : Fin 8) (k : LinkPkt) (s : State) : Host.Outcome State Fault Refusal := .next (s.rxPkt port k)

/-- An accepted DATA flit: the link packets that it completes arrive (R301). -/
def State.rxPayload (s : State) (p fpo : Nat) (d : List Byte) : State :=
  let l := s.linkOf p
  let r := flitPkts l.part fpo d
  r.1.foldl (fun t k => t.rxPkt p k) (s.setLink p { l with part := r.2 })

/-- DATA_FLIT: the receiver checks CRC, FEC, KIND and SEQ (R301, R303). Flits that carry no DATA change nothing here. Each accepted
flit is acknowledged. (DEDUCED: assumption 92.) -/
def State.rxFlit (s0 : State) (p : Nat) (f : FlitArgs) : State :=
  let s := s0.countBy (LNK_FEC_CORR_COUNT p) f.fecCorr
  let e := s.fld (LNK_SEQ_RX_E p)
  let kind := f.hdr.toNat / 2 ^ 21 % 4
  let seq := f.hdr.toNat % 2 ^ 16
  let crcOk := crc32c (bytesLE 4 f.hdr.toNat ++ f.payload) == f.crc.toNat
  let nak := fun (t : State) =>
    if (t.linkOf p).nakOut then t else (t.setLink p { t.linkOf p with nakOut := true }).send (.linkNak p e)
  if f.fecBad then nak (s.countSat (LNK_FEC_UNC_COUNT p))
  else if !crcOk then nak (s.countSat (LNK_CRC_ERR_COUNT p))
  else if kind ≠ 0 then s
  else if seq = e then
    (((s.setLink p { s.linkOf p with nakOut := false }).setFld (LNK_SEQ_RX_E p) (e + 1)).send (.linkAck p e)).rxPayload p
      (f.hdr.toNat / 2 ^ 16 % 32) f.payload
  else if serialLe 16 e seq then nak s
  else s

/-- DATA_FLIT. -/
def execDataFlit (port : Fin 8) (f : FlitArgs) (s : State) : Host.Outcome State Fault Refusal := .next (s.rxFlit port f)

/-! ### Puts (R289, R310) -/

/-- The stop of the plat of partition `p`. -/
def platStop (p : Nat) : Nat := stopOf p 40

/-- Without a route when it would leave, a put fails as the no-route case, and its sender tries it again at the next boundary (R305, R307,
R438). -/
def State.putNoRoute (s : State) (r : RemPut) : State :=
  (s.withNet { s.net with remFail := s.net.remFail ++ [r] }).logD ev_NO_ROUTE 8 0 [r.chip]

/-- Sends the packets of a put whose frame token has come, under the CID of PCTL_TENANT (R104, R310 to R314). The frame keeps the packing
mode of its first packet. (DESIGN CHOICE: assumption 127.) -/
def State.sendRemote (s : State) (r : RemPut) : State :=
  if !s.hasRoute r.chip then s.putNoRoute r
  else
    let port := s.fld (LNK_ROUTE_PORT r.chip)
    let cs := s.chkPick (s.putCtxs 0 r.part r.chip r.dpart)
    let body := FrameHdr.bytes { r.hdr with late := false } ++ r.payload
    let m := s.act (LNK_ROUTE_PACK r.chip) % 3
    let mode := if r.hdr.kind.toNat ≤ 1 then m else 0
    let pf := s.flag LNK_PACK_CFG_PFMT
    let tr : List Byte × Bool × State := match cs.1 with
      | some n =>
        let c := cs.2.chkRun n (storedFrame mode (pfmtOf pf) body)
        (bytesLE (crcBytes (cs.2.ctxPoly n)) c.1, true, c.2)
      | none => ([], false, cs.2)
    let s1 := if mode = 0 then tr.2.2 else tr.2.2.countUp (LNK_PACKED_COUNT port)
    let ps := framePackets body.length (body ++ tr.1)
    let pkt := fun (e : PackShape × List Byte) (last : Bool) =>
      (⟨{ thdr := trvHdr (platStop r.dpart) (platStop r.part) 4 e.1.flits e.1.op 0 (s.fld (PCTL_TENANT_CID r.part))
          dstChip := BitVec.ofNat 6 r.chip, srcChip := BitVec.ofNat 6 s.chip, cls := 2, sub := s.flag (LNK_ROUTE_DL r.chip)
          trl := tr.2.1 && last, pack := BitVec.ofNat 2 mode, pfmt := pf, dim := s.flag (LNK_ROUTE_DIM r.chip)
          data := packData mode (pfmtOf pf) e.1 e.2 }, none⟩ : QueuedPkt)
    (s1.trvUse (platStop r.part) (portStop port) 4 (ps.foldl (fun n e => n + e.1.flits) 0)).linkSendAll port
      ((ps.zip (List.range ps.length)).map (fun e => pkt e.1 (e.2 + 1 == ps.length)))

/-- A put to another chip asks for its frame token (R310); without a route it fails (R274). -/
def State.askRemote (s : State) (r : RemPut) : State :=
  if !s.hasRoute r.chip then s.putNoRoute r
  else (s.withNet { s.net with remPuts := s.net.remPuts ++ [r] }).send (.tokenAsk r.chip r.dpart)

/-- REMOTE_FRAME_TOKEN_GRANT: the oldest put of the partition to that plat leaves. -/
def execRemoteFrameTokenGrant (p : Part) (chip : BitVec 6) (part : BitVec 3) (s : State) : Host.Outcome State Fault Refusal :=
  match s.net.remPuts.find? (fun r => r.part == p.val && r.chip == chip.toNat && r.dpart == part.toNat) with
  | none => .next s
  | some r => .next ((s.withNet { s.net with remPuts := s.net.remPuts.erase r }).sendRemote r)

/-- A put leaves partition `p` for a plat, under the CID of PCTL_TENANT (R104); a bound egress context runs over it and appends its trailer
(Table 15-5). (DESIGN CHOICE: assumption 127.) -/
def State.sendPut (s : State) (p chip part : Nat) (h : FrameHdr) (payload : List Byte) : State :=
  if chip ≠ s.chip then s.askRemote ⟨p, chip, part, h, payload⟩
  else
    let r := s.chkPick (s.putCtxs 0 p chip part)
    let cid := s.fld (PCTL_TENANT_CID p)
    let t := r.2.trvUse (platStop p) (platStop part) 4 (flitsOf (64 + payload.length))
    match r.1 with
    | some n =>
      let c := t.chkRun n (FrameHdr.bytes { h with late := false } ++ payload)
      c.2.send (.put p chip part cid h payload (some c.1))
    | none => t.send (.put p chip part cid h payload none)

end Sys2Proof.Machine
end

