-- ==== Sys2Proof/Machine/Stage.lean ====
section
/-!
DEFINITION. Machine/Stage.lean: plats, frames, the beat contract of stages, result writes, recovery of lost puts, partition faults
and failover (chapter 5; R18, R435 to R439).
-/
namespace Sys2Proof.Machine

/-! ### Plats and frames (R99 to R102) -/

/-- A plat with every frame free. -/
def platReset : PlatSt := ⟨[], [], [], [], [], [], 0, 0, []⟩

/-- The plat of partition `p`. -/
def State.plat (s : State) (p : Nat) : PlatSt := Tbl.get (fun _ => platReset) s.plats p

/-- Replaces it. -/
def State.setPlat (s : State) (p : Nat) (x : PlatSt) : State := { s with plats := Tbl.set (fun _ => platReset) s.plats p x }

/-- Frame `f` of partition `p`. -/
def State.frame (s : State) (p f : Nat) : Frame := Tbl.get (fun _ => Frame.none) (s.plat p).frames f

/-- Replaces it. -/
def State.setFrame (s : State) (p f : Nat) (x : Frame) : State :=
  s.setPlat p { s.plat p with frames := Tbl.set (fun _ => Frame.none) (s.plat p).frames f x }

/-- FRAME_KIB, 0 acting as 1 (Table 5-10). -/
def State.frameKib (s : State) (p : Nat) : Nat := max (s.fld (PLAT_CFG_FRAME_KIB p)) 1

/-- NF (R99). -/
def State.nf (s : State) (p : Nat) : Nat := 4096 / s.frameKib p

/-- The payload capacity of a frame (R99). -/
def State.frameCap (s : State) (p : Nat) : Nat := s.frameKib p * 1024 + s.fld (PLAT_CFG_SPILL_KIB p) * 1024 - 64

/-- The lowest frame in FREE. (DEDUCED: assumption 75.) -/
def State.lowFree (s : State) (p : Nat) : Option Nat :=
  (List.range (s.nf p)).find? (fun f => decide ((s.frame p f).st = .free))

/-- The lowest frame that is free for a put without a reservation: frames reserved for puts of other chips are not (R310).
(DEDUCED: assumption 75.) -/
def State.freeFrame (s : State) (p : Nat) : Option Nat :=
  if (s.plat p).frames.length + (s.plat p).reserved.length < s.nf p then s.lowFree p else none

/-- Frames in a state. -/
def State.framesIn (s : State) (p : Nat) (st : FrameSt) : Nat := ((s.plat p).frames.filter (fun e => decide (e.2.st = st))).length

/-- Who writes a partition's spill slices (Table 13-16). -/
def State.spillReq (s : State) (p : Nat) : Req := ⟨s.fld (PCTL_TENANT_CID p), 3, p, s.chip, platStop p⟩

/-- Stores bytes of a frame from offset `o` on: in the plat, and beyond the frame in its spill slice (R99). -/
def State.frameStore (s : State) (p f o : Nat) (d : List Byte) : State :=
  let cap := s.frameKib p * 1024
  let n := cap - o
  let pl := s.plat p
  let s1 := s.setPlat p { pl with sram := Mem.write pl.sram (f * cap + o) (d.take n) }
  let rest := d.drop n
  if rest = [] then s1
  else (s1.physWrite (s1.spillReq p)
    (s.fld (PLAT_SPILL_BASE_BASE p) * 2 ^ 16 + f * s.fld (PLAT_CFG_SPILL_KIB p) * 1024 + (o + n - cap)) rest).2

/-- Reads bytes of a frame from offset `o` on; none where the spill slice cannot be read. -/
def State.frameLoad (s : State) (p f o n : Nat) : Option (List Byte) × State :=
  let cap := s.frameKib p * 1024
  let k := min n (cap - o)
  let a := Mem.read (s.plat p).sram (f * cap + o) k
  if n ≤ k then (some a, s)
  else
    let r := s.physRead (s.spillReq p) false
      (s.fld (PLAT_SPILL_BASE_BASE p) * 2 ^ 16 + f * s.fld (PLAT_CFG_SPILL_KIB p) * 1024 + (o + k - cap)) (n - k)
    match r.1 with
    | .ok b => (some (a ++ b), r.2)
    | _ => (none, r.2)

/-- Whether a kind has a due beat (R93). -/
def hasDue (h : FrameHdr) : Bool := decide (h.kind.toNat ≤ 4)

/-- The due beat (R93). -/
def FrameHdr.due (h : FrameHdr) : Nat := (h.beatTag.toNat + 1) % 2 ^ 32

/-- Whether a frame completed no later than the present boundary plus the slack (R93). -/
def State.inTime (s : State) (x : Frame) : Bool :=
  decide (x.doneIdx < s.beat.idx) || (x.doneIdx == s.beat.idx && decide (x.doneOff ≤ s.beatSlack))

/-- Whether a frame is on the ready list of the present beat (R93). -/
def State.onList (s : State) (x : Frame) : Bool :=
  decide (x.st = .ready) && s.inTime x && (!hasDue x.hdr || serialLe 32 x.hdr.due (s.fld BEAT_COUNT_COUNT % 2 ^ 32))

/-- Frames that satisfy `f`, as numbers in ascending slot order. -/
def State.bySlot (s : State) (p : Nat) (f : Frame → Bool) : List Nat :=
  let l := (s.plat p).frames.filter (fun e => f e.2)
  (sortBy (fun a b => decide (a.2.hdr.slot.toNat ≤ b.2.hdr.slot.toNat)) l).map (fun e => e.1)

/-- The boundary count that an event of now belongs to: one in a boundary's own TCLK cycle comes after it (R101, Table 22-7). -/
def State.edgeIdx (s : State) : Nat := if s.inCycle then s.beat.idx + 1 else s.beat.idx

/-! ### Acknowledgements to senders (R101, R438) -/

/-- Answers the sender of a put that plat `p` has received: by a message on this device, as an RSP link packet to another chip (R310). -/
def State.answerPut (s : State) (p : Nat) (h : FrameHdr) (ok : Bool) : State :=
  let c := h.srcChip.toNat
  if c ≠ s.chip then
    if !s.hasRoute c then s
    else s.linkTo c {
      thdr := trvHdr (platStop h.srcPart.toNat) (platStop p) 1 1 (if ok then opAck else opNack) 0 0, dstChip := h.srcChip
      srcChip := BitVec.ofNat 6 s.chip, cls := 1, sub := false, trl := false, pack := 0, pfmt := false, dim := false
      data := bytesLE 2 h.slot.toNat ++ bytesLE 1 h.kind.toNat ++ bytesLE 1 h.srcPart.toNat }
  else
    let t := s.trvUse (platStop p) (platStop h.srcPart.toNat) 1 1
    t.send (if ok then .putAck c h.srcPart.toNat h.slot h.kind else .putNack c h.srcPart.toNat h.slot h.kind)

/-- Sends the acknowledgement of a put. -/
def State.ackPut (s : State) (p : Nat) (h : FrameHdr) : State := s.answerPut p h true

/-- Sends the negative acknowledgement of a put. -/
def State.nackPut (s : State) (p : Nat) (h : FrameHdr) : State := s.answerPut p h false

/-- The checks of R100 that can discard a put. -/
inductive PutErr where
  | src | hdr | check | dup
deriving DecidableEq, Repr

/-- A put is discarded: its frame is freed at once, PLAT_ERR set, the event logged. Its sender is answered once its last packet has
arrived, which `last` says it has (R100, R438). -/
def State.discardPut (s : State) (p f : Nat) (h : FrameHdr) (e : PutErr) (last : Bool) : State :=
  let s1 := s.setFrame p f Frame.none
  let d := [h.slot.toNat, h.reqSeq.toNat]
  let s2 := match e with
    | .src => (s1.setFlag (PLAT_ERR_SRC p) true).logD ev_PLAT_SRC (blkPart p) 0 d
    | .hdr => (s1.setFlag (PLAT_ERR_HDR p) true).logD ev_PLAT_HDR (blkPart p) 0 d
    | .check => (s1.setFlag (PLAT_ERR_CHECK p) true).logD ev_PLAT_CHECK (blkPart p) 0 d
    | .dup => (s1.setFlag (PLAT_ERR_DUP p) true).logD ev_PLAT_DUP (blkPart p) 0 d
  if last then s2.answerPut p h (e = .dup)
  else s2.setPlat p { s2.plat p with drops := (s2.plat p).drops ++ [⟨f, h, decide (e = .dup)⟩] }

/-- Whether two partitions of this device have the same tenant binding (R100). -/
def State.sameBinding (s : State) (p q : Nat) : Bool :=
  let a := s.flag (PCTL_TENANT_BIND_EN p)
  let b := s.flag (PCTL_TENANT_BIND_EN q)
  a == b && (!a || s.fld (PCTL_TENANT_CID p) == s.fld (PCTL_TENANT_CID q))

/-- The role of the stage that partition `p` has run: its own, or that of the partition it took over (R107). -/
def State.stageRole (s : State) : Nat → Nat → Nat
  | 0, p => s.fld (PCTL_ROLE_ROLE p)
  | n + 1, p => if s.flag (PCTL_STS_TAKEN_OVER p) then s.stageRole n (s.fld (PCTL_STS_FROM p)) else s.fld (PCTL_ROLE_ROLE p)

/-- The role that a put's checks see: of a partition that failover holds, the role of the stage whose puts it forwards (R107). -/
def State.putRole (s : State) (p : Nat) : Nat := if s.role p = 6 then s.stageRole 8 p else s.role p

/-- The SRC check of R100. (DEDUCED: assumption 76.) -/
def State.srcOk (s : State) (p : Nat) (h : FrameHdr) : Bool :=
  let k := h.kind.toNat
  let r := s.putRole p
  let local_ := h.srcChip.toNat == s.chip && s.sameBinding p h.srcPart.toNat
  if k ≤ 4 then
    let pc := if s.fld (PCTL_PREV_CHIP p) = 63 then s.chip else s.fld (PCTL_PREV_CHIP p)
    h.srcChip.toNat == pc && h.srcPart.toNat == s.fld (PCTL_PREV_PART p)
  else if k = 5 then r == 4 && local_
  else decide (1 ≤ r) && decide (r ≤ 3) && local_

/-- The spare to which a failed partition's plat forwards, if its takeover has begun (R107). A spare that has failed in its turn
forwards to its own. -/
def State.forwardChain (s : State) : Nat → Nat → Option Nat
  | 0, _ => none
  | n + 1, p =>
    let f := s.foOf p
    if f.phase = .copying ∨ f.phase = .copied ∨ f.phase = .done then
      (match s.forwardChain n f.spare with
       | some q => some q
       | none => some f.spare)
    else none

/-- The spare to which a failed partition's plat forwards (R107). -/
def State.forwardsTo (s : State) (p : Nat) : Option Nat := s.forwardChain 8 p

/-- Whether a plat holds a frame with the same SLOT, KIND and BEAT_TAG that is READY or TAKEN. -/
def State.holdsSame (s : State) (p : Nat) (h : FrameHdr) : Bool :=
  (s.plat p).frames.any (fun e => (decide (e.2.st = .ready) || decide (e.2.st = .taken)) && decide (e.2.hdr.slot = h.slot) &&
    decide (e.2.hdr.kind = h.kind) && decide (e.2.hdr.beatTag = h.beatTag))

/-- The DUP check of R100; the frames that a failed partition's plat has forwarded stand in the spare's (R107). -/
def State.isDup (s : State) (p : Nat) (h : FrameHdr) : Bool :=
  s.holdsSame p h || (match s.forwardsTo p with | some q => s.holdsSame q h | none => false)

/-- What the header checks find wrong, the first in the order of R100. A QUERY at a partition that is not ASSAY fails HDR (Table 17-7).
(DEDUCED: assumption 76.) -/
def State.headerErr (s : State) (p : Nat) (h : FrameHdr) : Option PutErr :=
  if 7 ≤ h.kind.toNat ∨ (h.kind = 5 ∧ s.putRole p ≠ 4) then some .hdr
  else if !s.srcOk p h then some .src
  else if s.frameCap p < h.len.toNat then some .hdr
  else if s.isDup p h then some .dup
  else none

/-- A header takes frame `f`: the header checks, and the frame fills (R100). -/
def State.acceptHeader (s : State) (p f : Nat) (h : FrameHdr) : State :=
  match s.headerErr p h with
  | some e => s.discardPut p f h e false
  | none => (s.setFrame p f { Frame.none with st := .filling, hdr := h }).frameStore p f 0 h.bytes

/-- Something waits for a free frame of plat `p` (R102, R310). -/
def State.platWait (s : State) (p : Nat) (w : PlatWait) : State :=
  (s.setPlat p { s.plat p with waiting := (s.plat p).waiting ++ [w] }).countUp (PLAT_HELD_CNT_COUNT p)

/-- The frame that a put's header finds: the one reserved for a put of another chip's partition, else a free one (R100, R310). -/
def State.headerFrame (s : State) (p : Nat) (h : FrameHdr) : Option Nat × State :=
  let key := h.srcChip.toNat * 8 + h.srcPart.toNat
  let pl := s.plat p
  if h.srcChip.toNat ≠ s.chip ∧ pl.reserved.contains key = true then
    (s.lowFree p, s.setPlat p { pl with reserved := pl.reserved.erase key })
  else (s.freeFrame p, s)

/-- PUT_HEADER: a put's header takes a free frame, or the put waits (R100, R102).
(DEDUCED: assumption 75.) -/
def State.putHeader (s : State) (p : Nat) (h : FrameHdr) : State :=
  let r := s.headerFrame p h
  match r.1 with
  | some f => r.2.acceptHeader p f h
  | none => r.2.platWait p (.put h)

/-- A frame of plat `p` is reserved for the put of another chip's partition, which gets its frame token (R310). -/
def State.grantFrame (s : State) (p chip part : Nat) : State :=
  (s.setPlat p { s.plat p with reserved := (s.plat p).reserved ++ [chip * 8 + part] }).send (.frameToken chip part p)

/-- What waits for frames takes them as these come free, in order (R102, R310). -/
def State.admitWaiting (s : State) (p : Nat) : List PlatWait → State
  | [] => s
  | w :: t =>
    match s.freeFrame p with
    | some f =>
      let s1 := s.setPlat p { s.plat p with waiting := t }
      (match w with
       | .put h => s1.acceptHeader p f h
       | .token c q => s1.grantFrame p c q).admitWaiting p t
    | none => s

/-- Lets what waits for frames of plat `p` in. -/
def State.letIn (s : State) (p : Nat) : State := s.admitWaiting p (s.plat p).waiting

/-! ### LATE outputs (R83, R84) -/

/-- Counts a LATE slot-beat against partition `p` and logs the slot (R84).
(DEDUCED: assumption 78.) -/
def State.lateSlot (s : State) (p slot : Nat) : State :=
  (s.countUp (BEAT_LATE_COUNT p)).logD ev_SLOT_LATE blkBeat 0 [p, slot, s.fld BEAT_COUNT_COUNT]

/-- Counts `n` LATE slot-beats. -/
def State.lateSlots (s : State) (p slot : Nat) : Nat → State
  | 0 => s
  | n + 1 => (s.lateSlot p slot).lateSlots p slot n

/-- The input is taken in the present beat: from now on its output is owed. -/
def OutSt.start (o : OutSt) (idx : Nat) : OutSt := if o.taken.isSome then o else { o with taken := some idx }

/-- The output is complete at the receiving plat, as far as this device knows. -/
def OutSt.finish (o : OutSt) (idx off : Nat) : OutSt := if o.done.isSome then o else { o with done := some (idx, off) }

/-- Whether the output of an input taken before beat `m` was not complete at boundary `m` plus the slack (R83). -/
def OutSt.lateIn (o : OutSt) (m slack : Nat) : Bool :=
  match o.taken, o.done with
  | some t, none => decide (t < m)
  | some t, some d => decide (t < m) && !(decide (d.1 < m) || (d.1 == m && decide (d.2 ≤ slack)))
  | none, _ => false

/-- The input frame of a slot in plat `p` whose output is owed. -/
def State.owedFrame (s : State) (p : Nat) (slot : BitVec 12) : Option Nat :=
  ((s.plat p).frames.find? (fun e => decide (e.2.hdr.slot = slot) && hasDue e.2.hdr && e.2.out.taken.isSome && e.2.out.done.isNone)).map
    (fun e => e.1)

/-- Notes that the output of a slot's input in partition `p` is complete, at an offset of the present beat: of the input frame, or of the
ring entry. Whether there was one. -/
def State.outDone (s : State) (p : Nat) (slot : BitVec 12) (off : Nat) : Bool × State :=
  match s.owedFrame p slot with
  | some f =>
    let x := s.frame p f
    (true, s.setFrame p f { x with out := x.out.finish s.beat.idx off })
  | none =>
    let r := s.slot slot.toNat
    if s.putRole p = 1 ∧ r.out.taken.isSome = true ∧ r.out.done.isNone = true then
      (true, s.setSlot slot.toNat { r with out := r.out.finish s.beat.idx off })
    else (false, s)

/-- Notes the completion of a put of this device's partition `p`, which its spare may stand for (R84, R107). -/
def State.outDoneAt (s : State) (p : Nat) (slot : BitVec 12) (off : Nat) : Bool × State :=
  let r := s.outDone p slot off
  if r.1 then r
  else match s.forwardsTo p with
    | some q => r.2.outDone q slot off
    | none => r

/-- A completed frame becomes READY; one that joins after its due beat is LATE (R83, R93). Its producer on this chip has brought its output.
Of an output whose input this chip knows, `lateTurn` counts the LATE beats; of another one they count here.
(DEDUCED: assumption 78.) -/
def State.frameReady (s : State) (p f : Nat) (h : FrameHdr) : State :=
  let off := s.beat.tick - s.beat.bk
  let now := s.fld BEAT_COUNT_COUNT % 2 ^ 32
  let join := if off ≤ s.beatSlack then now else now + 1
  let lateBy := if hasDue h && serialLe 32 h.due join then (join + 2 ^ 32 - h.due) % 2 ^ 32 else 0
  let h2 := { h with late := decide (0 < lateBy) }
  let s1 := (s.setFrame p f { Frame.none with st := .ready, hdr := h2, doneIdx := s.beat.idx, doneOff := off }).frameStore p f 0 h2.bytes
  let s2 := s1.countUp (PLAT_PUTS_COUNT p)
  let s3 := if h.kind = 5 then s2.wakeEvent p else s2
  if h.srcChip.toNat = s.chip ∧ hasDue h = true then
    let r := s3.outDoneAt h.srcPart.toNat h.slot off
    if r.1 then r.2 else s3.lateSlots h.srcPart.toNat h.slot.toNat lateBy
  else s3

/-- A put completes at a failed partition whose spare takes over: it is forwarded, and its frame here is freed; while the spare's
plat is full it waits here, and later puts wait behind it (R107, R294). -/
def State.forwardPut (s : State) (p f sp : Nat) (h : FrameHdr) (payload : List Byte) : State :=
  match s.freeFrame sp, (s.plat p).kept with
  | some g, [] =>
    let s1 := ((s.setFrame p f Frame.none).countUp (PLAT_PUTS_COUNT p)).frameReady sp g h
    s1.frameStore sp g 64 payload
  | _, _ =>
    let s1 := (s.frameReady p f h).frameStore p f 64 payload
    s1.setPlat p { s1.plat p with kept := (s1.plat p).kept ++ [f] }

/-- The end of a put that was discarded before: its sender is answered (R100, R438). -/
def State.dropEnd (s : State) (p f : Nat) : State :=
  match (s.plat p).drops.find? (fun d => d.frame == f) with
  | some d => (s.setPlat p { s.plat p with drops := (s.plat p).drops.erase d }).answerPut p d.hdr d.ack
  | none => s

/-- A put completes: POISON, CHECK, then READY with an acknowledgement (R100, R101). While DRAIN is active it is acknowledged and
discarded (R437). (DEDUCED: assumption 75.) -/
def State.putComplete (s : State) (p f : Nat) (a : PutEnd) : State :=
  let x := s.frame p f
  if a.dropped then s.dropEnd p f
  else if x.st ≠ .filling ∨ a.payload.length ≠ x.hdr.len.toNat then s
  else if a.poison then s.discardPut p f x.hdr .hdr true
  else
    let r := s.chkPut p x.hdr a.payload a.trailer
    if !r.1 then r.2.discardPut p f x.hdr .check true
    else if s.act (PCTL_CMD_CMD p) = 1 then
      let t := (r.2.setFrame p f Frame.none).countUp (PLAT_PUTS_COUNT p)
      let u := if x.hdr.srcChip.toNat = s.chip ∧ hasDue x.hdr = true then
          (t.outDoneAt x.hdr.srcPart.toNat x.hdr.slot (s.beat.tick - s.beat.bk)).2 else t
      u.ackPut p x.hdr
    else match s.forwardsTo p with
      | some sp => (r.2.forwardPut p f sp x.hdr a.payload).ackPut p x.hdr
      | none => ((r.2.frameReady p f x.hdr).frameStore p f 64 a.payload).ackPut p x.hdr

/-- PUT_COMPLETE: the last byte of a put arrives. What waited for the frame of a discarded put then takes it. -/
def execPutComplete (p : Part) (f : Fin 4096) (a : PutEnd) (s : State) : Host.Outcome State Fault Refusal :=
  .next ((s.putComplete p f a).letIn p)

/-! ### Frame tokens of other chips (R310) -/

/-- Another chip's partition asks for a frame of plat `p`: it is reserved now, or when one comes free (R102, R310). -/
def State.tokenAsked (s : State) (p chip part : Nat) : State :=
  match s.freeFrame p with
  | some _ => s.grantFrame p chip part
  | none => s.platWait p (.token chip part)

/-! ### Outcomes of a stage's output (R101, R438, R439) -/

/-- The TAKEN or, after a copy, READY input frame of a slot in partition `p`. -/
def State.inputFrame (s : State) (p : Nat) (slot : BitVec 12) (ready : Bool) : Option Nat :=
  ((s.plat p).frames.find? (fun e => (decide (e.2.st = .taken) || (ready && decide (e.2.st = .ready))) && decide (e.2.hdr.slot = slot) &&
    hasDue e.2.hdr)).map (fun e => e.1)

/-- The TAKEN QUERY frame that a REPLY answers: of those of a slot the one whose reply was sent first. -/
def State.queryFrame (s : State) (p : Nat) (slot : BitVec 12) : Option Nat :=
  let l := (s.plat p).frames.filter (fun e => decide (e.2.st = .taken) && decide (e.2.hdr.slot = slot) && decide (e.2.hdr.kind = 5) &&
    e.2.out.taken.isSome)
  ((sortBy (fun a b => decide (a.2.out.taken.getD 0 ≤ b.2.out.taken.getD 0)) l).head?).map (fun e => e.1)

/-- The input frame whose output of `kind` is answered: a pipeline output's, or a REPLY's QUERY. A QUERY is no output of its
slot and has none. -/
def State.answered (s : State) (p : Nat) (slot : BitVec 12) (kind : BitVec 8) (ready : Bool) : Option Nat :=
  if kind.toNat ≤ 4 then s.inputFrame p slot ready
  else if kind = 6 then s.queryFrame p slot
  else none

/-- Moves a frame to ACKED (R101). -/
def State.ackFrame (s : State) (p : Nat) (f : Option Nat) : State :=
  match f with
  | some i => s.setFrame p i { s.frame p i with st := .acked, ackIdx := s.edgeIdx }
  | none => s

/-- The TAKEN REPLY frames of a slot are inputs of its output too. -/
def State.ackReplies (s : State) (p : Nat) (slot : BitVec 12) : State :=
  ((s.plat p).frames.filter (fun e => decide (e.2.st = .taken) && decide (e.2.hdr.slot = slot) && decide (e.2.hdr.kind = 6))).foldl
    (fun t e => t.ackFrame p (some e.1)) s

/-- The acknowledgement of an output of `kind` reaches partition `p`. -/
def State.ackAt (s : State) (p : Nat) (slot : BitVec 12) (kind : BitVec 8) (ready : Bool) : State :=
  let s1 := s.ackFrame p (s.answered p slot kind ready)
  if kind.toNat ≤ 4 then s1.ackReplies p slot else s1

/-- The partition that SRC names for outputs of `p`: the one whose stage it runs, through every takeover (R107). -/
def State.srcChain (s : State) : Nat → Nat → Nat
  | 0, p => p
  | n + 1, p => if s.flag (PCTL_STS_TAKEN_OVER p) then s.srcChain n (s.fld (PCTL_STS_FROM p)) else p

/-- The partition that SRC names for outputs of `p` (R107). -/
def State.srcPart (s : State) (p : Nat) : Nat := s.srcChain 8 p

/-- What EGRESS keeps of a slot before its first result. -/
def egrNone : EgrRec := ⟨0, false, 0, 0, none⟩

/-- What the EGRESS stage that partition `p` runs keeps of a slot. -/
def State.egrKey (s : State) (p : Nat) (slot : BitVec 12) : Nat := 4096 * s.srcPart p + slot.toNat

/-- The record. -/
def State.egrOf (s : State) (k : Nat) : EgrRec := Tbl.get (fun _ => egrNone) s.egr k

/-- Replaces it. -/
def State.setEgr (s : State) (k : Nat) (e : EgrRec) : State := { s with egr := Tbl.set (fun _ => egrNone) s.egr k e }

/-- A feedback put of EGRESS to another chip carries the sample that its result write formed, until it is acknowledged (R47, R310). -/
def State.withSample (s : State) (p : Nat) (h : FrameHdr) : FrameHdr :=
  if s.putRole p = 3 ∧ 2 ≤ h.kind.toNat ∧ h.kind.toNat ≤ 4 then
    let e := s.egrOf (s.egrKey p h.slot)
    match e.sample with
    | some x => if e.reqSeq = h.reqSeq then { h with sampleValid := true, sampleKind := x.1, sample := BitVec.ofNat 64 x.2 }
        else { h with sampleValid := false }
    | none => { h with sampleValid := false }
  else h

/-- The sample of an acknowledged feedback put has reached the INGRESS device. -/
def State.sampleSent (s : State) (p : Nat) (slot : BitVec 12) : State :=
  let k := s.egrKey p slot
  if (s.egrOf k).sample.isSome then s.setEgr k { s.egrOf k with sample := none } else s

/-- PUT_ACKNOWLEDGEMENT: the slot's input frame becomes ACKED; for a failed partition, the spare's copy too (R101, R107). -/
def execPutAcknowledgement (p : Part) (slot : BitVec 12) (kind : BitVec 8) (s : State) : Host.Outcome State Fault Refusal :=
  let s0 := if kind.toNat ≤ 4 then (s.outDoneAt p slot (s.beat.tick - s.beat.bk)).2 else s
  let s1 := if 2 ≤ kind.toNat ∧ kind.toNat ≤ 4 then s0.sampleSent p slot else s0
  let s2 := s1.ackAt p slot kind false
  let s3 := s2.setPlat p { s2.plat p with ringNacks := Tbl.set (fun _ => 0) (s2.plat p).ringNacks slot.toNat 0 }
  match s.forwardsTo p with
  | some sp => .next (s3.ackAt sp slot kind true)
  | none => .next s3

/-- Puts a RELEASE frame for a slot to NEXT (R439). -/
def State.putRelease (s : State) (p : Nat) (h : FrameHdr) : State :=
  let dst := if s.fld (PCTL_NEXT_CHIP p) = 63 then s.chip else s.fld (PCTL_NEXT_CHIP p)
  s.sendPut p dst (s.fld (PCTL_NEXT_PART p))
    { FrameHdr.zero with
      slot := h.slot, tc := h.tc, kind := 4, srcChip := BitVec.ofNat 6 s.chip, srcPart := BitVec.ofNat 3 (s.srcPart p),
      reqSeq := h.reqSeq, beatTag := BitVec.ofNat 32 (s.fld BEAT_COUNT_COUNT), acceptTs := h.acceptTs } []

/-- A slot is abandoned after three negative acknowledgements: no tally sample of it is written any more (R439). -/
def State.abandon (s : State) (p : Nat) (h : FrameHdr) : State :=
  ((s.logD ev_SLOT_ABANDONED (blkPart p) 0 [h.slot.toNat, h.reqSeq.toNat]).sampleSent p h.slot).putRelease p h

/-- A completion offset past every slack: the frame is first ready in the next beat. -/
def afterSlack : Nat := 2 ^ 32

/-- A negative acknowledgement for a frame input (R438, R439). -/
def State.nackFrame (s : State) (p i : Nat) : State :=
  let x := s.frame p i
  if 3 ≤ x.nacks + 1 then
    let s1 := if x.out.lateIn s.beat.idx s.beatSlack then s.lateSlot p x.hdr.slot.toNat else s
    (s1.setFrame p i Frame.none).abandon p x.hdr
  else s.setFrame p i { x with
    st := .ready, hdr := { x.hdr with late := true }, nacks := x.nacks + 1, doneIdx := s.edgeIdx, doneOff := afterSlack
    out := if hasDue x.hdr then x.out else ⟨none, none⟩ }

/-- A negative acknowledgement for an input taken from the ring: TAKEN returns to POSTED (R438). -/
def State.nackRing (s : State) (p : Nat) (slot : BitVec 12) : State :=
  let r := s.slot slot.toNat
  if r.phase ≠ .taken then s
  else
    let n := Tbl.get (fun _ => 0) (s.plat p).ringNacks slot.toNat + 1
    let s1 := s.setPlat p { s.plat p with ringNacks := Tbl.set (fun _ => 0) (s.plat p).ringNacks slot.toNat (if 3 ≤ n then 0 else n) }
    if 3 ≤ n then
      s1.abandon p { FrameHdr.zero with slot := slot, tc := BitVec.ofNat 8 r.tc, reqSeq := r.reqSeq, acceptTs := r.acceptTs }
    else (s1.setSlot slot.toNat { r with phase := .posted, postedIdx := s.edgeIdx, postedOff := afterSlack }).ringWriteAt slot.toNat 7
      (bytesLE 1 2)

/-- A negative acknowledgement reaches partition `p`: the frame or ring input it answers, if there is one. -/
def State.nackAt (s : State) (p : Nat) (slot : BitVec 12) (kind : BitVec 8) : Bool × State :=
  match s.answered p slot kind false with
  | some i => (true, s.nackFrame p i)
  | none =>
    if s.putRole p = 1 ∧ kind.toNat ≤ 4 ∧ (s.slot slot.toNat).phase = .taken then (true, s.nackRing p slot) else (false, s)

/-- NEGATIVE_ACKNOWLEDGEMENT (R438, R439); of a failed partition the input may stand in its spare's plat (R107). -/
def execNegativeAcknowledgement (p : Part) (slot : BitVec 12) (kind : BitVec 8) (s : State) : Host.Outcome State Fault Refusal :=
  let r := s.nackAt p slot kind
  if r.1 then .next (r.2.letIn p)
  else match s.forwardsTo p with
    | some sp => .next ((s.nackAt sp slot kind).2.letIn sp)
    | none => .next s

/-! ### The beat contract (R94, R95) -/

/-- Whether a partition's stage takes frames: its program runs, and neither DRAIN, HALT nor RESET is active (R437). -/
def State.stageRuns (s : State) (p : Nat) : Bool := !s.flag (PCTL_STS_FAILED p) && s.act (PCTL_CMD_CMD p) == 0

/-- Takes frames in order while `n` are left. -/
def State.takeFrames (s : State) (p : Nat) : List Nat → Nat → State
  | [], _ => s
  | _, 0 => s
  | f :: t, n + 1 =>
    let x := s.frame p f
    let s1 := s.setFrame p f { x with st := .taken, out := if hasDue x.hdr then x.out.start s.beat.idx else x.out }
    (s1.setPlat p { s1.plat p with tookInputs := (s1.plat p).tookInputs + 1 }).takeFrames p t n

/-- FRAME_TAKE: a LAYER or EGRESS stage takes ready frames in ascending slot order up to B + CARRY in the beat (R94). A RELEASE
frame is not offered to stage code (R439). -/
def execFrameTake (p : Part) (s : State) : Host.Outcome State Fault Refusal :=
  if (s.role p = 2 ∨ s.role p = 3) ∧ s.stageRuns p = true then
    let cap := s.batchB p + s.act (PCTL_BATCH_CARRY p)
    .next (s.takeFrames p (s.bySlot p (fun x => s.onList x && decide (x.hdr.kind ≠ 4))) (cap - (s.plat p).tookInputs))
  else .next s

/-- The INGRESS partition's posted bodies that are inputs of the beat, in ascending request sequence number (R95). -/
def State.bodies (s : State) (p : Nat) : List Nat :=
  let b := s.fld (PCTL_SLOTS_SLOT_BASE p)
  let l := s.slots.filter (fun e => decide (e.2.phase = .posted) && decide (b ≤ e.1) &&
    decide (e.1 < b + s.fld (PCTL_SLOTS_SLOT_COUNT p)) &&
    (decide (e.2.postedIdx < s.beat.idx) || (e.2.postedIdx == s.beat.idx && decide (e.2.postedOff ≤ s.beatSlack))))
  (sortBy (fun x y => serialLe 32 x.2.reqSeq.toNat y.2.reqSeq.toNat) l).map (fun e => e.1)

/-- An input chosen by INGRESS: a frame or a slot's body. -/
inductive InSrc where
  | frame (f : Nat)
  | body (slot : Nat)
deriving DecidableEq, Repr

/-- Whether an input carries a prompt pass: a body's first pass, or the pass after a PASS_DONE (R95, R97). -/
def State.isPass (s : State) (p : Nat) : InSrc → Bool
  | .frame f => decide ((s.frame p f).hdr.kind = 3)
  | .body _ => true

/-- Keeps at most `n` inputs that carry a prompt pass; the rest are put back (R95). -/
def State.keepPasses (s : State) (p : Nat) : List InSrc → Nat → List InSrc
  | [], _ => []
  | x :: t, n =>
    if s.isPass p x then (match n with | 0 => s.keepPasses p t 0 | m + 1 => x :: s.keepPasses p t m)
    else x :: s.keepPasses p t n

/-- Counts the sample that a feedback frame carries, once (R47, R50). -/
def State.countCarried (s : State) (p f : Nat) : State :=
  let x := s.frame p f
  let h := x.hdr
  if h.sampleValid && !x.sampled then
    (s.setFrame p f { x with sampled := true }).countSample (h.tc.toNat % 8) (if h.sampleKind then 1 else 0) h.sample.toNat
  else s

/-- INGRESS takes one input: a feedback frame's sample is counted in this beat (R47), a body's entry becomes TAKEN. -/
def State.takeInput (s : State) (p : Nat) (x : InSrc) : State :=
  let pass := if s.isPass p x then 1 else 0
  let pl := s.plat p
  let s1 := s.setPlat p { pl with tookInputs := pl.tookInputs + 1, tookPasses := pl.tookPasses + pass }
  match x with
  | .frame f =>
    let y := s1.frame p f
    (s1.setFrame p f { y with st := .taken, out := y.out.start s.beat.idx }).countCarried p f
  | .body k =>
    let r := s1.slot k
    (s1.setSlot k { r with out := r.out.start s.beat.idx }).setPhase k .taken

/-- INGRESS_INTAKE: feedback frames, then posted bodies, then the limit of prompt passes (R95). Inputs that become available in the slack
count with all that the beat has taken, bodies among them. (DESIGN CHOICE: assumption 129.) -/
def execIngressIntake (p : Part) (s : State) : Host.Outcome State Fault Refusal :=
  if s.role p = 1 ∧ s.stageRuns p = true then
    let b := s.batchB p
    let took := (s.plat p).tookInputs
    let fr := (s.bySlot p (fun x => s.onList x && (decide (x.hdr.kind = 2) || decide (x.hdr.kind = 3)))).take
      (b + s.act (PCTL_BATCH_CARRY p) - took)
    let bo := (s.bodies p).take (b - (took + fr.length))
    let all := fr.map InSrc.frame ++ bo.map InSrc.body
    let keep := s.keepPasses p all (max (s.act (PCTL_PASS_PASS_SLOTS p)) 1 - (s.plat p).tookPasses)
    .next (keep.foldl (fun t x => t.takeInput p x) s)
  else .next s

/-! ### Result writes (R18, R47) -/

/-- RESULT_WRITE: the result entry is written to host memory and a sample is formed, unless the same token position was written
before for the same request (R18). The sample is counted here when the INGRESS stage is on this chip, and waits for the feedback
frame otherwise (R47). A write that the host does not take is a result write all the same: it forms its sample, and its timestamp stands.
(DESIGN CHOICE: assumption 122.) -/
def execResultWrite (p : Part) (a : ResultArgs) (s : State) : Host.Outcome State Fault Refusal :=
  if s.role p ≠ 3 ∨ s.stageRuns p = false then .next s
  else
    let s1 := if s.hostFails a.addr.toNat a.data.length then s
      else { s with hostMem := Mem.write s.hostMem a.addr.toNat a.data }
    let k := s.egrKey p a.slot
    let e := s.egrOf k
    let same := e.wrote && decide (e.reqSeq = a.reqSeq)
    if same && e.lastPos == a.pos.toNat then .next s1
    else
      let t := sampleOf s.beat.ts (if same then e.lastTs else a.acceptTs)
      let nc := s.fld (PCTL_NEXT_CHIP p)
      let here := nc == 63 || nc == s.chip
      let s2 := s1.setEgr k ⟨a.reqSeq, true, a.pos.toNat, s.beat.ts, if here then none else some (same, t)⟩
      .next (if here then s2.countSample a.tc.toNat (if same then 1 else 0) t else s2)

/-! ### Partition faults and failover (R106, R107, R435) -/

/-- Whether the spare named for partition `p` can take its stage (R106).
(DEDUCED: assumption 77.) -/
def State.spareOk (s : State) (p : Nat) : Bool :=
  let sp := s.fld (PCTL_FO_SPARE p)
  s.role sp == 5 && !s.flag (PCTL_FO_FO_BUSY p) && decide ((s.foOf p).phase ≠ .done) &&
    (List.range 8).all (fun q => q == p || !(decide ((s.foOf q).phase = .triggered) || decide ((s.foOf q).phase = .copying) ||
      decide ((s.foOf q).phase = .copied)) || (s.foOf q).spare != sp)

/-- A failover trigger: accepted for the next boundary, or ignored and logged (R106). The role of the partition is not looked at.
(DESIGN CHOICE: assumption 128.) -/
def State.foTrigger (s : State) (p : Nat) : State :=
  if s.spareOk p then (s.setFo p ⟨.triggered, s.fld (PCTL_FO_SPARE p), 0⟩).wakeEvent (s.fld (PCTL_FO_SPARE p)) else s.logD ev_FO_IGNORED (blkPart p) 0 [p]

/-- FO_CMD: a write of 1 to PCTL_FO.FO_CMD. -/
def execFoCmd (p : Part) (s : State) : Host.Outcome State Fault Refusal := .next (s.foTrigger p)

/-- DBG_TRIG pins in output direction pulse at a fatal fault of their partitions (R441). -/
def State.trigPulse (s : State) (p : Nat) : State :=
  (List.range 4).foldl (fun t k => if t.flag (DBG_TRIG_DIR k) && t.fbit (DBG_TRIG_PART k) p then t.send (.trigPulse k) else t) s

/-- The takeover that partition `p` runs as a spare stops when it faults during the copy: both partitions read FAILED (R435, Table 5-12).
(DEDUCED: assumption 77.) -/
def State.stopCopy (s : State) (p : Nat) : State :=
  (List.range 8).foldl (fun t q =>
    let f := t.foOf q
    if f.spare = p ∧ (f.phase = .copying ∨ f.phase = .copied) then
      (((t.setFo q ⟨.none, 0, 0⟩).setFlag (PCTL_FO_FO_BUSY q) false).setFld (PCTL_ROLE_ROLE_ACTIVE p) 6).useEnd (.copy q)
    else t) s

/-- A fatal compute fault of partition `p` with its CAUSE and cluster, 31 for none (R435). The first fault's CAUSE stands; every one triggers
failover where AUTO_FO is set (R106). -/
def State.computeFatal (s : State) (p cause clu : Nat) : State :=
  let first := !s.flag (PCTL_FAULT_FATAL p)
  let s1 := if first then (s.setFld (PCTL_FAULT_CAUSE p) cause).setFld (PCTL_FAULT_CLUSTER p) clu else s
  let s2 := ((s1.setFlag (PCTL_STS_FAILED p) true).setFlag (PCTL_FAULT_FATAL p) true).setFlag (PCTL_FAULT_ALERT_PEND p) true
  let s3 := (((s2.logD ev_COMPUTE_FATAL (blkPart p) 0 [cause]).setFlag (PCTL_STS_RUNNING p) false).trigPulse p).stopCopy p
  if s3.flag (PCTL_FO_AUTO_FO p) then s3.foTrigger p else s3

/-- DECLARE: a write of 1 to PCTL_FAULT.DECLARE (R435). -/
def execDeclare (p : Part) (s : State) : Host.Outcome State Fault Refusal := .next (s.computeFatal p 3 31)

/-! ### The copy of a failover (R107, Table 5-4) -/

/-- The WCB bytes over a region, as a sparse list of addresses. -/
def State.regionWcb (s : State) (src len : Nat) : Mem :=
  s.mem.wcb.foldl (fun m g => g.2.entries.foldl (fun m2 e =>
    e.bytes.foldl (fun m3 b => match b.2 with
      | some v => if decide (src ≤ e.line * 128 + b.1) && decide (e.line * 128 + b.1 < src + len) then
          Mem.put m3 (e.line * 128 + b.1) v else m3
      | none => m3) m2) m) []

/-- The bytes of a stack region as a reader sees them, as a sparse list: DRAM with the WCB entries over it. -/
def State.regionBytes (s : State) (src len : Nat) : Mem :=
  (s.regionWcb src len).foldl (fun m e => Mem.put m e.1 e.2)
    (s.mem.bytes.filter (fun e => decide (src ≤ e.1) && decide (e.1 < src + len)))

/-- The granules of a region that the WCB forwards bytes of, with the number of those bytes (R245). -/
def State.regionFwd (s : State) (src len : Nat) : Tbl Nat :=
  (s.regionWcb src len).foldl (fun t e => Tbl.set (fun _ => 0) t (e.1 / 64) (Tbl.get (fun _ => 0) t (e.1 / 64) + 1)) []

/-- Whether the DRAM is read for a granule of a region: some byte of it is not forwarded. -/
def fwdPartial (fwd : Tbl Nat) (g : Nat) : Bool := decide (Tbl.get (fun _ => 0) fwd g < 64)

/-- The first granule of a region whose read is uncorrectable, as an address. -/
def State.regionBad (s : State) (fwd : Tbl Nat) (src len : Nat) : Option Nat :=
  let inR := fun (g : Nat) => decide (src ≤ g * 64) && decide (g * 64 < src + len) && fwdPartial fwd g
  let gs := (s.mem.poison.filter (fun e => e.2 && inR e.1)).map (fun e => e.1) ++
    (s.mem.ecc.filter (fun e => decide (e.2 = .ue) && inR e.1)).map (fun e => e.1)
  (sortBy (fun a b => decide (a ≤ b)) gs).head?.map (fun g => g * 64)

/-- The reads of a region: forwarded pieces are counted, the DRAM's bytes, and correctable granules are corrected, rewritten, counted and
logged (R238, R245). -/
def State.regionRead (s : State) (q : Req) (fwd : Tbl Nat) (src len : Nat) : State :=
  let s1 := fwd.foldl (fun t e => t.countUp (WCB_FWD_CNT_COUNT (src / 0x000800000000) (groupOf (e.1 * 64)))) s
  let full := (fwd.filter (fun e => !fwdPartial fwd e.1)).length
  let ces := (s.mem.ecc.filter (fun e => decide (e.2 = .ce) && decide (src ≤ e.1 * 64) && decide (e.1 * 64 < src + len) &&
    fwdPartial fwd e.1)).map (fun e => e.1)
  (ces.foldl (fun t g => (t.granuleRead q (g * 64)).2) s1).rdBytes src (len - 64 * (full + ces.length))

/-- Makes room in a WCB that is full for the lines of a copy: the oldest entry drains for CAPACITY (R243). -/
def State.wcbRoom (s : State) (k : Nat) : State :=
  if (s.mem.wcbOf k).entries.length < 64 then s else (s.drainCapacity k).freeEntries k 1

/-- Writes whole lines over a region through the WCB: every line drains FULL, so entries, errors and POISON of the region are gone, and
writes that waited for an entry go on. (DEDUCED: assumption 77.) -/
def State.regionStore (s0 : State) (src dst len : Nat) (m : Mem) : State :=
  let k := dst / 0x000800000000
  let s := (partGroups k).foldl State.wcbRoom s0
  let inR := fun a => decide (dst ≤ a) && decide (a < dst + len)
  let bytes := m.foldl (fun t e => Mem.put t (e.1 - src + dst) e.2) (s.mem.bytes.filter (fun e => !inR e.1))
  let wcb := (s.mem.wcb.map (fun g => (g.1, { g.2 with entries := g.2.entries.filter (fun e => !inR (e.line * 128)) }))).filter
    (fun g => decide (g.2 ≠ (⟨[], []⟩ : WcbGroup)))
  let s1 := s.withMem { s.mem with
    bytes := bytes, wcb := wcb
    poison := s.mem.poison.filter (fun e => !inR (e.1 * 64))
    ecc := s.mem.ecc.filter (fun e => !inR (e.1 * 64)) }
  let s2 := (List.range 4).foldl (fun t g => t.countBy (WCB_DRAIN_CNT_COUNT k g 0) (len / 512)) s1
  ((partGroups k).foldl (fun t g => t.retryStalled g (t.mem.wcbOf g).stalled) (s2.wrBytes dst len)).answerDrains

/-- The first denied granule of a run of 2 MiB granules. -/
def State.runDenied (s : State) (q : Req) (r w : Bool) (a : Nat) : Nat → Option Nat
  | 0 => none
  | n + 1 => if s.roleOffAt a || !s.claimed q a r w then some a else s.runDenied q r w ((a / 2 ^ 21 + 1) * 2 ^ 21) n

/-- Copies one region for a takeover of partition `n` by `sp`: false where the spare faults, what lies before an uncorrectable granule
having been copied (R107, R434). Both stacks leave self-refresh (R241). (DEDUCED: assumption 77.) -/
def State.copyRegion (s : State) (n sp src dst len : Nat) : Bool × State :=
  let q : Req := ⟨s.fld (PCTL_TENANT_CID n), 3, sp, s.chip, platStop sp⟩
  let a := localPa src
  let b := localPa dst
  let steps := len / 2 ^ 21 + 2
  match s.runDenied q true false a (min steps ((len + a % 2 ^ 21 + 2 ^ 21 - 1) / 2 ^ 21)) with
  | some d => (false, s.abortAt q d false)
  | none => match s.runDenied q false true b (min steps ((len + b % 2 ^ 21 + 2 ^ 21 - 1) / 2 ^ 21)) with
    | some d => (false, s.abortAt q d true)
    | none =>
      if len = 0 then (true, s)
      else
        let s1 := (s.exitSr a).exitSr b
        let fwd := s1.regionFwd a len
        let bad := s1.regionBad fwd a len
        let good := match bad with | some u => u - a | none => len
        let s2 := s1.regionRead q (fwd.filter (fun e => decide (e.1 * 64 < a + good))) a good
        let s3 := ((s2.trvUse (stopOf (a / 0x000800000000) 36) (platStop sp) 1 (good / 64)).regionStore a b (good / 128 * 128)
          (s1.regionBytes a (good / 128 * 128)))
        match bad with
        | some u => (false, (s3.granuleRead q u).2)
        | none => (true, s3)

/-- Reads a little-endian number of the copy list with the SYSTEM CID.
(DEDUCED: assumption 77.) -/
def State.listWord (s : State) (a n : Nat) : Option Nat × State :=
  let r := s.physRead (s.sysReq 3 0) false a n
  match r.1 with
  | .ok d => (some (natLE d), r.2)
  | _ => (none, r.2)

/-- Copies the regions of the list from entry `i` on. -/
def State.copyList (s : State) (n sp a : Nat) : Nat → Nat → Bool × State
  | 0, _ => (true, s)
  | k + 1, i =>
    let r1 := s.listWord (a + 0x10 + 32 * i) 8
    let r2 := r1.2.listWord (a + 0x18 + 32 * i) 8
    let r3 := r2.2.listWord (a + 0x20 + 32 * i) 8
    match r1.1, r2.1, r3.1 with
    | some src, some dst, some len =>
      let r := r3.2.copyRegion n sp src dst len
      if r.1 then r.2.copyList n sp a k (i + 1) else r
    | _, _, _ => (false, r3.2)

/-- Moves one frame of a failed plat into the spare's as READY, and frees it there (R107). A frame that finds no room stays for the
next boundary; one whose spill slice cannot be read faults the spare (R434). (DEDUCED: assumption 77.) -/
def State.copyFrame (s : State) (n sp f : Nat) : State :=
  let x := s.frame n f
  if s.flag (PCTL_STS_FAILED sp) then s
  else if x.st = .ready ∨ x.st = .taken then
    match s.freeFrame sp with
    | none => s
    | some g =>
      let r := s.frameLoad n f 0 (64 + x.hdr.len.toNat)
      match r.1 with
      | some d =>
        let s1 := (r.2.setFrame n f Frame.none).setPlat n { (r.2.setFrame n f Frame.none).plat n with
          kept := ((r.2.setFrame n f Frame.none).plat n).kept.filter (fun k => k != f) }
        ((s1.setFrame sp g { x with st := .ready }).frameStore sp g 0 d).trvUse (platStop n) (platStop sp) 4 (flitsOf d.length)
      | none => r.2.computeFatal sp 4 31
  else s

/-- Moves the frames of partition `n`'s plat: the forwarded ones that wait, in their order, then those that are READY or TAKEN (R107). -/
def State.copyFrames (s : State) (n sp : Nat) : State :=
  let s1 := (s.plat n).kept.foldl (fun t f => t.copyFrame n sp f) s
  (s1.plat n).frames.foldl (fun t e => if (t.plat n).kept.contains e.1 then t else t.copyFrame n sp e.1) s1

/-- The copy of partition `n`'s stage into its spare completes: list, then frames (R107). A copy that cannot be read faults the
spare with CAUSE TAKEOVER (R434). -/
def State.foCopy (s : State) (n : Nat) : State :=
  let f := s.foOf n
  if f.phase ≠ .copying ∨ s.awake f.spare = false ∨ s.flag (PCTL_STS_FAILED f.spare) = true then s
  else
    let a := s.fld (PCTL_FO_LIST_ADDR n) * 64
    let r1 := s.listWord a 4
    let r2 := r1.2.listWord (a + 8) 8
    match r1.1, r2.1 with
    | some cnt, some root =>
      let r := r2.2.copyList n f.spare a (min cnt 1024) 0
      if r.1 then
        let s1 := r.2.copyFrames n f.spare
        if s1.flag (PCTL_STS_FAILED f.spare) then s1 else (s1.setFo n ⟨.copied, f.spare, root⟩).useEnd (.copy n)
      else r.2.computeFatal f.spare 4 31
    | _, _ => r2.2.computeFatal f.spare 4 31

/-- FAILOVER_COPY_COMPLETE of the takeover of partition `p`. -/
def execFailoverCopyComplete (p : Part) (s : State) : Host.Outcome State Fault Refusal := .next (s.foCopy p)

/-- The words of the PCTL block that a spare takes over: stage registers, batch, pass and binding, PCTL_NUM, PCTL_LOSS and the
parameters (R107, R322). -/
def takeoverWords : List Nat := [0x04, 0x08, 0x0C, 0x10, 0x18, 0x1C, 0x20, 0x24, 0x28, 0x48, 0x4C, 0x80, 0x84, 0x88, 0x8C, 0x90, 0x94, 0x98, 0x9C]

/-- Copies register words with their active values. -/
def State.copyWords (s : State) (n sp : Nat) : List Nat → State
  | [] => s
  | o :: t =>
    let s1 := s.setWord (partBase sp + o) (s.word (partBase n + o))
    ({ s1 with active := Tbl.set resetWord s1.active (partBase sp + o) (Tbl.get resetWord s.active (partBase n + o)) }).copyWords n sp t

/-- A takeover's step at a boundary (R107): the start after a trigger, or the spare taking the stage after its copy. A frame that
found no room in the spare's plat moves when there is some. -/
def State.foTurn (s : State) (n : Nat) : State :=
  let f := s.foOf n
  match f.phase with
  | .triggered =>
    let s1 := (s.setFo n { f with phase := .copying }).setFlag (PCTL_FO_FO_BUSY n) true
    (((s1.setFld (PCTL_ROLE_ROLE_ACTIVE n) 6).setFlag (PCTL_STS_FAILED n) true).setFlag (PCTL_STS_RUNNING n) false).logD ev_FO_START
      (blkPart n) 0 [n, f.spare]
  | .copied =>
    let role := s.stageRole 8 n
    let s0 := s.copyFrames n f.spare
    let s1 := ((s0.copyWords n f.spare takeoverWords).setFo n { f with phase := .done }).setFld (PCTL_ROLE_ROLE_ACTIVE f.spare) role
    let s2 := ((s1.setFlag (PCTL_FO_FO_DONE n) true).setFlag (PCTL_FO_FO_BUSY n) false).logD ev_FO_DONE (blkPart n) 0 [n, f.spare]
    ((s2.setFlag (PCTL_STS_TAKEN_OVER f.spare) true).setFld (PCTL_STS_FROM f.spare) n).setFlag (PCTL_STS_RUNNING f.spare) true
  | .done => s.copyFrames n ((s.forwardsTo n).getD f.spare)
  | _ => s

/-! ### The boundary at a plat (R84, R94, R95, R101, R437, R439) -/

/-- The slot-beats of the beat that ends in plat `q`, charged to partition `p`: inputs on the ready list that were not taken, and inputs
taken in an earlier beat whose output was not complete in time (R83, R84, R94). A RELEASE frame waits only for a takeover.
(DEDUCED: assumption 78.) -/
def State.latePlat (s : State) (q p : Nat) (moving : Bool) : State :=
  let owed := fun (x : Frame) => hasDue x.hdr && x.out.lateIn s.beat.idx s.beatSlack
  let wait := fun (x : Frame) => hasDue x.hdr && x.out.taken.isNone && s.onList x && (moving || decide (x.hdr.kind ≠ 4))
  let s1 := (s.bySlot q wait).foldl (fun t f =>
    let x := t.frame q f
    let h := { x.hdr with late := true }
    ((t.setFrame q f { x with hdr := h }).frameStore q f 0 h.bytes).lateSlot p h.slot.toNat) s
  (s1.bySlot q owed).foldl (fun t f => t.lateSlot p (t.frame q f).hdr.slot.toNat) s1

/-- The slots of an INGRESS range whose bodies make them LATE in the beat that ends: posted and not taken, or taken in an earlier beat with
the output not complete in time (R84, R95). -/
def State.lateBodies (s : State) (p : Nat) : List Nat :=
  (s.bodies p).filter (fun k => (s.slot k).out.taken.isNone) ++
    (s.slotRange p).filter (fun k => (s.slot k).out.lateIn s.beat.idx s.beatSlack)

/-- The LATE slot-beats of the beat that ends at the stage that partition `p` runs, or held when it failed (R84, R94, R95, R107, R436,
R437). (DEDUCED: assumption 78.) -/
def State.lateTurn (s : State) (p : Nat) : State :=
  let r := s.role p
  if r = 0 ∨ 4 ≤ r ∧ r ≠ 6 then s
  else
    let f := s.foOf p
    let moving := decide (f.phase = .copying) || decide (f.phase = .copied)
    let s1 := s.latePlat p p moving
    let s2 := if moving then s1.latePlat f.spare p true else s1
    if s.putRole p = 1 ∧ f.phase ≠ .done then (s.lateBodies p).foldl (fun t k => t.lateSlot p k) s2 else s2

/-- Frees ACKED frames whose acknowledgement came before this boundary's cycle, and lets waiting puts in (R101, R102). -/
def State.freeAcked (s : State) (p : Nat) : State :=
  let pl := s.plat p
  (s.setPlat p { pl with
    frames := pl.frames.filter (fun e => decide (e.2.st ≠ .acked) || decide (s.beat.idx ≤ e.2.ackIdx)), tookInputs := 0
    tookPasses := 0 }).letIn p

/-- RELEASE frames ready at a boundary: forwarded by LAYER and EGRESS, and at INGRESS they free their slots, and a sample that one carries is
counted (R47, R95, R439). -/
def State.releaseTurn (s : State) (p : Nat) : State :=
  let rel := s.bySlot p (fun x => s.onList x && decide (x.hdr.kind = 4))
  let r := s.role p
  if r = 1 then
    (rel.foldl (fun t f =>
      let k := (t.frame p f).hdr.slot.toNat
      let t1 := (t.countCarried p f).setFrame p f Frame.none
      if (t1.slot k).phase = .free then t1 else t1.releaseSlot k) s).letIn p
  else if r = 2 ∨ r = 3 then
    rel.foldl (fun t f =>
      let x := t.frame p f
      (t.setFrame p f { x with st := .taken, out := x.out.start s.beat.idx }).putRelease p x.hdr) s
  else s

/-- DRAIN at a boundary: READY and TAKEN frames are freed; at the first one an INGRESS partition releases its slots (R437). -/
def State.drainTurn (s : State) (p : Nat) (first : Bool) : State :=
  let pl := s.plat p
  let s1 := (s.setPlat p { pl with frames := pl.frames.filter (fun e => decide (e.2.st ≠ .ready) && decide (e.2.st ≠ .taken)) }).letIn p
  if first && s.role p == 1 then
    let live := (s.slotRange p).filter (fun k => decide ((s.slot k).phase ≠ .free))
    (live.foldl State.releaseSlot s1).logD ev_PIPE_DRAINED (blkPart p) 0 [live.length]
  else s1

/-- Frames that were TAKEN return to READY at the RUN after a RESET (R437). -/
def State.untakeAll (s : State) (p : Nat) : State :=
  let pl := s.plat p
  s.setPlat p { pl with frames := pl.frames.map (fun e =>
    (e.1, if e.2.st = .taken then { e.2 with st := .ready, doneIdx := s.beat.idx, doneOff := 0 } else e.2)) }

/-- Puts that found no route are tried again at each boundary; those of a partition under DRAIN are not (R437, R438). -/
def State.retryPuts (s : State) : State :=
  (s.net.remFail.filter (fun r => s.act (PCTL_CMD_CMD r.part) != 1)).foldl State.askRemote
    (s.withNet { s.net with remFail := [] })

/-- A poisoned packet of a put from stop `src` reaches plat `p`: the put that fills a frame from there is discarded at once (R100, R286). -/
def State.poisonPut (s : State) (p src : Nat) : State :=
  let part := s.srcPart (stopPart src)
  match (s.plat p).frames.find? (fun e => decide (e.2.st = .filling) && e.2.hdr.srcChip.toNat == s.chip &&
      e.2.hdr.srcPart.toNat == part) with
  | some e => (s.discardPut p e.1 e.2.hdr .hdr false).letIn p
  | none => s

end Sys2Proof.Machine
end

