-- ==== Sys2Proof/Machine/Engine.lean ====
section
/-!
DEFINITION. Machine/Engine.lean: memory access of the streaming engines: every page of a range is translated and permitted before a
byte moves (R266), and the reports of a failed access (R202, R345).
-/
namespace Sys2Proof.Machine

/-- VLEN in bits (Table 0-3). -/
def State.vlen (s : State) : Nat := if s.product.narrow then 4096 else 8192

/-- Codes of a failed engine access (Tables 10-5 and 17-5). -/
def engPageFault : Nat := 1
/-- CLAIM_DENIED. -/
def engDenied : Nat := 2
/-- MEM_ERROR. -/
def engMemError : Nat := 3
/-- REMOTE. -/
def engRemote : Nat := 6

/-- A failed access: code and virtual address. -/
structure EngFail where
  code : Nat
  va : Nat
deriving DecidableEq, Repr

/-- A piece of a virtual range within one 64 KiB page with its local physical address. -/
structure EngPiece where
  va : Nat
  pa : Nat
  n : Nat
deriving DecidableEq, Repr

/-- An engine of a partition: its TLB, CID, claim SOURCE code, whether it may use the far tier, and whether it accesses memory as any agent
does: descriptors, query records and result records, whose place no rule limits (R190, R331). -/
structure Eng where
  part : Nat
  tlb : TlbId
  cid : Nat
  source : Nat
  far : Bool
  wide : Bool
deriving DecidableEq, Repr

/-- The engine at a descriptor or a record. (DEDUCED: assumption 90.) -/
def Eng.ordinary (e : Eng) : Eng := { e with far := true, wide := true }

/-- Whether the engine may access a place: its own stack, and for Assay the far tier (R202, R331). -/
def Eng.reaches (e : Eng) : Loc → Bool
  | .stack k => e.wide || k == e.part
  | .ddr _ => e.far
  | .cxl _ => e.far
  | .regs => false
  | .aperture _ => false
  | .none => false

/-- Translates the 64 KiB pages of a range in ascending order, up to the first that fails (R266). -/
def State.engMap (s : State) (e : Eng) (k : Access) : Nat → Nat → Nat → List EngPiece → Option EngFail × List EngPiece × State
  | 0, _, _, acc => (none, acc, s)
  | _, _, 0, acc => (none, acc, s)
  | fuel + 1, va, n, acc =>
    let m := min n (65536 - va % 65536)
    let r := s.translate e.part e.tlb e.cid (va % 2 ^ 56)
    match r.1 with
    | none => (some ⟨engPageFault, va⟩, acc, r.2)
    | some t =>
      if !t.permits k false then (some ⟨engPageFault, va⟩, acc, r.2)
      else
        let pa := t.phys (va % 2 ^ 56)
        if r.2.isLocal pa && e.reaches (r.2.loc (localPa pa)) then
          r.2.engMap e k fuel (va + m) (n - m) (acc ++ [⟨va, localPa pa, m⟩])
        else if e.wide && !r.2.isLocal pa then r.2.engMap e k fuel (va + m) (n - m) (acc ++ [⟨va, pa, m⟩])
        else (some ⟨engRemote, va⟩, acc, r.2)

/-- Pages that a range of `n` bytes can touch. -/
def pageFuel (n : Nat) : Nat := n / 65536 + 2

/-- The request of an engine. -/
def State.engReq (s : State) (e : Eng) : Req := ⟨e.cid, e.source, e.part, s.chip, sourceStop e.source e.part⟩

/-- The virtual address of a byte of a piece, by its physical address. -/
def EngPiece.vaOf (p : EngPiece) (a : Nat) : Nat := p.va + (a % 65536 - p.pa % 65536)

/-- Reads translated pieces in order; bulk reads return the DRAM contents of the stack only (R245). -/
def State.engReadPieces (s : State) (e : Eng) (bulk : Bool) : List EngPiece → List Byte → Option EngFail × List Byte × State
  | [], acc => (none, acc, s)
  | p :: t, acc =>
    let r := s.physRead (s.engReq e) bulk p.pa p.n
    match r.1 with
    | .ok d => r.2.engReadPieces e bulk t (acc ++ d)
    | .denied a => (some ⟨engDenied, p.vaOf a⟩, acc, r.2)
    | .ue a => (some ⟨engMemError, p.vaOf a⟩, acc, r.2)

/-- An engine's read of `n` bytes at `va`. -/
def State.engRead (s : State) (e : Eng) (bulk : Bool) (va n : Nat) : Option EngFail × List Byte × State :=
  let m := s.engMap e .read (pageFuel n) va n []
  match m.1 with
  | some f => (some f, [], m.2.2)
  | none => m.2.2.engReadPieces e bulk m.2.1 []

/-- Writes translated pieces in order: the permitted bytes are written, and the first failure is reported (R202). -/
def State.engWritePieces (s : State) (e : Eng) : List EngPiece → List Byte → Option EngFail → Option EngFail × State
  | [], _, f => (f, s)
  | p :: t, d, f =>
    let r := s.physWrite (s.engReq e) p.pa (d.take p.n)
    let g := match r.1 with
      | .ok _ => none
      | .denied a => some (⟨engDenied, p.vaOf a⟩ : EngFail)
      | .ue a => some ⟨engMemError, p.vaOf a⟩
    r.2.engWritePieces e t (d.drop p.n) (f.or g)

/-- An engine's write. -/
def State.engWrite (s : State) (e : Eng) (va : Nat) (d : List Byte) : Option EngFail × State :=
  let m := s.engMap e .write (pageFuel d.length) va d.length []
  match m.1 with
  | some f => (some f, m.2.2)
  | none => m.2.2.engWritePieces e m.2.1 d none

end Sys2Proof.Machine
end

