-- ==== Sys2Proof/Machine/Adit.lean ====
section
/-!
DEFINITION. Machine/Adit.lean: the Adit matrix-vector engines: queue, descriptors, streamed weights, exact block sums and completion
records (chapter 10).
-/
namespace Sys2Proof.Machine

/-- The Adit of partition `p`. -/
def State.aditOf (s : State) (p : Nat) : AditSt := Tbl.get (fun _ => (⟨[], none⟩ : AditSt)) s.adit p

/-- Replaces it. -/
def State.setAdit (s : State) (p : Nat) (a : AditSt) : State := { s with adit := Tbl.set (fun _ => (⟨[], none⟩ : AditSt)) s.adit p a }

/-- Replaces the running descriptor. -/
def State.setAditRun (s : State) (p : Nat) (r : AditRun) : State := s.setAdit p { s.aditOf p with run := some r }

/-- Adit as an engine (R190, R257). (DEDUCED: assumption 90.) -/
def State.aditEng (s : State) (p : Nat) : Eng := ⟨p, .adit, s.agentCid p (s.fld (ADIT_CTX_CTX p)), 1, false, false⟩

/-- Descriptors enqueued and not complete (R192). -/
def AditSt.held (a : AditSt) : Nat := a.queue.length + (if a.run.isSome then 1 else 0)

/-- Enqueues a descriptor, or drops it while 64 are held (R192). -/
def State.aditEnqueue (s : State) (p va : Nat) : State :=
  let a := s.aditOf p
  if 64 ≤ a.held then (s.setFlag (ADIT_STS_ENQ_DROP p) true).logD ev_ADIT_ENQ_DROP (blkPart p) va []
  else (s.setAdit p { a with queue := a.queue ++ [va] }).wakeEvent p

/-! ### Descriptor fields (Tables 10-2 and 7-5) -/

/-- The floating-point format of a code of Table 7-5 that Adit takes. -/
def aditFmt : Nat → Option Fmt
  | 1 => some fmtS
  | 3 => some fmtBf
  | 4 => some fmtE4
  | 5 => some fmtE5
  | 6 => some fmtD4
  | _ => none

/-- W_FMT. -/
def AditRun.wFmt (r : AditRun) : Nat := bitsOf r.ctrl 0 4
/-- IN_FMT. -/
def AditRun.inFmt (r : AditRun) : Nat := bitsOf r.ctrl 4 4
/-- OUT_FMT. -/
def AditRun.outFmt (r : AditRun) : Nat := bitsOf r.ctrl 8 4
/-- IN_KIND. -/
def AditRun.inKind (r : AditRun) : Nat := bitsOf r.ctrl 12 2
/-- OUT_KIND. -/
def AditRun.outKind (r : AditRun) : Nat := bitsOf r.ctrl 14 2
/-- ACC. -/
def AditRun.accOn (r : AditRun) : Bool := r.ctrl.testBit 16
/-- IRQ. -/
def AditRun.irq (r : AditRun) : Bool := r.ctrl.testBit 17
/-- Input vectors. -/
def AditRun.nvecs (r : AditRun) : Nat := bitsOf r.ctrl 18 5 + 1
/-- K, the elements of a row. -/
def AditRun.kElems (r : AditRun) : Nat := r.kblk * 64
/-- The format of the weights; a code that is none reads as binary32 and is a BAD_DESC before it matters. -/
def AditRun.wf (r : AditRun) : Fmt := (aditFmt r.wFmt).getD fmtS
/-- The format of the inputs. -/
def AditRun.xf (r : AditRun) : Fmt := (aditFmt r.inFmt).getD fmtS
/-- The format of the outputs. -/
def AditRun.yf (r : AditRun) : Fmt := (aditFmt r.outFmt).getD fmtS
/-- Whether the weights carry scales (R194). -/
def AditRun.scaled (r : AditRun) : Bool := decide (4 ≤ r.wFmt)
/-- RB (R194). -/
def AditRun.rowBytes (r : AditRun) : Nat := r.kElems * r.wf.w / 8 + (if r.scaled then r.kElems / 32 else 0)
/-- Bytes of one input vector. -/
def AditRun.inBytes (r : AditRun) : Nat := r.kElems * r.xf.w / 8
/-- The first byte past the weights. -/
def AditRun.wEnd (r : AditRun) : Nat := r.wBase + (r.rows - 1) * r.wStride + r.rowBytes
/-- RPV (R195). -/
def AditRun.regsPerVec (r : AditRun) (vlen : Nat) : Nat := (r.kElems * r.xf.w + vlen - 1) / vlen

/-- A started descriptor with the fields of its 64 bytes. -/
def AditRun.ofBytes (b : List Byte) (ftzIn ftzOut : Bool) : AditRun :=
  let w := fun (o n : Nat) => natLE ((b.drop o).take n)
  { ctrl := w 0 4, kblk := w 4 4, rows := w 8 4, wStride := w 12 4, wBase := w 16 8, inBase := w 24 8, inStride := w 32 4,
    outStride := w 36 4, outBase := w 40 8, doneAddr := w 48 8, tag := w 56 4, inputs := [], acc := [], ftzIn := ftzIn,
    ftzOut := ftzOut, buf := [], nextVa := w 16 8, rowsOut := 0, deniedRow := none, nanOut := false, infOut := false, code := 0,
    faultAddr := 0, finished := false }

/-- Whether a descriptor passes the checks of R193; `last` is its word at 0x3C. -/
def AditRun.ok (r : AditRun) (last vlen : Nat) : Bool :=
  let plat := 4096 * 1024
  (aditFmt r.wFmt).isSome && (r.inFmt == 1 || r.inFmt == 3) && (r.outFmt == 1 || r.outFmt == 3) &&
  decide (r.inKind ≤ 2) && decide (r.outKind ≤ 1) && r.ctrl / 2 ^ 23 == 0 &&
  decide (1 ≤ r.kblk) && decide (r.kblk < 1024) && decide (r.rows < 2 ^ 20) && last == 0 &&
  r.wStride % 16 == 0 && decide (r.rowBytes ≤ r.wStride) && r.wBase % 16 == 0 && r.outStride % 64 == 0 &&
  r.outBase % (r.yf.w / 8) == 0 && r.doneAddr % 32 == 0 && decide (r.nvecs * r.inBytes ≤ 2 * 2 ^ 20) &&
  (if r.inKind = 2 then
    r.inStride == 0 && bitsOf r.inBase 5 3 == 0 && r.inBase / 2 ^ 13 == 0 && decide (r.inBase % 32 ≤ 19) &&
      decide (bitsOf r.inBase 8 5 + r.nvecs * r.regsPerVec vlen ≤ 32)
  else r.inStride % 64 == 0 && r.inBase % 64 == 0) &&
  (r.inKind != 1 || decide (r.inBase + (r.nvecs - 1) * r.inStride + r.inBytes ≤ plat)) &&
  (r.outKind != 1 || r.rows == 0 || decide (r.outBase + (r.nvecs - 1) * r.outStride + r.rows * (r.yf.w / 8) ≤ plat))

/-- How a descriptor ends. One that has had an output write denied keeps that code, unless it is aborted; its address is the lowest of the
faulting ones (Table 10-5). (DEDUCED: assumption 90.) -/
def AditRun.stop (r : AditRun) (code va : Nat) : AditRun :=
  if r.code = 0 ∨ code = 5 then { r with code := code, faultAddr := va, finished := true, buf := [] }
  else { r with faultAddr := min r.faultAddr va, finished := true, buf := [] }

/-! ### Inputs and outputs (R195, R196) -/

/-- The bytes of input vector `j`. -/
def State.aditInput (s : State) (p : Nat) (r : AditRun) (j : Nat) : Option EngFail × List Byte × State :=
  match r.inKind with
  | 0 => s.engRead (s.aditEng p) false (r.inBase + j * r.inStride) r.inBytes
  | 1 => (none, Mem.read (s.plat p).sram (r.inBase + j * r.inStride) r.inBytes, s)
  | _ =>
    let c := Tbl.get (fun _ => Cluster.reset) s.clus (20 * p + r.inBase % 32)
    let rpv := r.regsPerVec s.vlen
    let regs := (List.range rpv).flatMap (fun i =>
      bytesLE (s.vlen / 8) (Tbl.get (fun _ => 0) c.v (bitsOf r.inBase 8 5 + j * rpv + i)).toNat)
    (none, regs.take r.inBytes, s)

/-- Loads input vectors from `j` on, `n` of them, into the input buffer. -/
def State.aditLoad (s : State) (p : Nat) (r : AditRun) : Nat → Nat → Option EngFail × AditRun × State
  | 0, _ => (none, r, s)
  | n + 1, j =>
    let x := s.aditInput p r j
    match x.1 with
    | some f => (some f, r, x.2.2)
    | none =>
      let es := unpackBits r.xf.w r.kElems (natLE x.2.1)
      x.2.2.aditLoad p { r with inputs := r.inputs ++ [es] } n (j + 1)

/-- The elements that ACC reads for vector `j` (R196). -/
def State.aditPrior (s : State) (p : Nat) (r : AditRun) (j : Nat) : Option EngFail × List Byte × State :=
  let n := r.rows * (r.yf.w / 8)
  let a := r.outBase + j * r.outStride
  if r.outKind = 0 then s.engRead (s.aditEng p) false a n else (none, Mem.read (s.plat p).sram a n, s)

/-- Reads the prior outputs of every vector, before any output write (R202).
(DEDUCED: assumption 90.) -/
def State.aditLoadAcc (s : State) (p : Nat) (r : AditRun) : Nat → Nat → Option EngFail × AditRun × State
  | 0, _ => (none, r, s)
  | n + 1, j =>
    let x := s.aditPrior p r j
    match x.1 with
    | some f => (some f, r, x.2.2)
    | none => x.2.2.aditLoadAcc p { r with acc := r.acc ++ [unpackBits r.yf.w r.rows (natLE x.2.1)] } n (j + 1)

/-- Loads everything a descriptor needs before its stream. -/
def State.aditPrepare (s : State) (p : Nat) (r : AditRun) : AditRun × State :=
  let x := s.aditLoad p r r.nvecs 0
  match x.1 with
  | some f => (x.2.1.stop f.code f.va, x.2.2)
  | none =>
    if x.2.1.accOn then
      let y := x.2.2.aditLoadAcc p x.2.1 r.nvecs 0
      match y.1 with
      | some f => (y.2.1.stop f.code f.va, y.2.2)
      | none => (y.2.1, y.2.2)
    else (x.2.1, x.2.2)

/-- A descriptor whose fetch faults: flagged, logged, counted, no record (R201). -/
def State.aditDescFault (s : State) (p va : Nat) : State :=
  ((s.setFlag (ADIT_STS_DESC_FAULT p) true).logD ev_ADIT_DESC_FAULT (blkPart p) va []).countUp (ADIT_DONE_CNT_COUNT p)

/-- Fetches the descriptor at `va`: none where the fetch faults. -/
def State.aditFetch (s : State) (p va : Nat) : Option (AditRun × Nat) × State :=
  let x := s.engRead (s.aditEng p).ordinary false va 64
  match x.1 with
  | some f => (none, x.2.2.aditDescFault p f.va)
  | none => (some (AditRun.ofBytes x.2.1 (s.act (PCTL_NUM_FTZ_IN p) == 1) (s.act (PCTL_NUM_FTZ_OUT p) == 1),
      natLE ((x.2.1.drop 60).take 4)), x.2.2)

/-- Starts the next descriptor (R192, R193, R195). A compute domain that has failed or is not in A0 starts none (Table 10-7, R350). -/
def State.aditStart (s : State) (p : Nat) : State :=
  let a := s.aditOf p
  match a.run, a.queue with
  | none, va :: rest =>
    if s.flag (PCTL_STS_FAILED p) || !s.awake p then s
    else
      let f := (s.setAdit p { a with queue := rest }).aditFetch p va
      match f.1 with
      | none => f.2
      | some (r, last) =>
        if !r.ok last s.vlen then f.2.setAditRun p (r.stop 4 0)
        else if r.rows = 0 then f.2.setAditRun p (r.stop 0 0)
        else
          let x := f.2.aditPrepare p r
          x.2.setAditRun p x.1
  | _, _ => s

/-- ADIT_DESCRIPTOR_START. -/
def execAditDescriptorStart (p : Part) (s : State) : Host.Outcome State Fault Refusal := .next (s.aditStart p)

/-! ### Arithmetic (R197, R198) -/

/-- Binary32 addition to nearest even with FTZ_OUT on the result. -/
def addS (ftz : Bool) (a b : Nat) : Nat := (fAdd ⟨.rne, false, ftz, false⟩ fmtS fmtS a b).bits

/-- The weights of a row with their scales as exact values. -/
def AditRun.rowVals (r : AditRun) (row : List Byte) : List FVal :=
  let n := r.kElems
  let wb := n * r.wf.w / 8
  let ws := unpackBits r.wf.w n (natLE (row.take wb))
  if r.scaled then (ws.zip (List.range n)).map (fun e => scaledVal r.wf (row.getD (wb + e.2 / 32) 0).toNat e.1)
  else ws.map r.wf.decode

/-- A block sum: the products of 32 weights and inputs summed exactly and rounded once. -/
def blockSum (ftz : Bool) (l : List (FVal × FVal)) : Nat := (l.foldl (fun s e => s.addProd e.1 e.2) ESum.zero).round fmtS ftz

/-- One output element: block sums, their tree, the prior element, and the conversion to OUT_FMT. -/
def AditRun.element (r : AditRun) (ws : List FVal) (xs : List Nat) (prior : Option Nat) : Nat :=
  let vs := xs.map (fun c => r.xf.decode (r.xf.ftz r.ftzIn c))
  let ps := (blocks32 (r.kElems / 32 + 1) (ws.zip vs)).map (blockSum r.ftzOut)
  let y := reduceTree (addS r.ftzOut) 0 ps
  let y2 := match prior with
    | some c => addS r.ftzOut (cvtFF envRne r.yf fmtS c).bits y
    | none => y
  (cvtFF envRne fmtS r.yf y2).bits

/-- Whether a code is a NaN. -/
def Fmt.isNan (t : Fmt) (c : Nat) : Bool := (t.decode c).isNan

/-- Whether a code is an infinity. -/
def Fmt.isInf (t : Fmt) (c : Nat) : Bool := match t.decode c with | .inf _ => true | _ => false

/-! ### The stream (R194, R202) -/

/-- Whether the outputs of a row can be written for the `n` vectors from `j` on: their pages are translated and permitted and lie in the
stack. The failure of the lowest address is answered, so that a row is not written in part (R206). (DEDUCED: assumption 90.) -/
def State.aditRowMap (s : State) (p : Nat) (r : AditRun) (row : Nat) : Nat → Nat → Option EngFail → Option EngFail × State
  | 0, _, f => (f, s)
  | n + 1, j, f =>
    let x := s.engMap (s.aditEng p) .write 2 (r.outBase + j * r.outStride + row * (r.yf.w / 8)) (r.yf.w / 8) []
    let g := match f, x.1 with
      | some a, some b => if b.va < a.va then some b else some a
      | none, b => b
      | a, none => a
    x.2.2.aditRowMap p r row n (j + 1) g

/-- Writes one output element: where a claim denies the write its bytes are dropped, and the lowest row and address are kept (R202). -/
def State.aditPut (s : State) (p : Nat) (r : AditRun) (row j v : Nat) : AditRun × State :=
  let w := r.yf.w / 8
  let a := r.outBase + j * r.outStride + row * w
  let r1 := { r with nanOut := r.nanOut || r.yf.isNan v, infOut := r.infOut || r.yf.isInf v }
  if r.outKind = 1 then
    (r1, s.setPlat p { s.plat p with sram := Mem.write (s.plat p).sram a (bytesLE w v) })
  else
    let x := s.engWrite (s.aditEng p) a (bytesLE w v)
    match x.1 with
    | some f =>
      if r1.deniedRow.isNone then ({ r1 with deniedRow := some row, code := f.code, faultAddr := f.va }, x.2)
      else ({ r1 with faultAddr := min r1.faultAddr f.va }, x.2)
    | none => (r1, x.2)

/-- Writes the outputs of a row for vectors from `j` on. -/
def State.aditRow (s : State) (p : Nat) (r : AditRun) (ws : List FVal) (row : Nat) : Nat → Nat → AditRun × State
  | 0, _ => (r, s)
  | n + 1, j =>
    let prior := if r.accOn then some ((r.acc.getD j []).getD row 0) else none
    let x := s.aditPut p r row j (r.element ws (r.inputs.getD j []) prior)
    x.2.aditRow p x.1 ws row n (j + 1)

/-- Writes the rows from `row` on whose weights end at or before `upto`; a row whose outputs cannot be written stops the descriptor. -/
def State.aditRows (s : State) (p : Nat) (r : AditRun) (upto : Nat) : Nat → Nat → AditRun × State
  | 0, _ => (r, s)
  | n + 1, row =>
    let a := r.wBase + row * r.wStride
    if upto < a + r.rowBytes then (r, s)
    else
      let ws := r.rowVals (Mem.read r.buf a r.rowBytes)
      let m := if r.outKind = 1 then (none, s) else s.aditRowMap p r row r.nvecs 0 none
      match m.1 with
      | some f => (r.stop f.code f.va, m.2)
      | none =>
        let x := m.2.aditRow p r ws row r.nvecs 0
        x.2.aditRows p { x.1 with rowsOut := row + 1 } upto n (row + 1)

/-- Whether a granule of the weight range holds weight bytes: those of the row it starts in, or of the next. -/
def AditRun.touches (r : AditRun) (g : Nat) : Bool :=
  let lo := g * 64
  let row := (lo - r.wBase) / r.wStride
  let a := r.wBase + row * r.wStride
  decide (lo < a + r.rowBytes) || decide (a + r.wStride < lo + 64)

/-- Reads the granules of the block's pieces that hold weights, each once. -/
def State.aditGranules (s : State) (p : Nat) (r : AditRun) : List EngPiece → Option EngFail × AditRun × State
  | [] => (none, r, s)
  | e :: t =>
    if !r.touches (e.va / 64) then s.aditGranules p r t
    else
      let x := s.localRead (s.engReq (s.aditEng p)) true (e.pa / 64 * 64) 64
      match x.1 with
      | .ok d =>
        (x.2.countBy (ADIT_WBYTES_COUNT p) 64).aditGranules p { r with buf := Mem.write r.buf (e.va / 64 * 64) d } t
      | .denied a => (some ⟨engDenied, e.va / 64 * 64 + a % 64⟩, r, x.2)
      | .ue a => (some ⟨engMemError, e.va / 64 * 64 + a % 64⟩, r, x.2)

/-- Cuts a translated piece into granules. -/
def EngPiece.granules (e : EngPiece) : List EngPiece :=
  (pieces (e.n / 64 + 2) e.va e.n).map (fun x => ⟨x.1, e.pa + (x.1 - e.va), x.2⟩)

/-- Streams the next block, or stops the descriptor at it (R202). (DEDUCED: assumption 90.) -/
def State.aditBlock (s : State) (p : Nat) (r : AditRun) : State :=
  let hi := min r.wEnd ((r.nextVa / 2 ^ 21 + 1) * 2 ^ 21)
  let m := s.engMap (s.aditEng p) .read (pageFuel (hi - r.nextVa)) r.nextVa (hi - r.nextVa) []
  match m.1 with
  | some f => m.2.2.setAditRun p (r.stop f.code f.va)
  | none =>
    let g := m.2.2.aditGranules p r (m.2.1.flatMap EngPiece.granules)
    match g.1 with
    | some f => g.2.2.setAditRun p (r.stop f.code f.va)
    | none =>
      let x := g.2.2.aditRows p { g.2.1 with nextVa := hi } hi (r.rows - r.rowsOut) r.rowsOut
      x.2.setAditRun p (if r.wEnd ≤ hi then { x.1 with finished := true, buf := [] } else x.1)

/-- ADIT_STREAM_BLOCK. -/
def execAditStreamBlock (p : Part) (s : State) : Host.Outcome State Fault Refusal :=
  match (s.aditOf p).run with
  | some r => if r.finished || s.flag (PCTL_STS_FAILED p) then .next s else .next (s.aditBlock p r)
  | none => .next s

/-! ### Completion and abort (R201, R204) -/

/-- The rows a descriptor reports: those below its lowest row with a denied byte. -/
def AditRun.rowsDone (r : AditRun) : Nat := r.deniedRow.getD r.rowsOut

/-- The completion record (Table 10-5). -/
def AditRun.record (r : AditRun) (ts : BitVec 64) : List Byte :=
  let st := r.code + (if r.nanOut then 16 else 0) + (if r.infOut then 32 else 0)
  let fa := if r.code = 0 ∨ r.code = 4 ∨ r.code = 5 then 0 else r.faultAddr
  bytesLE 4 r.tag ++ bytesLE 2 st ++ bytesLE 2 0 ++ bytesLE 4 r.rowsDone ++ bytesLE 4 0 ++ bytesLE 8 fa ++ bytesLE 8 ts.toNat

/-- Writes the record of the ended descriptor, counts it, and sends its message (R201). -/
def State.aditComplete (s : State) (p : Nat) (r : AditRun) : State :=
  let x := s.engWrite (s.aditEng p).ordinary r.doneAddr (r.record s.beat.ts)
  let s1 := match x.1 with
    | some f => (x.2.setFlag (ADIT_STS_DONE_LOST p) true).logD ev_ADIT_DONE_LOST (blkPart p) f.va []
    | none => x.2
  let b := s1.countUp (ADIT_DONE_CNT_COUNT p)
  let s2 := b.setAdit p { b.aditOf p with run := none }
  if r.irq && s2.flag (ADIT_CTL_IRQ_EN p) then s2.raisePart p (34 + p) 0 else s2

/-- ADIT_COMPLETION. -/
def execAditCompletion (p : Part) (s : State) : Host.Outcome State Fault Refusal :=
  match (s.aditOf p).run with
  | some r => if r.finished && !s.flag (PCTL_STS_FAILED p) then .next (s.aditComplete p r) else .next s
  | none => .next s

/-- Completes queued descriptors with ABORTED, in queue order. -/
def State.aditAbortQueue (s : State) (p : Nat) : List Nat → State
  | [] => s
  | va :: t =>
    let f := s.aditFetch p va
    match f.1 with
    | none => f.2.aditAbortQueue p t
    | some (r, _) => (f.2.aditComplete p (r.stop 5 0)).aditAbortQueue p t

/-- A write of 1 to ADIT_CTL.ABORT (R204). A descriptor whose end is already decided keeps its own code (Table 10-7).
(DEDUCED: assumption 90.) -/
def State.aditAbort (s : State) (p : Nat) : State :=
  if s.flag (PCTL_STS_FAILED p) then s
  else
    let a := s.aditOf p
    let s1 := match a.run with
      | some r => s.aditComplete p (if r.finished then r else r.stop 5 0)
      | none => s
    (s1.setAdit p ⟨[], none⟩).aditAbortQueue p a.queue

end Sys2Proof.Machine
end

