-- ==== Sys2Proof/Machine/Assay.lean ====
section
/-!
DEFINITION. Machine/Assay.lean: the Assay similarity engines: admission, index images, distances, scans, ranking and results
(chapter 17).
-/
namespace Sys2Proof.Machine

/-- The Assay of partition `p`. -/
def State.asyOf (s : State) (p : Nat) : AsySt := Tbl.get (fun _ => (⟨[], none⟩ : AsySt)) s.asy p

/-- Replaces it. -/
def State.setAsy (s : State) (p : Nat) (a : AsySt) : State := { s with asy := Tbl.set (fun _ => (⟨[], none⟩ : AsySt)) s.asy p a }

/-- Replaces the running query. -/
def State.setAsyRun (s : State) (p : Nat) (r : AsyRun) : State := s.setAsy p { s.asyOf p with run := some r }

/-- Assay as an engine (R257, R331). -/
def State.asyEng (s : State) (p : Nat) : Eng := ⟨p, .assay, s.agentCid p (s.fld (ASY_CTX_CTX p)), 2, true, false⟩

/-- Queries admitted and not complete (R340). -/
def AsySt.held (a : AsySt) : Nat := a.queue.length + (if a.run.isSome then 1 else 0)

/-- A read of Assay, counted in ASY_RBYTES: bulk reads of index data, which lies in the stack or the far tier, and ordinary reads of records
(R331). (DEDUCED: assumption 91.) -/
def State.asyRead (s : State) (p : Nat) (bulk : Bool) (va n : Nat) : Option EngFail × List Byte × State :=
  let x := s.engRead (if bulk then s.asyEng p else (s.asyEng p).ordinary) bulk va n
  match x.1 with
  | some _ => x
  | none => (none, x.2.1, x.2.2.countBy (ASY_RBYTES_COUNT p) n)

/-! ### Admission (R340) -/

/-- The READY QUERY frame that completed first. -/
def State.firstQuery (s : State) (p : Nat) : Option Nat :=
  ((sortBy (fun a b => decide (a.2.doneIdx < b.2.doneIdx) || (a.2.doneIdx == b.2.doneIdx && decide (a.2.doneOff ≤ b.2.doneOff)))
    ((s.plat p).frames.filter (fun e => decide (e.2.st = .ready) && decide (e.2.hdr.kind = 5)))).head?).map (fun e => e.1)

/-- Admits the first READY QUERY frame of an ASSAY partition while a place is free; the frame becomes TAKEN. -/
def State.asyAdmit (s : State) (p : Nat) : State :=
  let a := s.asyOf p
  match s.firstQuery p with
  | some f =>
    if s.role p = 4 ∧ a.held < 64 then
      (s.setFrame p f { s.frame p f with st := .taken }).setAsy p { a with queue := a.queue ++ [.frame f] }
    else s
  | none => s

/-- Admits READY QUERY frames in order, while there are frames and places. -/
def State.asyAdmitAll (s : State) (p : Nat) : Nat → State
  | 0 => s
  | n + 1 => (s.asyAdmit p).asyAdmitAll p n

/-- Admits a query by address, or drops it while 64 are held. QUERY frames that were READY before it go first. -/
def State.asyEnqueue (s0 : State) (p va : Nat) : State :=
  let s := s0.asyAdmitAll p 64
  let a := s.asyOf p
  if 64 ≤ a.held then (s.setFlag (ASY_STS_ENQ_DROP p) true).logD ev_ASY_ENQ_DROP (blkPart p) va []
  else (s.setAsy p { a with queue := a.queue ++ [.enq va] }).wakeEvent p

/-- QUERY_ADMISSION. -/
def execQueryAdmission (p : Part) (s : State) : Host.Outcome State Fault Refusal := .next (s.asyAdmit p)

/-! ### Query and index fields (Tables 17-2 and 17-4) -/

/-- DIST. -/
def AsyRun.dist (r : AsyRun) : Nat := r.ctrl % 4
/-- EXACT. -/
def AsyRun.exact (r : AsyRun) : Bool := r.ctrl.testBit 2
/-- ALL. -/
def AsyRun.all (r : AsyRun) : Bool := r.ctrl.testBit 3
/-- IRQ. -/
def AsyRun.irq (r : AsyRun) : Bool := r.ctrl.testBit 4
/-- RERANK_MUL. -/
def AsyRun.mul (r : AsyRun) : Nat := bitsOf r.ctrl 8 4
/-- PD_LEN. -/
def AsyRun.pdLen (r : AsyRun) : Nat := bitsOf r.ctrl 16 5
/-- FT_LEN. -/
def AsyRun.ftLen (r : AsyRun) : Nat := bitsOf r.ctrl 21 5
/-- KIND IVF. -/
def AsyRun.ivf (r : AsyRun) : Bool := r.kind.testBit 0
/-- KIND PQ. -/
def AsyRun.pq (r : AsyRun) : Bool := r.kind.testBit 1
/-- The stored format. -/
def AsyRun.fmt (r : AsyRun) : Fmt := if r.vfmt = 1 then fmtS else if r.vfmt = 2 then fmtH else fmtBf
/-- Bytes of a stored vector. -/
def AsyRun.vecBytes (r : AsyRun) : Nat := r.dim * r.fmt.w / 8
/-- Bytes of a payload (R333). -/
def AsyRun.payBytes (r : AsyRun) : Nat := if r.pq then (r.msub * r.pqb + 7) / 8 else r.vecBytes
/-- Bytes of an entry (R333). -/
def AsyRun.entBytes (r : AsyRun) : Nat := ((if r.ivf then 8 else 0) + r.payBytes + 7) / 8 * 8
/-- Dimensions of a sub-vector. -/
def AsyRun.subDim (r : AsyRun) : Nat := if r.msub = 0 then 0 else r.dim / r.msub
/-- Whether the flat range scanned is that of the raw vectors: an exact query of an index without IVF. -/
def AsyRun.flatRaw (r : AsyRun) : Bool := r.exact && !r.ivf

/-- A query that has read nothing yet. -/
def AsyRun.start (src : AsyFrom) : AsyRun :=
  { src := src, ctrl := 0, k := 0, nprobe := 0, out := 0, tag := 0, consts := [], prog := [], kind := 0, vfmt := 0, dim := 0,
    pqb := 0, msub := 0, nlist := 0, nvec := 0, data := 0, cent := 0, raw := 0, q := [], norm2 := 0, table := [], phase := .done,
    pos := 0, stop := 0, carry := [], item := 0, probe := [], fetch := [], cents := [], cands := [], final := [], scanned := 0,
    fetched := 0, nanSeen := false, isPart := false, code := 0, faultAddr := 0 }

/-- A little-endian field of bytes. -/
def leAt (b : List Byte) (o n : Nat) : Nat := natLE ((b.drop o).take n)

/-- The fields of the query header, and whether they are as Table 17-4 states. -/
def AsyRun.withQuery (r : AsyRun) (b : List Byte) : AsyRun × Nat × Bool :=
  let r1 := { r with ctrl := leAt b 0 4, k := leAt b 4 2, nprobe := leAt b 6 2, out := leAt b 16 8, tag := leAt b 24 4 }
  (r1, leAt b 8 8,
    bitsOf r1.ctrl 5 3 == 0 && decide (r1.mul ≤ 8) && bitsOf r1.ctrl 12 4 == 0 && bitsOf r1.ctrl 26 6 == 0 &&
    decide (r1.dist = 3 → r1.pdLen + r1.ftLen ≤ 32) && decide (1 ≤ r1.k) && decide (r1.k ≤ 1024) && decide (1 ≤ r1.nprobe) &&
    decide (r1.nprobe ≤ 1024) && leAt b 28 36 == 0 && leAt b 8 8 % 64 == 0 && !(decide (0 < r1.mul) && r1.exact))

/-- The constants and microcode of a PROG query, and whether the zero bits are zero. -/
def AsyRun.withProg (r : AsyRun) (b : List Byte) : AsyRun × Bool :=
  let ws := (List.range 32).map (fun i => leAt b (64 + 2 * i) 2)
  ({ r with consts := (List.range 16).map (fun i => leAt b (4 * i) 4), prog := ws }, ws.all (fun w => bitsOf w 4 2 == 0))

/-- The fields of the index header with the codebook address, and whether they are as Table 17-2 and R339 state. -/
def AsyRun.withIndex (r : AsyRun) (b : List Byte) : AsyRun × Nat × Bool :=
  let r1 := { r with
    kind := leAt b 4 1, vfmt := leAt b 5 1, dim := leAt b 6 2, pqb := leAt b 8 1, msub := leAt b 10 2, nlist := leAt b 12 4,
    nvec := leAt b 16 8, data := leAt b 24 8, cent := leAt b 32 8, raw := leAt b 48 8 }
  let book := leAt b 40 8
  (r1, book,
    leAt b 0 4 == 0x31595341 && decide (r1.kind < 8) && (r1.vfmt == 1 || r1.vfmt == 2 || r1.vfmt == 3) &&
    decide (1 ≤ r1.dim) && decide (r1.dim ≤ 4096) && leAt b 9 1 == 0 && leAt b 56 8 == 0 &&
    (if r1.pq then (r1.pqb == 4 || r1.pqb == 8) && decide (1 ≤ r1.msub) && decide (r1.msub ≤ 1024) && r1.dim % r1.msub == 0 &&
        decide (r1.dim / r1.msub ≤ 64)
      else r1.pqb == 0 && r1.msub == 0) &&
    (if r1.ivf then decide (1 ≤ r1.nlist) && decide (r1.nlist ≤ 2 ^ 20) else r1.nlist == 0) &&
    decide (r1.nvec < 2 ^ 48) && r1.data % 64 == 0 && r1.cent % 64 == 0 && book % 64 == 0 && r1.raw % 64 == 0 &&
    !(r1.dist == 1 && !r1.kind.testBit 2) && !((r1.exact || decide (0 < r1.mul)) && r1.raw == 0))

/-! ### Distances (R334 to R337) -/

/-- Binary32 addition to nearest even. -/
def addRne (a b : Nat) : Nat := (fAdd envRne fmtS fmtS a b).bits

/-- Sums exact terms: blocks of 32 dimensions rounded once, then the tree (R334). -/
def sumTerms (ts : List FVal) : Nat :=
  reduceTree addRne 0 ((blocks32 (ts.length / 32 + 1) ts).map (fun b => (b.foldl ESum.add ESum.zero).round fmtS false))

/-- The exact term of a dimension: the product, or the squared difference (R334). -/
def fixedTerm (l2 : Bool) (a b : Nat) : FVal :=
  let x := fmtS.decode a
  let y := fmtS.decode b
  if x.isNan || y.isNan then .nan false
  else if l2 then
    match addVal .rne x y.negate with
    | some d => (mulVal d d).getD (.nan false)
    | none => .nan false
  else (mulVal x y).getD (.nan false)

/-- Sign change of a key; a NaN stays the default NaN. -/
def negS (c : Nat) : Nat := if (fmtS.decode c).isNan then fmtS.nan else c ^^^ 0x80000000

/-- 1.0 in binary32. -/
def oneS : Nat := 0x3F800000

/-- Register `i` of the microprogram. -/
def mreg (r : List Nat) (i : Nat) : Nat := r.getD i 0

/-- One microcode word (Table 17-3). -/
def microOp (cs r : List Nat) (w : Nat) : List Nat :=
  let rd := bitsOf w 10 2
  let d := mreg r rd
  let a := mreg r (bitsOf w 8 2)
  let b := mreg r (bitsOf w 6 2)
  let clean := fun (c : Nat) => if (fmtS.decode c).isNan then fmtS.nan else c
  let res : Option Nat := match w / 2 ^ 12 with
    | 0 => some (addRne a b)
    | 1 => some (fSub envRne fmtS fmtS a b).bits
    | 2 => some (fMul envRne fmtS fmtS a b).bits
    | 3 => some (fDiv envRne fmtS a b).bits
    | 4 => some (fFma envRne fmtS fmtS false false a b d).bits
    | 5 => some (fMinMax envRne fmtS true false a b).bits
    | 6 => some (fMinMax envRne fmtS true true a b).bits
    | 7 => some (clean (a % 2 ^ 31))
    | 8 => some (negS a)
    | 9 => some (fSqrt envRne fmtS a).bits
    | 10 => some (clean a)
    | 11 => some (clean (cs.getD (w % 16) 0))
    | 12 => some (if ltVal (fmtS.decode a) (fmtS.decode b) then oneS else 0)
    | 13 => some (if eqVal (fmtS.decode a) (fmtS.decode b) then oneS else 0)
    | 14 => some (clean (if d % 2 ^ 31 ≠ 0 ∧ (fmtS.decode d).isNan = false then a else b))
    | _ => none
  match res with
  | some v => r.set rd v
  | none => r

/-- Runs microcode words in order. -/
def microRun (cs r : List Nat) (ws : List Nat) : List Nat := ws.foldl (microOp cs) r

/-- S over dimensions of a query and a vector, both binary32 (R334, R336). -/
def AsyRun.sumDims (r : AsyRun) (q x : List Nat) : Nat :=
  if r.dist = 3 then
    sumTerms ((q.zip x).map (fun e => fmtS.decode (mreg (microRun r.consts [e.1, e.2, 0, 0] (r.prog.take r.pdLen)) 0)))
  else sumTerms ((q.zip x).map (fun e => fixedTerm (r.dist == 2) e.1 e.2))

/-- The key from S (R334, R336). -/
def AsyRun.keyOf (r : AsyRun) (sum : Nat) : Nat :=
  if r.dist = 2 then sum
  else if r.dist = 3 then
    mreg (microRun r.consts [sum, r.norm2, (cvtIF envRne fmtS r.dim).bits, 0] ((r.prog.drop r.pdLen).take r.ftLen)) 0
  else negS sum

/-- Stored elements as binary32 codes, converted exactly. -/
def AsyRun.widen (r : AsyRun) (b : List Byte) : List Nat :=
  (unpackBits r.fmt.w r.dim (natLE b)).map (fun c => (cvtFF envRne r.fmt fmtS c).bits)

/-- The key of a full vector. -/
def AsyRun.vecKey (r : AsyRun) (b : List Byte) : Nat := r.keyOf (r.sumDims r.q (r.widen b))

/-- The key of a payload (R334, R337). -/
def AsyRun.payKey (r : AsyRun) (b : List Byte) : Nat :=
  if r.pq then
    let codes := unpackBits r.pqb r.msub (natLE b)
    r.keyOf (reduceTree addRne 0 ((r.table.zip codes).map (fun e => e.1.getD e.2 0)))
  else r.vecKey b

/-- The squared norm of the query in the L2SQ order (R335). -/
def norm2Of (q : List Nat) : Nat := sumTerms (q.map (fun a => fixedTerm true a 0))

/-- The query vector, normalised for COS (R335). -/
def AsyRun.withVector (r : AsyRun) (q : List Nat) : AsyRun :=
  let n := norm2Of q
  if r.dist = 1 then
    let inv := (fDiv envRne fmtS oneS (fSqrt envRne fmtS n).bits).bits
    { r with q := q.map (fun a => (fMul envRne fmtS fmtS a inv).bits), norm2 := n }
  else { r with q := q, norm2 := n }

/-- The lookup table from the codebooks' bytes (R337). -/
def AsyRun.withTable (r : AsyRun) (b : List Byte) : AsyRun :=
  let d := r.subDim
  let n := 2 ^ r.pqb
  { r with table := (List.range r.msub).map (fun m =>
      let q := (r.q.drop (m * d)).take d
      (List.range n).map (fun c => r.sumDims q (unpackBits 32 d (leAt b ((m * n + c) * d * 4) (d * 4))))) }

/-! ### Ranking (R342) -/

/-- Whether key `a` ranks before or with `b`. -/
def AsyKey.le (a b : AsyKey) : Bool :=
  let x := fmtS.decode a.key
  let y := fmtS.decode b.key
  ltVal x y || (!ltVal y x && decide (a.id ≤ b.id))

/-- The best `n`. -/
def bestKeys (n : Nat) (l : List AsyKey) : List AsyKey := (sortBy AsyKey.le l).take n

/-! ### The running query -/

/-- A query ends: with its selection, or with none (R342, R345). -/
def AsyRun.finish (r : AsyRun) (code va : Nat) (sel : List AsyKey) (part : Bool) : AsyRun :=
  { r with phase := .done, code := code, faultAddr := va, final := sel, isPart := part, carry := [], fetch := [], probe := [] }

/-- A query stops: in the scan it ranks the keys complete so far, elsewhere it returns nothing (R345, R347). -/
def AsyRun.halt (r : AsyRun) (code va : Nat) : AsyRun :=
  match r.phase with
  | .scan => r.finish code va (bestKeys r.k r.cands) true
  | _ => r.finish code va [] false

/-- The scan is over: re-rank begins, or the query is done (R342). -/
def AsyRun.scanDone (r : AsyRun) : AsyRun :=
  if 0 < r.mul then
    let ids := (bestKeys (r.mul * r.k) r.cands).map (fun c => c.id)
    match ids with
    | [] => r.finish 0 0 [] false
    | i :: t =>
      let a := r.raw + i * r.vecBytes
      { r with phase := .rerank, fetch := i :: t, cands := [], pos := a, stop := a + r.vecBytes, carry := [], item := 0 }
  else r.finish 0 0 (bestKeys r.k r.cands) false

/-- Begins the next probed list that is not empty (R333, R341). -/
def State.asyNextList (s : State) (p : Nat) (r : AsyRun) : List Nat → AsyRun × State
  | [] => (r.scanDone, s)
  | l :: t =>
    let x := s.asyRead p true (r.data + 16 * l) 16
    match x.1 with
    | some f => (({ r with phase := .coarse }).halt f.code f.va, x.2.2)
    | none =>
      let base := leAt x.2.1 0 8
      let n := leAt x.2.1 8 4
      if n = 0 then x.2.2.asyNextList p r t
      else ({ r with phase := .scan, probe := t, pos := base, stop := base + n * r.entBytes, carry := [], item := 0 }, x.2.2)

/-- Begins the scan of the lists probed, or of the flat range; in exact mode each raw vector is a range of its own (R345). -/
def State.asyScan (s : State) (p : Nat) (r : AsyRun) (lists : List Nat) : AsyRun × State :=
  if r.ivf then s.asyNextList p r lists
  else
    let base := if r.flatRaw then r.raw else r.data
    let n := if r.flatRaw then r.vecBytes else r.nvec * r.entBytes
    if r.nvec = 0 then (r.scanDone, s)
    else ({ r with phase := .scan, pos := base, stop := base + n, carry := [], item := 0 }, s)

/-- Begins coarse selection or the scan (R341). -/
def State.asyBegin (s : State) (p : Nat) (r : AsyRun) : AsyRun × State :=
  if r.ivf && !r.all then
    ({ r with phase := .coarse, pos := r.cent, stop := r.cent + r.nlist * r.vecBytes, carry := [], item := 0 }, s)
  else s.asyScan p r (List.range r.nlist)

/-- Bytes `o` to `o` + `n` of the query record; bytes past a frame's payload cannot be read.
(DEDUCED: assumption 91.) -/
def State.asyRecord (s : State) (p : Nat) (src : AsyFrom) (o n : Nat) : Option EngFail × List Byte × State :=
  match src with
  | .enq va => s.asyRead p false (va + o) n
  | .frame f =>
    if (s.frame p f).hdr.len.toNat < o + n then (some ⟨engPageFault, 0⟩, [], s)
    else
      let r := s.frameLoad p f (64 + o) n
      match r.1 with
      | some b => (none, b, r.2.countBy (ASY_RBYTES_COUNT p) n)
      | none => (some ⟨engMemError, 0⟩, [], r.2)

/-- A query whose record cannot be read: flagged and logged, with no result (R343).
(DEDUCED: assumption 91.) -/
def State.asyQFault (s : State) (p va : Nat) : State :=
  (s.setFlag (ASY_STS_Q_FAULT p) true).logD ev_ASY_Q_FAULT (blkPart p) va []

/-- Codebooks, table and the first range of a query with its vector. (DEDUCED: assumption 91.) -/
def State.asyTables (s : State) (p : Nat) (r : AsyRun) (book : Nat) : AsyRun × State :=
  if r.pq then
    let x := s.asyRead p true book (r.msub * 2 ^ r.pqb * r.subDim * 4)
    match x.1 with
    | some f => (r.halt f.code f.va, x.2.2)
    | none => x.2.2.asyBegin p (r.withTable x.2.1)
  else s.asyBegin p r

/-- The index header and the query vector of a query whose record header is good. -/
def State.asyIndex (s : State) (p : Nat) (r : AsyRun) (idx : Nat) : Option AsyRun × State :=
  let x := s.asyRead p true idx 64
  match x.1 with
  | some f => (some (r.halt f.code f.va), x.2.2)
  | none =>
    let i := r.withIndex x.2.1
    if !i.2.2 then (some (r.finish 4 0 [] false), x.2.2)
    else
      let v := x.2.2.asyRecord p r.src (if r.dist = 3 then 192 else 64) (4 * i.1.dim)
      match v.1 with
      | some f => (none, v.2.2.asyQFault p f.va)
      | none =>
        let t := v.2.2.asyTables p (i.1.withVector (unpackBits 32 i.1.dim (natLE v.2.1))) i.2.1
        (some t.1, t.2)

/-- Reads and checks a query record (R339): the running query, or none after a record fault. -/
def State.asyOpen (s : State) (p : Nat) (src : AsyFrom) : Option AsyRun × State :=
  let x := s.asyRecord p src 0 64
  match x.1 with
  | some f => (none, x.2.2.asyQFault p f.va)
  | none =>
    let h := (AsyRun.start src).withQuery x.2.1
    if !h.2.2 then (some (h.1.finish 4 0 [] false), x.2.2)
    else if h.1.dist = 3 then
      let y := x.2.2.asyRecord p src 64 128
      match y.1 with
      | some f => (none, y.2.2.asyQFault p f.va)
      | none =>
        let g := h.1.withProg y.2.1
        if !g.2 then (some (g.1.finish 4 0 [] false), y.2.2) else y.2.2.asyIndex p g.1 h.2.1
    else x.2.2.asyIndex p h.1 h.2.1

/-- Starts the next query; a compute domain that has failed or is not in A0 starts none. -/
def State.asyStart (s : State) (p : Nat) : State :=
  let a := s.asyOf p
  match a.run, a.queue with
  | none, src :: rest =>
    if s.flag (PCTL_STS_FAILED p) || !s.awake p then s
    else
      let x := (s.setAsy p { a with queue := rest }).asyOpen p src
      match x.1 with
      | some r => x.2.setAsyRun p r
      | none => x.2
  | _, _ => s

/-- ASSAY_QUERY_START. -/
def execAssayQueryStart (p : Part) (s : State) : Host.Outcome State Fault Refusal := .next (s.asyStart p)

/-! ### The stream (R345) -/

/-- Records a key of the scan; a NaN key is never returned (R342). -/
def AsyRun.addKey (r : AsyRun) (id key : Nat) : AsyRun :=
  let r1 := { r with scanned := r.scanned + 1 }
  if (fmtS.decode key).isNan then { r1 with nanSeen := true } else { r1 with cands := r1.cands ++ [⟨key, id⟩] }

/-- A centroid's key joins coarse selection. Where it is a NaN its place is open: a finite key that is a free function of the query and the
centroid stands for it, so that the result still depends on nothing else (R342). (DESIGN CHOICE: assumption 91.) -/
def State.asyCentroid (s : State) (p : Nat) (r : AsyRun) (b : List Byte) : AsyRun × State :=
  let k := r.vecKey b
  let s1 := s.countUp (ASY_KEYS_COUNT p)
  let x := if (fmtS.decode k).isNan then Config.nanCentroid r.q b r.item % 0x7F800000 else k
  ({ r with cents := r.cents ++ [⟨x, r.item⟩], item := r.item + 1 }, s1)

/-- An entry of the scan: its key from the entry, or in exact mode from its raw vector (R342). -/
def State.asyEntry (s : State) (p : Nat) (r : AsyRun) (b : List Byte) : AsyRun × State :=
  let id := if r.ivf then leAt b 0 8 % 2 ^ 48 else r.item
  let r1 := { r with item := r.item + 1 }
  if r.exact && r.ivf then
    let x := s.asyRead p true (r.raw + id * r.vecBytes) r.vecBytes
    match x.1 with
    | some f => (r1.halt f.code f.va, x.2.2)
    | none => (r1.addKey id (r.vecKey x.2.1), x.2.2.countUp (ASY_KEYS_COUNT p))
  else
    let key := if r.flatRaw then r.vecKey b else r.payKey ((b.drop (if r.ivf then 8 else 0)).take r.payBytes)
    (r1.addKey id key, s.countUp (ASY_KEYS_COUNT p))

/-- A raw vector of the re-rank. -/
def State.asyRaw (s : State) (p : Nat) (r : AsyRun) (b : List Byte) : AsyRun × State :=
  ({ r.addKey (r.fetch.headD 0) (r.vecKey b) with scanned := r.scanned, fetched := r.fetched + 1 }, s.countUp (ASY_KEYS_COUNT p))

/-- Bytes of one item of the range being streamed. -/
def AsyRun.itemBytes (r : AsyRun) : Nat :=
  match r.phase with
  | .coarse => r.vecBytes
  | .scan => if r.flatRaw then r.vecBytes else r.entBytes
  | .rerank => r.vecBytes
  | .done => 0

/-- Uses the complete items of the carried bytes. -/
def State.asyItems (s : State) (p : Nat) : Nat → AsyRun → AsyRun × State
  | 0, r => (r, s)
  | n + 1, r =>
    let w := r.itemBytes
    if w = 0 ∨ r.carry.length < w then (r, s)
    else
      let b := r.carry.take w
      let r1 := { r with carry := r.carry.drop w }
      let x := match r.phase with
        | .coarse => s.asyCentroid p r1 b
        | .scan => s.asyEntry p r1 b
        | .rerank => s.asyRaw p r1 b
        | .done => (r1, s)
      x.2.asyItems p n x.1

/-- What follows a range whose last byte has been used. -/
def State.asyRangeEnd (s : State) (p : Nat) (r : AsyRun) : AsyRun × State :=
  match r.phase with
  | .coarse =>
    let lists := (bestKeys (min r.nprobe r.nlist) r.cents).map (fun c => c.id)
    s.asyScan p { r with cents := [] } lists
  | .scan =>
    if r.ivf then s.asyNextList p r r.probe
    else if r.flatRaw && decide (r.item < r.nvec) then
      let a := r.raw + r.item * r.vecBytes
      ({ r with pos := a, stop := a + r.vecBytes, carry := [] }, s)
    else (r.scanDone, s)
  | .rerank =>
    match r.fetch.drop 1 with
    | [] => (r.finish 0 0 (bestKeys r.k r.cands) false, s)
    | i :: t =>
      let a := r.raw + i * r.vecBytes
      ({ r with fetch := i :: t, pos := a, stop := a + r.vecBytes, carry := [] }, s)
  | .done => (r, s)

/-- Translates and scans the next block of the range, or stops the query at it (R345). -/
def State.asyBlock (s : State) (p : Nat) (r : AsyRun) : State :=
  let hi := min r.stop ((r.pos / 2 ^ 21 + 1) * 2 ^ 21)
  let x := s.asyRead p true r.pos (hi - r.pos)
  match x.1 with
  | some f => x.2.2.setAsyRun p (r.halt f.code f.va)
  | none =>
    let y := x.2.2.asyItems p (r.carry.length + x.2.1.length) { r with carry := r.carry ++ x.2.1, pos := hi }
    if y.1.phase = AsyPhase.done ∨ hi < r.stop then y.2.setAsyRun p y.1
    else
      let z := y.2.asyRangeEnd p y.1
      z.2.setAsyRun p z.1

/-- ASSAY_STREAM_BLOCK. -/
def execAssayStreamBlock (p : Part) (s : State) : Host.Outcome State Fault Refusal :=
  match (s.asyOf p).run with
  | some r => if r.phase = AsyPhase.done ∨ s.flag (PCTL_STS_FAILED p) = true then .next s else .next (s.asyBlock p r)
  | none => .next s

/-! ### Results (R343, R347) -/

/-- Whether PQ entry keys took part in selection. -/
def AsyRun.approx (r : AsyRun) : Bool := r.pq && !r.exact && decide (0 < r.scanned)

/-- The result record (Table 17-5). -/
def AsyRun.record (r : AsyRun) (ts : BitVec 64) : List Byte :=
  let st := r.code + (if r.approx then 16 else 0) + (if r.nanSeen then 32 else 0) + (if r.isPart then 64 else 0)
  bytesLE 4 r.tag ++ bytesLE 2 st ++ bytesLE 2 r.final.length ++ bytesLE 8 r.scanned ++ bytesLE 8 r.fetched ++
    bytesLE 8 r.faultAddr ++ bytesLE 8 ts.toNat ++ bytesLE 24 0 ++
    r.final.flatMap (fun e => bytesLE 8 e.id ++ bytesLE 4 e.key ++ bytesLE 4 0)

/-- Writes the result of an enqueued query, counts it and sends its message. -/
def State.asyWrite (s : State) (p : Nat) (r : AsyRun) : State :=
  let x := s.engWrite (s.asyEng p).ordinary r.out (r.record s.beat.ts)
  let s1 := match x.1 with
    | some f => (x.2.setFlag (ASY_STS_DONE_LOST p) true).logD ev_ASY_DONE_LOST (blkPart p) f.va []
    | none => x.2
  let s2 := s1.countUp (ASY_DONE_CNT_COUNT p)
  if r.irq && s2.flag (ASY_CTL_IRQ_EN p) then s2.raisePart p (42 + p) 1 else s2

/-- Marks a QUERY frame as answered, after those that were before it: acknowledgements of replies come in their order. -/
def State.markReplied (s : State) (p f : Nat) : State :=
  let n := (s.plat p).frames.foldl (fun m e =>
    if e.2.st = .taken ∧ e.2.hdr.kind = 5 then max m ((e.2.out.taken.map (· + 1)).getD 0) else m) 0
  let x := s.frame p f
  s.setFrame p f { x with out := { x.out with taken := some n } }

/-- Puts the REPLY of a query frame to its SRC partition. -/
def State.asyReply (s0 : State) (p f : Nat) (r : AsyRun) : State :=
  let s := s0.markReplied p f
  let h := (s.frame p f).hdr
  let rec_ := r.record s.beat.ts
  (s.sendPut p h.srcChip.toNat h.srcPart.toNat
    { FrameHdr.zero with
      slot := h.slot, tc := h.tc, kind := 6, srcChip := BitVec.ofNat 6 s.chip, srcPart := BitVec.ofNat 3 p, reqSeq := h.reqSeq,
      beatTag := BitVec.ofNat 32 (s.fld BEAT_COUNT_COUNT), pos := h.pos, ntok := h.ntok, len := BitVec.ofNat 32 rec_.length,
      stageData := h.stageData } rec_).countUp (ASY_DONE_CNT_COUNT p)

/-- Completes a query. -/
def State.asyComplete (s : State) (p : Nat) (r : AsyRun) : State :=
  let s1 := match r.src with
    | .enq _ => s.asyWrite p r
    | .frame f => s.asyReply p f r
  s1.setAsy p { s1.asyOf p with run := none }

/-- ASSAY_QUERY_COMPLETE. -/
def execAssayQueryComplete (p : Part) (s : State) : Host.Outcome State Fault Refusal :=
  match (s.asyOf p).run with
  | some r => if r.phase = AsyPhase.done ∧ s.flag (PCTL_STS_FAILED p) = false then .next (s.asyComplete p r) else .next s
  | none => .next s

/-- Completes held queries with ABORTED, in admission order. -/
def State.asyAbortQueue (s : State) (p : Nat) : List AsyFrom → State
  | [] => s
  | src :: t =>
    let x := s.asyRecord p src 0 64
    match x.1 with
    | some f => (x.2.2.asyQFault p f.va).asyAbortQueue p t
    | none => (x.2.2.asyComplete p (((AsyRun.start src).withQuery x.2.1).1.finish 5 0 [] false)).asyAbortQueue p t

/-- A write of 1 to ASY_CTL.ABORT (R347). -/
def State.asyAbort (s : State) (p : Nat) : State :=
  if s.flag (PCTL_STS_FAILED p) then s
  else
    let a := s.asyOf p
    let s1 := match a.run with
      | some r => s.asyComplete p (if r.phase = AsyPhase.done then r else r.halt 5 0)
      | none => s
    (s1.setAsy p ⟨[], none⟩).asyAbortQueue p a.queue

end Sys2Proof.Machine
end

