-- ==== Sys2Proof/Machine/Package.lean ====
section
/-!
DEFINITION. Machine/Package.lean: what each ball of the package and each bump site of the assembly carries (R411 to R413, R428, R429).
-/
namespace Sys2Proof.Machine

/-! ### Balls (R411, R412) -/

/-- The bands of the ball array. -/
inductive Band where
  | north
  | south
  | west
  | east
deriving DecidableEq, Repr

/-- What a ball or a bump site is, but for the signal that a slot carries: ground, a rail, a partition's rail, or a slot of a band. -/
inductive Site where
  | vss
  | rail (name : String)
  | vddP (n : Nat)
  | slot (b : Band)
deriving DecidableEq, Repr

/-- Whether a value lies from `a` to `b`. -/
def within (x a b : Nat) : Bool := decide (a ≤ x) && decide (x ≤ b)

/-- The band of ball (i, j), if it lies in one. -/
def bandOf (i j : Nat) : Option Band :=
  if i ≤ 6 then some .north
  else if 87 ≤ i then some .south
  else if j ≤ 6 then some .west
  else if 87 ≤ j then some .east
  else none

/-- The rail of a ball of rows 71 to 86, by its column. -/
def socRail (j : Nat) : String :=
  if j ≤ 36 then "VDD_SOC" else if j ≤ 44 then "VPP_STK" else if j ≤ 64 then "VDD_TS" else if j ≤ 76 then "AVDD_SD"
  else if j ≤ 82 then "AVDD_SDH" else if j ≤ 83 then "VDD_AON" else "VDD_IO"

/-- What ball (i, j) of the 92 by 92 is (R412). -/
def ballSite (i j : Nat) : Site :=
  if (i + j) % 2 = 0 then .vss
  else match bandOf i j with
  | some b => .slot b
  | none =>
    if 71 ≤ i then .rail (socRail j)
    else if (i - 7) % 16 < 2 then .rail "VDD_STK"
    else .vddP (2 * ((i - 7) / 16) + (if j < 47 then 0 else 1))

/-! ### Signals (R413) -/

/-- A numbered name. -/
def sig (a : String) (n : Nat) : String := a ++ toString n

/-- The two signals of a differential pair. -/
def pairPn (a : String) : List String := [a ++ "_P", a ++ "_N"]

/-- The numbered signals of a bus. -/
def bus (a : String) (n : Nat) : List String := (List.range n).map (fun k => a ++ "[" ++ toString k ++ "]")

/-- The sense list. -/
def senseSignals : List String :=
  (List.range 8).flatMap (fun n => pairPn (sig "VSENSE_P" n)) ++ pairPn "VSENSE_SOC" ++ pairPn "VSENSE_STK"

/-- The low-speed list. -/
def lowSpeedSignals : List String :=
  pairPn "REFCLK" ++ ["PERST_N", "XSPI_CLK", "XSPI_CS_N"] ++ bus "XSPI_DQ" 8 ++
    ["XSPI_DQS", "XSPI_RESET_N", "I3C_SCL", "I3C_SDA", "AVS_CLK", "AVS_MDATA", "AVS_SDATA", "ALERT_N", "THERMTRIP_N", "BEAT_SYNC_IN",
      "BEAT_SYNC_OUT"] ++ bus "GPIO" 16 ++ ["TCK", "TMS", "TDI", "TDO", "TRST_N"]

/-- The signals of a PCI Express or CXL port. -/
def serialSignals (a : String) : List String :=
  pairPn (a ++ "_REFCLK") ++ (List.range 16).flatMap (fun l => pairPn (sig (a ++ "_TX") l)) ++
    (List.range 16).flatMap (fun l => pairPn (sig (a ++ "_RX") l))

/-- The signals of one DDR5 subchannel. -/
def subchannel (a : String) : List String :=
  bus (a ++ "_DQ") 32 ++ bus (a ++ "_CB") 8 ++ (List.range 10).flatMap (fun k => [sig (a ++ "_DQS") k ++ "_t", sig (a ++ "_DQS") k ++ "_c"]) ++
    bus (a ++ "_CA") 14 ++ bus (a ++ "_CS_N") 2 ++ [a ++ "_CK_t", a ++ "_CK_c"]

/-- The signals of DDR5 channel `c`. -/
def ddrSignals (c : Nat) : List String :=
  let a := sig "DDR" c
  subchannel (a ++ "_A") ++ subchannel (a ++ "_B") ++ [a ++ "_RESET_N", a ++ "_ALERT_N", a ++ "_SB_SCL", a ++ "_SB_SDA"]

/-- The signals of a band in the order in which they take its slots. -/
def bandSignals : Band → List String
  | .north =>
    (List.range 8).flatMap (fun p => (List.range 8).flatMap (fun l => pairPn (sig (sig "LNK" p ++ "_TX") l)) ++
      (List.range 8).flatMap (fun l => pairPn (sig (sig "LNK" p ++ "_RX") l))) ++ senseSignals
  | .south =>
    serialSignals "PCIE" ++ serialSignals "CXL" ++ ["QCLK", "QV", "QDP"] ++ bus "QD" 32 ++ ["QAV", "QAP"] ++ bus "QA" 16 ++ lowSpeedSignals
  | .west => ddrSignals 0
  | .east => ddrSignals 1

/-- The place of a ball's slot in its band: three slots to each column or row of the band, innermost first. -/
def slotIndex (b : Band) (i j : Nat) : Nat :=
  match b with
  | .north => 3 * (j - 1) + (6 - i) / 2
  | .south => 3 * (j - 1) + (i - 87) / 2
  | .west => 3 * (i - 7) + (6 - j) / 2
  | .east => 3 * (i - 7) + (j - 87) / 2

/-- What ball (i, j) carries, by name; a slot that no signal takes is RSVD and left unconnected. -/
def ballSignal (i j : Nat) : String :=
  match ballSite i j with
  | .vss => "VSS"
  | .rail r => r
  | .vddP n => sig "VDD_P" n
  | .slot b => (bandSignals b).getD (slotIndex b i j) "RSVD"

/-! ### Bumps of the assembly (R428, R429) -/

/-- Whether coarse-bump site (a, b) lies in the rectangle of UCIe module `k`. -/
def inModule (a b k : Nat) : Bool := within a (20 + 80 * k) (27 + 80 * k) && within b 1 8

/-- Whether a site is populated. -/
def bumpAt (a b : Nat) : Bool := decide (a < 346) && decide (b < 320) && !(List.range 4).any (inModule a b)

/-- The order of a low-speed site: ascending b, then ascending a, among the sites with a + b odd of columns 0 to 12. -/
def lowSite (a b : Nat) : Nat := (b - 10) / 2 * 13 + (if b % 2 = 0 then a / 2 else 6 + a / 2)

/-- What bump site (a, b) of the assembly carries (Table 21-10); none where the site is not populated. -/
def bumpSignal (a b : Nat) : Option String :=
  if !bumpAt a b then none
  else if (a + b) % 2 = 0 then some "VSS"
  else if b ≤ 9 then some "VDD_SOC"
  else if b ≤ 19 then
    some (if a ≤ 12 then (lowSpeedSignals ++ senseSignals).getD (lowSite a b) "RSVD"
      else if a ≤ 16 then "VDD_IO" else if a ≤ 22 then "VDD_AON" else if a ≤ 82 then "VPP_STK" else "VDD_SOC")
  else
    some (if (b - 20) % 75 < 10 then "VDD_STK" else sig "VDD_P" (2 * ((b - 20) / 75) + a / 173))

/-- The place of a coarse-bump site in micrometres from the south-west corner. -/
def bumpPlace (a b : Nat) : Nat × Nat := (75 + 150 * a, 75 + 150 * b)

/-- What the UCIe modules carry (Table 21-11). -/
inductive ModuleUse where
  | registers
  | pcie
  | classTable
  | records
  | capability
  | colLink (p : Nat)
  | cxl
  | ddr (ch : Nat)
deriving DecidableEq, Repr

/-- The uses of module `k`. -/
def moduleUses (k : Nat) : List ModuleUse :=
  match k with
  | 0 => [.registers, .pcie, .classTable, .records, .capability, .colLink 0, .colLink 1]
  | 1 => [.colLink 2, .colLink 3, .cxl]
  | 2 => [.colLink 4, .colLink 5, .ddr 0]
  | _ => [.colLink 6, .colLink 7, .ddr 1]

end Sys2Proof.Machine
end

