-- ==== Sys2Proof/Machine/Cache.lean ====
section
/-!
DEFINITION. Machine/Cache.lean: the L1D, L1I and L2 caches: coherence, replacement, maintenance, disabling and way power-down
(chapter 11).
-/
namespace Sys2Proof.Machine

/-- Key of cluster `c` of partition `p`. -/
def cluKey (p c : Nat) : Nat := 20 * p + c

/-- Cluster `c` of partition `p`. -/
def State.clu (s : State) (p c : Nat) : Cluster := Tbl.get (fun _ => Cluster.reset) s.clus (cluKey p c)

/-- Replaces it. -/
def State.setClu (s : State) (p c : Nat) (x : Cluster) : State := { s with clus := Tbl.set (fun _ => Cluster.reset) s.clus (cluKey p c) x }

/-- An L2 that holds nothing (R220). -/
def l2Reset : L2St := ⟨[], [], [], [], none, false, true, false⟩

/-- The L2 of partition `p`. -/
def State.l2Of (s : State) (p : Nat) : L2St := Tbl.get (fun _ => l2Reset) s.l2 p

/-- Replaces it. -/
def State.setL2 (s : State) (p : Nat) (x : L2St) : State := { s with l2 := Tbl.set (fun _ => l2Reset) s.l2 p x }

/-! ### Replacement (R214 to R216) -/

/-- The way and age of a valid line of a set. -/
structure WayAge where
  way : Nat
  age : Nat
deriving DecidableEq, Repr

/-- The lowest way below `n` that satisfies `f`. -/
def lowestWay (n : Nat) (f : Nat → Bool) : Option Nat := (List.range n).find? f

/-- The victim way of a set of `n` ways with ways `off` excluded, and by how much every line of the set ages (R214). -/
def victimWay (n : Nat) (off : Nat → Bool) (l : List WayAge) : Nat × Nat :=
  let live := l.filter (fun x => !off x.way)
  match lowestWay n (fun w => !off w && !live.any (fun x => x.way == w)) with
  | some w => (w, 0)
  | none =>
    let inc := 3 - live.foldl (fun m x => max m x.age) 0
    match lowestWay n (fun w => live.any (fun x => x.way == w && decide (3 ≤ x.age + inc))) with
    | some w => (w, inc)
    | none => (0, inc)

/-- Whether detector `d` tracks a miss on `line` (R216). -/
def Detector.tracks (d : Detector) (line : Nat) : Bool :=
  (line == d.last + 1 && (!d.dirKnown || d.up)) || (line + 1 == d.last && (!d.dirKnown || !d.up))

/-- A demand miss on `line` at the detectors, most recently advanced first: whether its stream is marked, and the detectors after. -/
def detMiss (ds : List Detector) (line : Nat) : Bool × List Detector :=
  match ds.find? (fun d => d.tracks line) with
  | some d =>
    (decide (8 ≤ d.run), ⟨line, line == d.last + 1, true, d.run + 1⟩ :: ds.filter (fun x => decide (x ≠ d)))
  | none => (false, (⟨line, true, false, 1⟩ :: ds).take 4)

/-! ### Lines -/

/-- The bytes of a line. -/
def lineBytes (m : Mem) : List Byte := Mem.read m 0 128

/-- A line's bytes from a list. -/
def lineMem (b : List Byte) : Mem := Mem.write [] 0 b

/-- The line of an L1 list. -/
def l1Find (l : List L1Line) (line : Nat) : Option L1Line := l.find? (fun x => x.line == line)

/-- Removes a line from an L1 list. -/
def l1Drop (l : List L1Line) (line : Nat) : List L1Line := l.filter (fun x => !(x.line == line))

/-- Replaces a line of an L1 list. -/
def l1Put (l : List L1Line) (x : L1Line) : List L1Line := l.map (fun y => if y.line = x.line then x else y)

/-- The line of an L2. -/
def L2St.find (u : L2St) (line : Nat) : Option L2Line := u.lines.find? (fun x => x.line == line)

/-- Replaces a line of an L2. -/
def L2St.put (u : L2St) (x : L2Line) : L2St := { u with lines := u.lines.map (fun y => if y.line = x.line then x else y) }

/-- Holds a store's abort until the cluster reports it; an earlier one stands (R128).
(DEDUCED: assumption 57.) (DESIGN CHOICE: assumption 61.) -/
def State.pendAbort (s : State) (p c : Nat) (addr detail : Nat) : State :=
  let k := s.clu p c
  if k.abort.isSome then s
  else s.setClu p c { k with abort := some ⟨BitVec.ofNat 64 addr, BitVec.ofNat 64 detail⟩ }

/-- Notes that the controller of `pa` accepted a store of cluster `c` (R244). -/
def State.noteStore (s : State) (p c pa : Nat) : State :=
  match s.loc pa with
  | .stack k =>
    let g := wcbKey k (groupOf pa)
    let x := s.clu p c
    if x.stores.contains g then s else s.setClu p c { x with stores := x.stores ++ [g] }
  | _ => s

/-- The controllers that accepted stores of cluster `c` drain them, as FENCE.DRAIN waits for (R244). -/
def State.drainClu (s : State) (p c : Nat) : State :=
  let s1 := s.drainWait (.fence p c) .fence (s.clu p c).stores
  s1.setClu p c { s1.clu p c with stores := [] }

/-- The bank of a line (R207). -/
def bankOf (line : Nat) : Nat := line % 16

/-- The stop of the bank of a line (Table 14-2). -/
def bankStop (p line : Nat) : Nat := stopOf p (20 + bankOf line)

/-- The stop of a cluster. -/
def cluStop (p c : Nat) : Nat := stopOf p c

/-- Writes a line back to memory for its last writer with CID `cid`; a denial returns to that writer as an abort (R128, R268).
(DEDUCED: assumption 85.) -/
def State.lineBack (s : State) (p cid : Nat) (x : L2Line) : State :=
  let r := s.localWrite ⟨cid, 0, p, s.chip, bankStop p x.line⟩ true (x.line * 128) (lineBytes x.data)
  match r.1 with
  | .denied a => r.2.pendAbort p x.wr.clu (x.wr.va + (a - x.line * 128)) x.wr.detail
  | _ => r.2.noteStore p x.wr.clu (x.line * 128)

/-! ### Coherence (R209, R210) -/

/-- Merges cluster `c`'s copy, if it is M, into the L2 line. (DEDUCED: assumption 85.) -/
def State.mergeL1 (s : State) (p c line : Nat) : State :=
  match l1Find (s.clu p c).l1d line with
  | some x =>
    if x.st = .m then
      match (s.l2Of p).find line with
      | some y => s.setL2 p ((s.l2Of p).put { y with dirty := true, data := x.data, wr := x.wr })
      | none => s.lineBack p x.wr.cid ⟨line, 0, 0, true, [], [], none, x.data, x.wr⟩
    else s
  | none => s

/-- Removes cluster `c` from the directory entry of a line's data copies. -/
def State.dirDrop (s : State) (p c line : Nat) : State :=
  match (s.l2Of p).find line with
  | some y => s.setL2 p ((s.l2Of p).put { y with
      dpres := y.dpres.filter (fun k => !(k == c)), owner := if y.owner = some c then none else y.owner })
  | none => s

/-- A copy of a line leaves an L1D, or stays in S: its M data joins the L2 line (R209). -/
def State.giveUp (s : State) (p c line : Nat) (inv : Bool) : State :=
  let s1 := s.mergeL1 p c line
  let k := s1.clu p c
  if inv then (s1.setClu p c { k with l1d := l1Drop k.l1d line }).dirDrop p c line
  else
    let s2 := match l1Find k.l1d line with
      | some x => s1.setClu p c { k with l1d := l1Put k.l1d { x with st := .s } }
      | none => s1
    match (s2.l2Of p).find line with
    | some y => s2.setL2 p ((s2.l2Of p).put { y with owner := if y.owner = some c then none else y.owner })
    | none => s2

/-- How many flits an L1D's answer about a line takes: its M data, or a word that it has none. -/
def State.lineFlits (s : State) (p c line : Nat) : Nat :=
  match l1Find (s.clu p c).l1d line with
  | some x => if x.st = .m then 2 else 1
  | none => 1

/-- A recall or invalidation of a line reaches an L1D as a snoop, and is answered (R209, R287). -/
def State.recall (s : State) (p c line : Nat) (inv : Bool) : State :=
  ((s.trvUse (bankStop p line) (cluStop p c) 2 1).trvUse (cluStop p c) (bankStop p line) 1 (s.lineFlits p c line)).giveUp p c line inv

/-- An L1D evicts a line; M data goes to the bank as a writeback (R209, R287). -/
def State.evictL1 (s : State) (p c line : Nat) : State :=
  (if s.lineFlits p c line = 2 then s.trvUse (cluStop p c) (bankStop p line) 3 2 else s).giveUp p c line true

/-- A fill, or ownership without data, that a cluster asks of a bank (R284, R287). -/
def State.trvFill (s : State) (p c line flits : Nat) : State :=
  (s.trvUse (cluStop p c) (bankStop p line) 0 1).trvUse (bankStop p line) (cluStop p c) 1 flits

/-- An invalidation of a line reaches an L1I. (DEDUCED: assumption 41.) -/
def State.recallI (s0 : State) (p c line : Nat) : State :=
  let s := (s0.trvUse (bankStop p line) (cluStop p c) 2 1).trvUse (cluStop p c) (bankStop p line) 1 1
  let k := s.clu p c
  let s1 := s.setClu p c { k with l1i := l1Drop k.l1i line }
  match (s1.l2Of p).find line with
  | some y => s1.setL2 p ((s1.l2Of p).put { y with ipres := y.ipres.filter (fun j => !(j == c)) })
  | none => s1

/-- Recalls every L1 copy that the directory shows, but cluster `keep`'s. -/
def State.recallAll (s : State) (p line : Nat) (keep : Option Nat) : State :=
  match (s.l2Of p).find line with
  | some y =>
    let s1 := (y.dpres.filter (fun c => decide (some c ≠ keep))).foldl (fun t c => t.recall p c line true) s
    (y.ipres.filter (fun c => decide (some c ≠ keep))).foldl (fun t c => t.recallI p c line) s1
  | none => s

/-- Removes a line from the L2 after its L1 copies; dirty data is written back with CID `cid` or its writer's (R210). -/
def State.l2Evict (s : State) (p line : Nat) (back : Bool) : State :=
  let s1 := s.recallAll p line none
  match (s1.l2Of p).find line with
  | some y =>
    let u := s1.l2Of p
    let s2 := s1.setL2 p { u with lines := u.lines.filter (fun x => !(x.line == line)) }
    if back && y.dirty then s2.lineBack p y.wr.cid y else s2
  | none => s1

/-- Ways that take no fills: off, or going off (R214, R225). -/
def State.wayOff (s : State) (p w : Nat) : Bool := s.fbit (L2_WAYOFF_MASK p) w || s.fbit (L2_WAYOFF_DONE_OFF p) w

/-- How a cacheable access fails: it waits for a full invalidate, its claim is denied at an address, or its data cannot be read. -/
inductive CacheErr where
  | stall
  | denied (pa : Nat)
  | ue
deriving DecidableEq, Repr

/-- Brings a line into the L2 for a request, aged 3 when streaming (R214, R215).
(DEDUCED: assumption 85.) -/
def State.l2Get (s : State) (p : Nat) (q : Req) (line : Nat) (strm : Bool) : Option CacheErr × State :=
  let u := s.l2Of p
  match u.find line with
  | some y => (none, s.setL2 p (u.put { y with age := 0 }))
  | none =>
    let r := s.localRead { q with stop := bankStop p line } false (line * 128) 128
    match r.1 with
    | .denied a => (some (.denied a), r.2)
    | .ue _ => (some .ue, r.2)
    | .ok d =>
      let set := fun (x : L2Line) => x.line % 2 ^ 14 == line % 2 ^ 14
      let here := (r.2.l2Of p).lines.filter set
      let v := victimWay 16 (r.2.wayOff p) (here.map (fun x => ⟨x.way, x.age⟩))
      let u1 := r.2.l2Of p
      let s1 := r.2.setL2 p { u1 with lines := u1.lines.map (fun x => if set x then { x with age := min 3 (x.age + v.2) } else x) }
      let s2 := match here.find? (fun x => x.way == v.1) with
        | some x => s1.l2Evict p x.line true
        | none => s1
      let u2 := s2.l2Of p
      (none, s2.setL2 p { u2 with lines :=
        u2.lines ++ [⟨line, v.1, if strm then 3 else 0, false, [], [], none, lineMem d, ⟨0, 0, 0, 0⟩⟩] })

/-- Makes room in an L1D for a line: the way, with the victim written back or dropped. -/
def State.l1dRoom (s : State) (p c line : Nat) : Nat × State :=
  let k := s.clu p c
  let set := fun (x : L1Line) => x.line % 128 == line % 128
  let here := k.l1d.filter set
  let v := victimWay 8 (fun _ => false) (here.map (fun x => ⟨x.way, x.age⟩))
  let s1 := s.setClu p c { k with l1d := k.l1d.map (fun x => if set x then { x with age := min 3 (x.age + v.2) } else x) }
  match here.find? (fun x => x.way == v.1) with
  | some x => (v.1, s1.evictL1 p c x.line)
  | none => (v.1, s1)

/-- Puts an L2 line into an L1D in a state, and records it in the directory. -/
def State.l1dFill (s : State) (p c line : Nat) (st : Mesi) (strm : Bool) : State :=
  let r := s.l1dRoom p c line
  match (r.2.l2Of p).find line with
  | some y =>
    let k := r.2.clu p c
    let s1 := r.2.setClu p c { k with l1d := k.l1d ++ [⟨line, r.1, st, if strm then 3 else 0, y.data, y.wr⟩] }
    s1.setL2 p ((s1.l2Of p).put { y with dpres := y.dpres ++ [c], owner := if st = .s then none else some c })
  | none => r.2

/-- Gets a line into cluster `c`'s L1D under its bank's grant: in M for a store or AMO, in M or E where `excl`, else as the directory
allows (R209). The other clusters' L1I copies go, and the cluster's own stays (R211; DEDUCED, assumption 41). -/
def State.l1dTake (s : State) (p c : Nat) (q : Req) (line : Nat) (own excl strm : Bool) : Option CacheErr × State :=
  let k := s.clu p c
  match l1Find k.l1d line with
  | some x =>
    let s0 := s.setClu p c { k with l1d := l1Put k.l1d { x with age := 0, st := if own then .m else if excl && x.st = .s then .e else x.st } }
    if x.st = .s ∧ (own ∨ excl) then
      let s1 := (s0.trvFill p c line 1).recallAll p line (some c)
      match (s1.l2Of p).find line with
      | some y => (none, s1.setL2 p ((s1.l2Of p).put { y with owner := some c }))
      | none => (none, s1)
    else (none, s0)
  | none =>
    let on := s.flag (L1D_CTL_SDET_EN p c) || s.flag (L2_CTL_SDET_EN p)
    let d := if on then detMiss k.dets line else (false, k.dets)
    let s0 := s.setClu p c { k with dets := d.2 }
    let st1 := strm || (d.1 && s.flag (L1D_CTL_SDET_EN p c))
    let st2 := st1 || (d.1 && s.flag (L2_CTL_SDET_EN p))
    let g := (s0.trvFill p c line 2).l2Get p q line st2
    match g.1 with
    | some e => (some e, g.2)
    | none =>
      let s1 := if own || excl then g.2.recallAll p line (some c)
        else match (g.2.l2Of p).find line with
          | some y => match y.owner with
            | some o => g.2.recall p o line false
            | none => g.2
          | none => g.2
      let shared := match (s1.l2Of p).find line with
        | some y => !(y.dpres.filter (fun j => !(j == c))).isEmpty || !y.ipres.isEmpty
        | none => false
      (none, s1.l1dFill p c line (if own then .m else if excl then .e else if shared then .s else .e) st1)

/-- Whether cacheable accesses of partition `p` go to its caches (R222). -/
def State.l2On (s : State) (p : Nat) : Bool := s.flag (L2_CTL_ENABLE p)

/-- Whether they use cluster `c`'s L1D (R221). -/
def State.l1dOn (s : State) (p c : Nat) : Bool := s.flag (L1D_CTL_ENABLE p c)

/-- The lines of other clusters' copies that a load meets: a copy held in M or E is recalled (R209). -/
def State.recallOwner (s : State) (p line : Nat) : State :=
  match (s.l2Of p).find line with
  | some y => match y.owner with
    | some o => s.recall p o line false
    | none => s
  | none => s

/-- Fetches a line into cluster `c`'s L1I under its bank's grant (R211). -/
def State.l1iTake (s : State) (p c : Nat) (q : Req) (line : Nat) : Option CacheErr × State :=
  let g := (s.trvFill p c line 2).l2Get p q line false
  match g.1 with
  | some e => (some e, g.2)
  | none =>
    let s1 := g.2.recallOwner p line
    match (s1.l2Of p).find line with
    | none => (some .ue, s1)
    | some y =>
      let k1 := s1.clu p c
      let set := fun (x : L1Line) => x.line % 128 == line % 128
      let v := victimWay 4 (fun _ => false) ((k1.l1i.filter set).map (fun x => ⟨x.way, x.age⟩))
      let aged := k1.l1i.map (fun x => if set x then { x with age := min 3 (x.age + v.2) } else x)
      let out := aged.filter (fun x => set x && x.way == v.1)
      let s2 := s1.setClu p c { k1 with
        l1i := aged.filter (fun x => !(set x && x.way == v.1)) ++ [⟨line, v.1, .s, 0, y.data, y.wr⟩] }
      let s3 := out.foldl (fun t x => t.recallI p c x.line) s2
      (none, match (s3.l2Of p).find line with
        | some z => s3.setL2 p ((s3.l2Of p).put { z with ipres := if z.ipres.contains c then z.ipres else z.ipres ++ [c] })
        | none => s3)

/-! ### Requests at the banks (R227, R228) -/

/-- The request of cluster `c`'s accesses, as its present context makes it (R257). -/
def State.cluReq (s : State) (p c : Nat) : Req := ⟨s.agentCid p (s.clu p c).tctxCid.toNat, 0, p, s.chip, cluStop p c⟩

/-- The request a bank grants next: the first cluster at or after the pointer. -/
def pickReq (reqs : List L2Req) (ptr : Nat) : Option L2Req :=
  (sortBy (fun a b => decide ((a.clu + 20 - ptr) % 20 ≤ (b.clu + 20 - ptr) % 20)) reqs).head?

/-- The requests that wait at a bank. -/
def L2St.atBank (u : L2St) (bank : Nat) : List L2Req := u.reqs.filter (fun r => bankOf r.line == bank)

/-- The bank's round-robin pointer. -/
def L2St.ptr (u : L2St) (bank : Nat) : Nat := Tbl.get (fun _ => 0) u.rr bank

/-- The pointer moves to one past the granted cluster. -/
def State.ptrPast (s : State) (p bank c : Nat) : State :=
  let u := s.l2Of p
  s.setL2 p { u with rr := Tbl.set (fun _ => 0) u.rr bank ((c + 1) % 20) }

/-- A waiting request is granted: it leaves the queue, the pointer moves past its cluster, and the cluster gets its fill and makes its
access. (DEDUCED: assumption 85.) -/
def State.grantReq (s : State) (p bank : Nat) (r : L2Req) : State :=
  let u := s.l2Of p
  let s1 := ((s.setL2 p { u with reqs := u.reqs.filter (fun x => decide (x ≠ r)) }).ptrPast p bank r.clu).useEnd (.miss p r)
  if r.instr then (s1.l1iTake p r.clu (s.cluReq p r.clu) r.line).2
  else (s1.l1dTake p r.clu (s.cluReq p r.clu) r.line r.own r.own false).2

/-- The bank grants the requests that come before cluster `c`'s own, at most `n`, then cluster `c`'s (R227). -/
def State.bankTurn (s : State) (p bank c : Nat) : Nat → State
  | 0 => s.ptrPast p bank c
  | n + 1 =>
    let u := s.l2Of p
    match pickReq (u.atBank bank ++ [⟨c, 0, false, false⟩]) (u.ptr bank) with
    | some r => if r.clu = c then s.ptrPast p bank c else (s.grantReq p bank r).bankTurn p bank c n
    | none => s

/-- An access of cluster `c` takes its turn at the bank of a line. -/
def State.turnAt (s : State) (p c line : Nat) : State :=
  s.bankTurn p (bankOf line) c ((s.l2Of p).atBank (bankOf line)).length

/-- Whether cluster `c`'s L1D serves an access without its bank: a copy, in M or E where the access needs the line alone. -/
def State.l1dHit (s : State) (p c line : Nat) (alone : Bool) : Bool :=
  match l1Find (s.clu p c).l1d line with
  | some x => !alone || decide (x.st ≠ .s)
  | none => false

/-- Gets a line into cluster `c`'s L1D for an access; what its L1D does not serve takes its turn at the bank (R209, R227). -/
def State.l1dGet (s : State) (p c : Nat) (q : Req) (line : Nat) (own excl strm : Bool) : Option CacheErr × State :=
  (if s.l1dHit p c line (own || excl) then s else s.turnAt p c line).l1dTake p c q line own excl strm

/-- Brings a line into the L2 for an access of a cluster whose L1D is absent. -/
def State.l2Take (s : State) (p c : Nat) (q : Req) (line : Nat) (strm : Bool) : Option CacheErr × State :=
  ((s.turnAt p c line).trvFill p c line 1).l2Get p q line strm

/-- Reads part of one line through the caches; `excl` is LDAQ's (R212). -/
def State.cacheRead (s : State) (p c : Nat) (q : Req) (pa n : Nat) (excl strm : Bool) : Option CacheErr × List Byte × State :=
  let line := pa / 128
  if (s.l2Of p).full.isSome then (some .stall, [], s)
  else if s.l1dOn p c then
    let g := s.l1dGet p c q line false excl strm
    match g.1 with
    | some e => (some e, [], g.2)
    | none => match l1Find (g.2.clu p c).l1d line with
      | some x => (none, Mem.read x.data (pa % 128) n, g.2)
      | none => (some .ue, [], g.2)
  else
    let g := s.l2Take p c q line strm
    match g.1 with
    | some e => (some e, [], g.2)
    | none =>
      let s1 := g.2.recallOwner p line
      match (s1.l2Of p).find line with
      | some y => (none, Mem.read y.data (pa % 128) n, s1)
      | none => (some .ue, [], s1)

/-- Writes part of one line through the caches. (DEDUCED: assumption 41.) -/
def State.cacheWrite (s : State) (p c : Nat) (q : Req) (pa : Nat) (d : List Byte) (w : Writer) (strm : Bool) :
    Option CacheErr × State :=
  let line := pa / 128
  if (s.l2Of p).full.isSome then (some .stall, s)
  else if s.l1dOn p c then
    let g := s.l1dGet p c q line true true strm
    match g.1 with
    | some e => (some e, g.2)
    | none =>
      let k := g.2.clu p c
      match l1Find k.l1d line with
      | some x => (none, g.2.setClu p c { k with l1d := l1Put k.l1d { x with st := .m, data := Mem.write x.data (pa % 128) d, wr := w } })
      | none => (some .ue, g.2)
  else
    let g := s.l2Take p c q line strm
    match g.1 with
    | some e => (some e, g.2)
    | none =>
      let s1 := g.2.recallAll p line (some c)
      let u := s1.l2Of p
      match u.find line with
      | some y => (none, s1.setL2 p (u.put { y with dirty := true, data := Mem.write y.data (pa % 128) d, wr := w }))
      | none => (some .ue, s1)

/-- Fetches part of one line through the L1I and the L2 (R211). -/
def State.cacheFetch (s : State) (p c : Nat) (q : Req) (pa n : Nat) : Option CacheErr × List Byte × State :=
  let line := pa / 128
  let k := s.clu p c
  if (s.l2Of p).full.isSome then (some .stall, [], s)
  else match l1Find k.l1i line with
    | some x => (none, Mem.read x.data (pa % 128) n, s.setClu p c { k with l1i := l1Put k.l1i { x with age := 0 } })
    | none =>
      let g := (s.turnAt p c line).l1iTake p c q line
      match g.1 with
      | some e => (some e, [], g.2)
      | none => match l1Find (g.2.clu p c).l1i line with
        | some x => (none, Mem.read x.data (pa % 128) n, g.2)
        | none => (some .ue, [], g.2)

/-- A request waits for its bank. With the L2 disabled an access is uncached, and with the L1D disabled its loads and stores ask for no line
(R221, R222). -/
def State.l2Ask (s : State) (p : Nat) (r : L2Req) : State :=
  let u := s.l2Of p
  if !s.l2On p || (!r.instr && !s.l1dOn p r.clu) || u.reqs.contains r then s else s.setL2 p { u with reqs := u.reqs ++ [r] }

/-- OWNERSHIP_REQUEST: the cluster asks for the line in M. -/
def execOwnershipRequest (h : Hart) (pa : BitVec 46) (s : State) : Host.Outcome State Fault Refusal :=
  .next (s.l2Ask h.part ⟨h.clu, pa.toNat / 128, true, false⟩)

/-- L1_FILL_REQUEST: an L1D or L1I miss asks for the line. -/
def execL1FillRequest (h : Hart) (pa : BitVec 46) (instr : Bool) (s : State) : Host.Outcome State Fault Refusal :=
  .next (s.l2Ask h.part ⟨h.clu, pa.toNat / 128, false, instr⟩)

/-- BANK_GRANT: the bank grants the next cluster, which gets its fill and makes its access; the pointer moves past it. Writebacks
are merged as they come, so none waits for the channel. (DEDUCED: assumption 85.) -/
def execBankGrant (p : Part) (bank : Fin 16) (s : State) : Host.Outcome State Fault Refusal :=
  let u := s.l2Of p
  match pickReq (u.atBank bank) (u.ptr bank) with
  | none => .next s
  | some r => .next (if u.full.isSome then s else s.grantReq p bank r)

/-- Whether a cluster's L1D takes part in coherence: while it, or the L2, is disabled its contents stay in place (R221, R222). -/
def State.coherent (s : State) (p c : Nat) : Bool := s.l2On p && s.l1dOn p c

/-- RECALL: a recall, or an invalidation, of a line reaches a cluster's L1D and is answered. -/
def execRecall (h : Hart) (pa : BitVec 46) (inv : Bool) (s : State) : Host.Outcome State Fault Refusal :=
  .next (if s.coherent h.part h.clu then s.recall h.part h.clu (pa.toNat / 128) inv else s)

/-- VICTIM_WRITEBACK: a cluster evicts a line, whose M data is merged into the L2 line. -/
def execVictimWriteback (h : Hart) (pa : BitVec 46) (s : State) : Host.Outcome State Fault Refusal :=
  .next (if s.coherent h.part h.clu then s.evictL1 h.part h.clu (pa.toNat / 128) else s)

/-! ### Maintenance (R217, R218) -/

/-- The context in which a maintenance slot translates: as cluster `c`'s Monitor accesses would be (R258). Its page must let it read, since
only U and X do not count (R261). (DEDUCED: assumption 85.) -/
def State.maintTranslate (s : State) (p c va : Nat) : Option Nat × State :=
  let k := s.clu p c
  if !k.tctxEn then (if va / 2 ^ 52 % 16 = 0 then (some (va % 2 ^ 52), s) else (none, s))
  else
    let r := s.translate p .l2 (s.agentCid p k.tctxCid.toNat) (va % 2 ^ 56)
    ((r.1.filter (fun e => e.permits .read false)).map (fun e => e.phys (va % 2 ^ 56)), r.2)

/-- The line numbers of a virtual range in order, up to the first page that cannot be translated. -/
def State.maintLines (s : State) (p c : Nat) : Nat → Nat → Nat → List Nat → List Nat × Option Nat × State
  | 0, _, _, acc => (acc, none, s)
  | _, _, 0, acc => (acc, none, s)
  | fuel + 1, va, n, acc =>
    let m := min n (65536 - va % 65536)
    let r := s.maintTranslate p c va
    match r.1 with
    | none => (acc, some va, r.2)
    | some pa =>
      let ls := if r.2.isLocal pa then
          (List.range ((localPa pa % 128 + m + 127) / 128)).map (fun i => localPa pa / 128 + i)
        else []
      r.2.maintLines p c fuel (va + m) (n - m) (acc ++ ls)

/-- Cleans one line: dirty data of any L1D or the L2 is written to memory, and copies stay clean. -/
def State.cleanLine (s : State) (p cid line : Nat) : State × Bool :=
  let s1 := match (s.l2Of p).find line with
    | some y => match y.owner with
      | some o => s.recall p o line false
      | none => s
    | none => s
  match (s1.l2Of p).find line with
  | some y => if y.dirty then ((s1.setL2 p ((s1.l2Of p).put { y with dirty := false })).lineBack p cid y, true) else (s1, false)
  | none => (s1, false)

/-- Applies an operation to lines in order: the controllers that received writebacks. -/
def State.maintApply (s : State) (p cid op : Nat) : List Nat → List Nat → List Nat × State
  | [], gs => (gs, s)
  | l :: t, gs =>
    let c := if op = 2 then (s, false) else s.cleanLine p cid l
    let s1 := if op = 0 then c.1 else c.1.l2Evict p l false
    let g := match s.loc (l * 128) with | .stack k => wcbKey k (groupOf (l * 128)) | _ => 0
    s1.maintApply p cid op t (if c.2 && !gs.contains g then gs ++ [g] else gs)

/-- A write of OP to a slot (R217): BUSY refuses it, reserved OP is ignored, LEN 0 is done at once. -/
def State.maintStart (s : State) (p c op : Nat) : State :=
  if s.flag (L2_MAINT_STS_BUSY p c) then s.log ev_BUSY_WRITE (blkPart p) (L2_MAINT_CMD_OP p c).addr op
  else if 3 ≤ op then s
  else
    let s0 := (s.setFlag (L2_MAINT_STS_DONE p c) false).setFlag (L2_MAINT_STS_FAULT p c) false
    let n := s.fld (L2_MAINT_LEN_LEN p c)
    if n = 0 then s0.setFlag (L2_MAINT_STS_DONE p c) true
    else
      let m := s0.maintLines p c (n / 65536 + 2) (s.fld (L2_MAINT_ADDR_VA p c)) n []
      let cid := s.agentCid p (s.clu p c).tctxCid.toNat
      let a := m.2.2.maintApply p cid op m.1 []
      let u := a.2.l2Of p
      (a.2.setL2 p { u with slots := Tbl.set (fun _ => none) u.slots c (some ⟨op, m.2.1, a.1⟩) }).setFlag (L2_MAINT_STS_BUSY p c) true

/-- A maintenance operation completes: its writebacks are drained, and DONE, FAULT and the fault address show (R217, R218, R244). -/
def State.maintDone (s : State) (p c : Nat) : State :=
  let u := s.l2Of p
  match Tbl.get (fun _ => (none : Option MaintSt)) u.slots c with
  | none => s
  | some m =>
    let s1 := (s.setL2 p { u with slots := Tbl.set (fun _ => none) u.slots c none }).drainWait (.maint p c) .fence m.groups
    let s2 := ((s1.setFlag (L2_MAINT_STS_BUSY p c) false).setFlag (L2_MAINT_STS_DONE p c) true).useEnd (.maint p c)
    match m.fault with
    | some va => (s2.setFlag (L2_MAINT_STS_FAULT p c) true).setFld (L2_MAINT_ADDR_VA p c) va
    | none => s2

/-- MAINTENANCE_DONE of slot `c`. -/
def execMaintenanceDone (p : Part) (c : Clu) (s : State) : Host.Outcome State Fault Refusal := .next (s.maintDone p c)

/-! ### Full invalidates (R220, R223) -/

/-- A write of 1 to FLUSH_ALL (`back`) or INV_ALL; one that runs goes on.
(DEDUCED: assumption 85.) -/
def State.fullStart (s : State) (p : Nat) (back : Bool) : State :=
  let u := s.l2Of p
  if u.full.isSome then s else (s.setL2 p { u with full := some back }).setFlag (L2_STS_ALL_BUSY p) true

/-- Every L1 of the partition holds nothing, and its STALE_RISK is clear (R223). -/
def State.l1Empty (s : State) (p : Nat) : State :=
  (List.range 20).foldl (fun t c =>
    let k := t.clu p c
    let t1 := (t.setClu p c { k with l1d := [], l1i := [], l1dClean := true, l1dPend := false }).setFlag (L1D_STS_STALE_RISK p c) false
    if k.l1dPend then t1.setFlag (L1D_CTL_ENABLE p c) true else t1) s

/-- Invalidates every line of the partition, with dirty data written back or discarded.
(DEDUCED: assumption 85.) -/
def State.fullInvalidate (s : State) (p : Nat) (back : Bool) : State :=
  let dirtyL1 := (List.range 20).flatMap (fun c => ((s.clu p c).l1d.filter (fun x => decide (x.st = .m))).map (fun x => (c, x.line)))
  let s1 := if back then dirtyL1.foldl (fun t e => t.mergeL1 p e.1 e.2) s else s
  let dirty := if back then (s1.l2Of p).lines.filter (fun y => y.dirty) else []
  let s2 := dirty.foldl (fun t y => t.lineBack p y.wr.cid y) s1
  (s2.setL2 p { s2.l2Of p with lines := [] }).l1Empty p

/-- A full invalidate completes (R220, Table 11-7): ALL_DONE, STALE_RISK clear, a waiting ENABLE takes effect. -/
def State.fullEnd (s : State) (p : Nat) : State :=
  let u := s.l2Of p
  let s3 := s.setL2 p { u with full := none, enPend := false, cleaned := true }
  let s4 := ((s3.setFlag (L2_STS_ALL_BUSY p) false).setFlag (L2_STS_ALL_DONE p) true).setFlag (L2_STS_STALE_RISK p) false
  if u.enPend then s4.setFlag (L2_CTL_ENABLE p) true else s4

/-- The full invalidate that runs completes. -/
def State.fullDone (s : State) (p : Nat) : State :=
  match (s.l2Of p).full with
  | none => s
  | some back =>
    let s1 := s.fullInvalidate p back
    (if back then s1.drainWait (.flush p) .fence (partGroups p) else s1).fullEnd p

/-- The full invalidate that the hardware performs as a compute domain powers up (R220). -/
def State.powerInvalidate (s : State) (p : Nat) : State := (s.fullInvalidate p false).fullEnd p

/-- FULL_INVALIDATE_DONE. -/
def execFullInvalidateDone (p : Part) (s : State) : Host.Outcome State Fault Refusal := .next (s.fullDone p)

/-- A write of 1 to L1D_CTL.INV_ALL: every line of the L1D goes without writeback, and its directory entries with it (R223). INV_BUSY reads 1
for 128 PCLK cycles (Table 11-4). -/
def State.l1dInvAll (s : State) (p c : Nat) : State :=
  let k := s.clu p c
  let s1 := k.l1d.foldl (fun t x => t.dirDrop p c x.line) s
  (s1.setClu p c { s1.clu p c with l1d := [], l1dClean := true, l1dBusy := some (s.pclkOf p) }).setFlag (L1D_STS_STALE_RISK p c) false

/-! ### Disabling (R221 to R223) -/

/-- Requests that their banks had accepted complete before a disable is performed: they are granted, bank by bank, at most `n`
(R221, R222). -/
def State.missGrantAll (s : State) (p : Nat) (f : L2Req → Bool) : Nat → State
  | 0 => s
  | n + 1 =>
    match (s.l2Of p).reqs.find? f with
    | none => s
    | some r =>
      let u := s.l2Of p
      match pickReq (u.atBank (bankOf r.line)) (u.ptr (bankOf r.line)) with
      | none => s
      | some x => (s.grantReq p (bankOf r.line) x).missGrantAll p f n

/-- A write of L1D_CTL.ENABLE. -/
def State.l1dEnable (s0 : State) (p c : Nat) (v : Bool) : State :=
  let was := s0.flag (L1D_CTL_ENABLE p c)
  let s := if was && !v then s0.missGrantAll p (fun r => r.clu == c && !r.instr) (s0.l2Of p).reqs.length else s0
  let k := s.clu p c
  if v == was then (if v then s else s.setClu p c { k with l1dPend := false })
  else if !v then
    let s1 := k.l1d.foldl (fun t x => t.dirDrop p c x.line) s
    (s1.setClu p c { s1.clu p c with l1dClean := false }).setFlag (L1D_CTL_ENABLE p c) false
  else if (s.l2Of p).full.isSome then s.setClu p c { k with l1dPend := true }
  else
    let s1 := s.setFlag (L1D_CTL_ENABLE p c) true
    if k.l1dClean then s1
    else (s1.setFlag (L1D_STS_STALE_RISK p c) true).logD ev_STALE_RISK (blkPart p) (L1D_CTL_ENABLE p c).addr [c]

/-- A write of L2_CTL.ENABLE. (DEDUCED: assumption 112.) -/
def State.l2Enable (s0 : State) (p : Nat) (v : Bool) : State :=
  let was := s0.flag (L2_CTL_ENABLE p)
  let s := if was && !v then s0.missGrantAll p (fun _ => true) (s0.l2Of p).reqs.length else s0
  let u := s.l2Of p
  if v == was then (if v then s else s.setL2 p { u with enPend := false })
  else if !v then (s.setL2 p { u with cleaned := false, enPend := false }).setFlag (L2_CTL_ENABLE p) false
  else if u.full.isSome then s.setL2 p { u with enPend := true }
  else
    let s1 := s.setFlag (L2_CTL_ENABLE p) true
    if u.cleaned then s1
    else (s1.setFlag (L2_STS_STALE_RISK p) true).logD ev_STALE_RISK (blkPart p) (L2_CTL_ENABLE p).addr [31]

/-! ### Way power-down (R225) -/

/-- How many ways a mask turns off. -/
def maskCount (m : Nat) : Nat := ((List.range 16).filter (fun i => m.testBit i)).length

/-- A write of L2_WAYOFF. -/
def State.wayoffWrite (s : State) (p m : Nat) : State :=
  let u := s.l2Of p
  if u.waying then s.log ev_BUSY_WRITE (blkPart p) (L2_WAYOFF_MASK p).addr m
  else if 12 < maskCount m then (s.setFlag (L2_STS_WAYOFF_REJ p) true).logD ev_WAYOFF_REJ (blkPart p) (L2_WAYOFF_MASK p).addr [m]
  else (s.setL2 p { u with waying := true }).setFld (L2_WAYOFF_MASK p) m

/-- Every selected way change completes: lines of the ways are recalled, written back and invalidated, and OFF and DONE show. -/
def State.wayoffDone (s : State) (p : Nat) : State :=
  if !(s.l2Of p).waying then s
  else
    let m := s.fld (L2_WAYOFF_MASK p)
    let gone := (s.l2Of p).lines.filter (fun x => m.testBit x.way)
    let s1 := gone.foldl (fun t x => t.l2Evict p x.line true) s
    ((s1.setL2 p { s1.l2Of p with waying := false }).setFld (L2_WAYOFF_DONE_OFF p) m).setFlag (L2_WAYOFF_DONE_DONE p) true

/-- WAYOFF_DONE. -/
def execWayoffDone (p : Part) (s : State) : Host.Outcome State Fault Refusal := .next (s.wayoffDone p)

end Sys2Proof.Machine
end

