-- ==== Sys2Proof/Machine/Fabric.lean ====
section
/-!
DEFINITION. Machine/Fabric.lean: what packets of the Traverse do at their stops, the commands of its token network, requests that time
out, and what goes on while no command waits (chapter 14, R433, R434).
-/
namespace Sys2Proof.Machine

/-! ### Packets at their stops (R286, R289, R434) -/

/-- An uncorrectable read of a cluster: it halts, and the partition has a fatal compute fault (R434).
(DEDUCED: assumption 67.) -/
def State.cluUe (s : State) (p c : Nat) : State :=
  (s.setClu p c { s.clu p c with halted := true, running := false }).computeFatal p 2 c

/-- Whether the compute domain of partition `p` is held or failed: a response to a cluster there is discarded (Table 14-8). -/
def State.domainHeld (s : State) (p : Nat) : Bool :=
  s.flag (PCTL_STS_FAILED p) || (List.range 20).any (fun c => (s.clu p c).inReset)

/-- Whether a response to a stop is discarded: its request has timed out, or it is for a cluster whose compute domain is held or failed. -/
def State.respDropped (s : State) (h : BitVec 64) : Bool :=
  s.net.timedOut.contains (hdrDst h, hdrTag h) ||
    (match stopKind (hdrDst h) with | .cluster p _ => s.domainHeld p | _ => false)

/-- A response lands: its reservation is released and its request is no longer in flight (R271, R289). -/
def State.respLand (s : State) (h : BitVec 64) : State :=
  let d := hdrDst h
  let m := s.net.mesh
  let m1 := { m.setResv d (m.resvOf d - 1) with asked := m.asked.erase (d, hdrTag h) }
  let t := s.withNet { s.net with mesh := m1, timedOut := s.net.timedOut.erase (d, hdrTag h) }
  if m.asked.contains (d, hdrTag h) then t.useEnd (.trv d (hdrTag h)) else t

/-- A packet that has come whole is taken by its sink. A poisoned response is an uncorrectable read of a cluster, and a poisoned packet of
a put is discarded by the plat; other sinks get the packet with its POISON bit (R286, R434). -/
def State.trvLand (s : State) (k : MeshPkt) : State :=
  let h := k.hdr
  let t := if hdrVc h = 1 then s.respLand h else s
  if hdrVc h = 1 ∧ s.respDropped h = true then t.logD ev_RESP_DISCARDED blkTrv 0 [hdrDst h]
  else
    let t1 := t.send (.trv h k.data)
    if hdrPoison h then
      match stopKind (hdrDst h) with
      | .cluster p c => if hdrVc h = 1 then t1.cluUe p c else t1
      | .plat p => if hdrVc h = 4 then t1.poisonPut p (hdrSrc h) else t1
      | _ => t1
    else t1

/-- The sinks take the packets that have reached their stops, in order. -/
def State.meshSinks (s : State) : State :=
  s.net.mesh.landed.foldl (fun t i =>
    match t.net.mesh.pkt i with
    | some k => (t.withMesh (t.net.mesh.setPkt i none)).trvLand k
    | none => t) (s.withMesh { s.net.mesh with landed := [] })

/-- TRAVERSE_PACKET: a packet comes to its source stop, and goes its way as the mesh lets it. -/
def execTraversePacket (k : TrvPkt) (s : State) : Host.Outcome State Fault Refusal := .next (s.trvPacket k)

/-! ### Tokens (R289 to R292) -/

/-- Forgets tokens that have arrived where they belong. -/
def TokSt.prune (t : TokSt) (c : Nat) : TokSt := { t with coming := t.coming.filter (fun u => decide (c < u.arrive)) }

/-- TOKEN_REQUEST: a pool token request sets out for its target. A stop asks for no more tokens than it may hold (R290, R292), and for none
of a target without a pool. -/
def execTokenRequest (tgt : BitVec 9) (vc : BitVec 3) (stop : BitVec 9) (s : State) : Host.Outcome State Fault Refusal :=
  let k := tokKey tgt.toNat vc.toNat
  let c := s.net.mesh.cyc
  let t := (s.tokOf k).prune c
  let n := (t.waiting.filter (fun r => r.stop == stop.toNat)).length + t.poolOut stop.toNat c
  if n < (tokensOf tgt.toNat vc.toNat stop.toNat).2.2 then
    let s1 := s.setTok k { t with waiting := t.waiting ++ [⟨stop.toNat, c, c + hopsOf stop.toNat tgt.toNat⟩] }
    .next (s1.pmuEvent 4 1 (fun st => st == stop.toNat) none)
  else .next s

/-- Records the wait of a granted request (Table 14-6). -/
def State.tokWait (s : State) (tgt : Nat) (r : TokReq) : State :=
  let w := s.net.mesh.cyc - r.tick
  if s.fld TRV_TOKWAIT_MAX_CYCLES < w then
    ((s.setFld TRV_TOKWAIT_MAX_CYCLES (min w (2 ^ 32 - 1))).setFld TRV_TOKWAIT_STOP_REQ r.stop).setFld TRV_TOKWAIT_STOP_TGT tgt
  else s

/-- The request that is granted next: of those that have arrived and whose stop is below its cap, the one that came first.
(DEDUCED: assumption 93.) -/
def TokSt.next (t : TokSt) (cap c : Nat) : Option TokReq :=
  (t.waiting.filter (fun r => decide (r.arrive ≤ c) && decide (t.poolOut r.stop c < cap))).foldl (fun b r =>
    match b with
    | some x => if r.arrive < x.arrive then some r else b
    | none => some r) none

/-- TOKEN_GRANT: the oldest request whose requester is below its cap gets a pool token, while one is free. The token is on its way to it.
(DEDUCED: assumption 93.) -/
def execTokenGrant (tgt : BitVec 9) (vc : BitVec 3) (s : State) : Host.Outcome State Fault Refusal :=
  let k := tokKey tgt.toNat vc.toNat
  let c := s.net.mesh.cyc
  let t := (s.tokOf k).prune c
  let p := (tokensOf tgt.toNat vc.toNat 0).2
  if p.1 ≤ t.outAll c then .next s
  else match t.next p.2 c with
    | none => .next s
    | some r =>
      let g : TokGrant := ⟨r.stop, c + hopsOf tgt.toNat r.stop⟩
      .next (((s.setTok k { t with waiting := t.waiting.erase r, granted := t.granted ++ [g] }).tokWait tgt.toNat r).send
        (.tokenGrant tgt.toNat vc.toNat r.stop))

/-- Whether a packet waits at stop `stop` for a token of a target. -/
def MeshSt.waitsFor (m : MeshSt) (tgt vc stop : Nat) : Bool :=
  m.inj.any (fun i => match m.pkt i with
    | some k => !k.cleared && hdrDst k.hdr == tgt && hdrVc k.hdr == vc && hdrSrc k.hdr == stop
    | none => false)

/-- TOKEN_RETURN: the target has moved a packet of `stop` out of its entry, and the token that named it goes back, a pool token to the pool
and a standing one to its stop. With no such packet, a pool token that the stop holds unused goes back, where no packet waits for one
(Table 14-8). -/
def execTokenReturn (tgt : BitVec 9) (vc : BitVec 3) (stop : BitVec 9) (s : State) : Host.Outcome State Fault Refusal :=
  let k := tokKey tgt.toNat vc.toNat
  let m := s.net.mesh
  let t := (s.tokOf k).prune m.cyc
  let far := m.cyc + hopsOf tgt.toNat stop.toNat
  match t.held.find? (fun u => u.stop == stop.toNat && (m.pkt u.pkt).isNone) with
  | some u =>
    .next (s.setTok k { t with
      held := t.held.erase u, coming := if u.pool then t.coming else t.coming ++ [⟨u.stop, false, far⟩] })
  | none =>
    match t.granted.find? (fun g => g.stop == stop.toNat && decide (g.arrive ≤ m.cyc)) with
    | some g =>
      if m.waitsFor tgt.toNat vc.toNat stop.toNat then .next s
      else .next (s.setTok k { t with granted := t.granted.erase g, coming := t.coming ++ [⟨g.stop, true, far⟩] })
    | none => .next s

/-- FRAME_TOKEN_GRANT: a free frame of plat `p` lets what waits for one enter (R102, R289). -/
def execFrameTokenGrant (p : Part) (s : State) : Host.Outcome State Fault Refusal := .next (s.letIn p)

/-! ### Puts that stages start (Table 6-15, R100, R310) -/

/-- A put of partition `p` is performed only after the FENCE.DRAIN that precedes the store that starts it. No command names the cluster of
that store: every cluster of the partition has drained its earlier stores. (DESIGN CHOICE: assumption 132.) -/
def State.putDrain (s : State) (p : Nat) : State := (List.range 20).foldl (fun t c => t.drainClu p c) s

/-- PUT_HEADER: the header of a put, of a partition of this chip or another, reaches a plat. -/
def execPutHeader (p : Part) (hdr : PutHdr) (s : State) : Host.Outcome State Fault Refusal :=
  .next ((if hdr.srcChip.toNat = s.chip then s.putDrain hdr.srcPart.toNat else s).putHeader p (putFrame hdr))

/-- REMOTE_FRAME_TOKEN_REQUEST: a put of a stage asks another chip, or another chip's partition asks a plat here (R310). -/
def execRemoteFrameTokenRequest (p : Part) (a : RemToken) (s : State) : Host.Outcome State Fault Refusal :=
  .next (match a with
    | .ask r =>
      let t := s.putDrain p
      t.askRemote ⟨p, r.chip.toNat, r.part.toNat, t.withSample p (putFrame r.hdr), r.payload⟩
    | .asked chip src => s.tokenAsked p chip.toNat src.toNat)

/-! ### Timeouts (R433, R434) -/

/-- REQ_TIMEOUT: the request of a stop completes with an uncorrectable error, and its late response will be discarded. Its reservation waits
for that response. (DEDUCED: assumption 67.) -/
def execReqTimeout (stop : BitVec 9) (tag : BitVec 12) (pa : BitVec 52) (s : State) : Host.Outcome State Fault Refusal :=
  let n := stop.toNat
  let m := s.net.mesh
  let s1 := (s.withNet { s.net with
    timedOut := s.net.timedOut ++ [(n, tag.toNat)], mesh := { m with asked := m.asked.erase (n, tag.toNat) } })
  let s2 := (if m.asked.contains (n, tag.toNat) then s1.useEnd (.trv n tag.toNat) else s1).logD ev_REQ_TIMEOUT blkTrv pa.toNat [n]
  match stopKind n with
  | .cluster p c => .next (s2.cluUe p c)
  | _ => .next (s2.send (.completion .poisoned))

/-! ### While no command waits -/

/-- One tick without a command: TCLK and the mesh go on, sinks take what has come, and the CXL devices answer (R250, R293).
(DESIGN CHOICE: assumption 20.) (DESIGN CHOICE: assumption 130.) -/
def State.idle1 (s : State) : State := s.idleTick.meshSinks.cxlAnswer

end Sys2Proof.Machine
end

