-- ==== Sys2Proof/Machine/Power.lean ====
section
/-!
DEFINITION. Machine/Power.lean: partition states, DVFS steps and regulators, latency tolerance, device states and the thermal ladder
(chapter 18; R66, R247, R250, R417).
-/
namespace Sys2Proof.Machine

/-- BLOCK code of PWR (Table 0-8). -/
def blkPwr : Nat := 3

/-! ### Regulators and DVFS steps (R66, R355, R416, R417) -/

/-- The setpoint of a step code, mV (R416). -/
def stepMv : Nat → Nat
  | 0 => 850
  | 1 => 750
  | 2 => 650
  | _ => 550

/-- The effective step of a step request (R355). (DEDUCED: assumption 94.) -/
def State.effStep (s : State) (p req : Nat) : Nat := min 3 (req + min (s.fld (PWR_THERM_LEVEL p)) 2)

/-- Commands a step's setpoint at regulator `p`. -/
def State.avsCommand (s : State) (p code : Nat) : State :=
  let s1 := s.setPpwr p { s.ppwr p with avsCmd := some code, avsDone := none }
  (s1.setFbit PIN_AVS_STS_PENDING p true).setFbit PIN_AVS_STS_SETTLED p false

/-- The step is to become `eff`, faster than it is: TARGET shows it and the setpoint is commanded, unless it is already or the
regulator is faulted (R417). -/
def State.stepFaster (s : State) (p eff : Nat) : State :=
  if s.fbit PIN_AVS_STS_FAULT p then s.setFld (CLK_PCLK_STS_TARGET p) (s.fld (CLK_PCLK_STS_STEP p))
  else
    let s1 := s.setFld (CLK_PCLK_STS_TARGET p) eff
    let x := s1.ppwr p
    if x.avsCmd = some eff ∨ x.avsDone.map (fun d => d.1) = some eff then s1 else s1.avsCommand p eff

/-- A write of STEP_REQ commands the setpoint of a faster step at once (R417); while a step change is in progress its own step stays the
target. (DEDUCED: assumption 94.) -/
def State.stepReqWrite (s : State) (p : Nat) : State :=
  let eff := s.effStep p (s.fld (PWR_PSTATE_STEP_REQ p))
  if s.fld (CLK_PCLK_STS_STEP p) ≤ eff then s
  else if s.flag (CLK_PCLK_STS_TRANSITION p) then
    (s.stepFaster p eff).setFld (CLK_PCLK_STS_TARGET p) (s.fld (CLK_PCLK_STS_TARGET p))
  else s.stepFaster p eff

/-- The step at a beat boundary: a slower step starts to change, a faster one 20 µs after its regulator settled (R355, R417). -/
def State.stepTurn (s : State) (p : Nat) : State :=
  let eff := s.effStep p (s.act (PWR_PSTATE_STEP_REQ p))
  let cur := s.fld (CLK_PCLK_STS_STEP p)
  let s1 := s.setFld (PWR_PSTATE_EFF_STEP p) eff
  if s.flag (CLK_PCLK_STS_TRANSITION p) then s1
  else if eff = cur then s1.setFld (CLK_PCLK_STS_TARGET p) eff
  else if cur < eff then (s1.setFld (CLK_PCLK_STS_TARGET p) eff).setFlag (CLK_PCLK_STS_TRANSITION p) true
  else
    let s2 := s1.stepFaster p eff
    match (s2.ppwr p).avsDone with
    | some (code, t) =>
      if code = eff ∧ t + 24000 ≤ s.beat.tick ∧ s.fbit PIN_AVS_STS_FAULT p = false then s2.setFlag (CLK_PCLK_STS_TRANSITION p) true
      else s2
    | none => s2

/-- DVFS_STEP_COMPLETE: the step change in progress ends; after a change to a slower step its setpoint is commanded. -/
def execDvfsStepComplete (p : Part) (s : State) : Host.Outcome State Fault Refusal :=
  if s.flag (CLK_PCLK_STS_TRANSITION p) then
    let t := s.fld (CLK_PCLK_STS_TARGET p)
    let s1 := (s.setFld (CLK_PCLK_STS_STEP p) t).setFlag (CLK_PCLK_STS_TRANSITION p) false
    .next (if s.fld (CLK_PCLK_STS_STEP p) < t then s1.avsCommand p t else s1)
  else .next s

/-- AVS_COMPLETION: regulator `p` reports its setpoint reached. -/
def execAvsCompletion (p : Part) (s : State) : Host.Outcome State Fault Refusal :=
  match (s.ppwr p).avsCmd with
  | none => .next s
  | some c =>
    let s1 := s.setPpwr p { s.ppwr p with avsCmd := none, avsDone := some (c, s.beat.tick) }
    .next (((s1.setFbit PIN_AVS_STS_PENDING p false).setFbit PIN_AVS_STS_SETTLED p true).setFld (PIN_AVS_VOUT_MV p) (stepMv c))

/-- AVS_FAULT: a regulator without completion in 1 ms is faulted; the slower step is held until FAULT is cleared. -/
def execAvsFault (p : Part) (s : State) : Host.Outcome State Fault Refusal :=
  match (s.ppwr p).avsCmd with
  | none => .next s
  | some _ =>
    let s1 := s.setPpwr p { s.ppwr p with avsCmd := none, avsDone := none }
    let s2 := (s1.setFbit PIN_AVS_STS_PENDING p false).setFbit PIN_AVS_STS_FAULT p true
    let s3 := s2.logD ev_AVS_FAULT 7 0 [p]
    .next (if s.flag (CLK_PCLK_STS_TRANSITION p) then s3 else s3.setFld (CLK_PCLK_STS_TARGET p) (s.fld (CLK_PCLK_STS_STEP p)))

/-! ### Partition states (R350 to R354, R357) -/

/-- Whether a cluster keeps its partition from being idle: running and neither in WFB nor halted. -/
def Cluster.busy (c : Cluster) : Bool := c.running && !c.wfb && !c.halted

/-- Whether a takeover's copy involves partition `p`. -/
def State.inCopy (s : State) (p : Nat) : Bool :=
  (List.range 8).any (fun n =>
    let f := s.foOf n
    (n == p || f.spare == p) && (decide (f.phase = .triggered) || decide (f.phase = .copying) || decide (f.phase = .copied)))

/-- Whether partition `p` is idle (R351). -/
def State.idle (s : State) (p : Nat) : Bool :=
  !(List.range 20).any (fun c => (s.clu p c).busy) && (s.aditOf p).held == 0 && (s.asyOf p).held == 0 &&
    !(List.range 20).any (fun c => s.flag (L2_MAINT_STS_BUSY p c)) && (s.l2Of p).full.isNone && !(s.l2Of p).waying &&
    !s.flag (CLK_PCLK_STS_TRANSITION p) && !s.inCopy p

/-- Exit latency of a state in ns (Table 18-2). -/
def exitNs : Nat → Nat
  | 0 => 0
  | 1 => 30
  | 2 => 3000
  | _ => 250000

/-- Entry and exit time of a state in TCLK ticks of 1.2 GHz (Table 18-2). -/
def entryExitTicks : Nat → Nat
  | 0 => 0
  | 1 => 120 + 36
  | 2 => 6000 + 3600
  | _ => 60000 + 300000

/-- Whether the role of partition `p` is a pipeline stage (Table 5-2). -/
def State.isStage (s : State) (p : Nat) : Bool := s.role p == 1 || s.role p == 2 || s.role p == 3

/-- The deepest state a role permits (R354). -/
def State.roleLimit (s : State) (p : Nat) : Nat := if s.isStage p then 2 else 3

/-- The tolerance of partition `p` in ns; none is no limit (R357). -/
def State.tolerance (s : State) (p : Nat) : Option Nat :=
  (List.range 8).foldl (fun m c =>
    let v := s.act (PWR_LTOL_NS c)
    if (s.act (PWR_MAP_CLASSES p)).testBit c && v != 2 ^ 32 - 1 then
      (match m with | some x => some (min x v) | none => some v)
    else m) none

/-- The target state (R357): the deepest within budget, LIMIT and role. -/
def State.target (s : State) (p : Nat) : Nat :=
  let cap := min (s.act (PWR_PSTATE_LIMIT p)) (s.roleLimit p)
  match s.tolerance p with
  | none => cap
  | some t =>
    let b := t * 9 / 10
    (List.range (cap + 1)).foldl (fun m k => if exitNs k ≤ b then k else m) 0

/-- The state partition `p` is in, or is entering. -/
def State.deepest (s : State) (p : Nat) : Nat := max (s.fld (PWR_PSTATE_STATE p)) ((s.ppwr p).entering.getD 0)

/-- Power state selection at a boundary (R357): a partition deeper than its target is woken, as is one that has work again. -/
def State.powerTurn (s : State) (p : Nat) : State :=
  let s1 := s.setFld (PWR_PSTATE_TARGET p) (s.target p)
  if s.fld (PWR_STS_DSTATE) ≠ 0 then s1
  else if s.target p < s.deepest p ∨ s.idle p = false then s1.wakeEvent p
  else s1

/-- The state partition `p` can enter now: its target, and for a stage the deepest one no deeper than it whose entry and exit fit
before the boundary can fall (R357). -/
def State.entryState (s : State) (p : Nat) : Nat :=
  let t := s.fld (PWR_PSTATE_TARGET p)
  if s.isStage p then
    let w := if s.act BEAT_SYNC_CTL_MODE = 0 then 0 else s.beatW
    (List.range (t + 1)).foldl (fun m k => if s.beat.tick + w + entryExitTicks k ≤ s.beat.nom then k else m) 0
  else t

/-- POWER_STATE_ENTRY: an idle partition begins to enter its target state, from A0 or from a state less deep. -/
def execPowerStateEntry (p : Part) (s : State) : Host.Outcome State Fault Refusal :=
  let x := s.ppwr p
  if s.idle p && x.entering.isNone && !s.flag (PWR_PSTATE_WAKING p) && decide (s.fld (PWR_PSTATE_STATE p) < s.entryState p) then
    .next (s.setPpwr p { x with entering := some (s.entryState p), wakeAfter := false })
  else .next s

/-- A compute domain that is off keeps nothing of its clusters but that RESET or HALT holds them (R350, R437). -/
def State.cluLose (s : State) (p c : Nat) : State :=
  s.setClu p c { Cluster.reset with inReset := (s.clu p c).inReset, halted := (s.clu p c).halted && s.act (PCTL_CMD_CMD p) == 2 }

/-- The partition is in state `k`: what the entry does (R350). A2 drains the WCBs; A3 writes back and invalidates the caches, and the
clusters keep nothing. -/
def State.enterState (s : State) (p k : Nat) : State :=
  let s1 := s.setFld (PWR_PSTATE_STATE p) k
  if k = 2 then s1.drainWait (.retention p) .other (partGroups p)
  else if k = 3 then
    (List.range 20).foldl (fun t c => t.cluLose p c) ((s1.fullInvalidate p true).drainWait (.flush p) .fence (partGroups p))
  else s1

/-- An entry in progress completes. -/
def State.endEntry (s : State) (p : Nat) : State :=
  match (s.ppwr p).entering with
  | none => s
  | some k => (s.setPpwr p { s.ppwr p with entering := none, wakeAfter := false }).enterState p k

/-- POWER_STATE_ENTRY_DONE: the entry completes; a wake event that came meanwhile is served. -/
def execPowerStateEntryDone (p : Part) (s : State) : Host.Outcome State Fault Refusal :=
  .next (if (s.ppwr p).wakeAfter then (s.endEntry p).wakeEvent p else s.endEntry p)

/-- WAKE_EVENT of a partition that is in, or entering, A1 to A3 (R352). -/
def execWakeEvent (p : Part) (s : State) : Host.Outcome State Fault Refusal := .next (s.wakeEvent p)

/-- PRE_WAKE of a stage partition (R357). -/
def execPreWake (p : Part) (s : State) : Host.Outcome State Fault Refusal :=
  .next (if s.isStage p then s.wakeEvent p else s)

/-- Removes the TLB and walk-cache entries of partition `p`. -/
def State.clearTlbs (s : State) (p : Nat) : State :=
  { s with tlb := Tbl.erase s.tlb p, walks := Tbl.erase s.walks p }

/-- Cluster reset of a cluster; what its caches hold is not part of it.
(DEDUCED: assumption 33.) -/
def Cluster.cleared (k : Cluster) : Cluster :=
  { Cluster.reset with
    l1d := k.l1d, l1i := k.l1i, dets := k.dets, l1dClean := k.l1dClean, l1dPend := k.l1dPend, l1dBusy := k.l1dBusy, stores := k.stores
    cycle0 := k.cycle0 }

/-- Cluster `c` leaves cluster reset: in Monitor, in the tenant's context, at the stage program's entry (R350, R384, R437). Its caches
stay as they are. (DEDUCED: assumption 33.) (DEDUCED: assumption 107.) -/
def State.cluStart (s : State) (p c : Nat) : State :=
  s.setClu p c { (s.clu p c).cleared with
    pc := BitVec.ofNat 64 (2 * s.fld (PCTL_PROG_ENTRY p)), running := true, tctxEn := true
    tctxCid := BitVec.ofNat 12 (s.fld (PCTL_TENANT_CID p)), cycle0 := s.pclkOf p }

/-- Every cluster of a partition starts. -/
def State.cluStartAll (s : State) (p : Nat) : State := (List.range 20).foldl (fun t c => t.cluStart p c) s

/-- Whether the role in effect has its clusters out of cluster reset (R384). -/
def State.runsClusters (s : State) (p : Nat) : Bool := decide (1 ≤ s.role p) && decide (s.role p ≤ 4)

/-- A cluster starts after an exit from A3, unless RESET holds it; HALT leaves it halted (R437). -/
def State.cluWake (s : State) (p c : Nat) : State :=
  if (s.clu p c).inReset then s
  else
    let h := (s.clu p c).halted
    let t := s.cluStart p c
    if h then t.setClu p c { t.clu p c with halted := true } else t

/-- What an exit does (R350): from A2 the TLBs are cleared; from A3 the device performs a full invalidate, and the clusters start again
where the role runs them and the partition has not failed. -/
def State.exitState (s : State) (p k : Nat) : State :=
  if k = 2 then s.clearTlbs p
  else if k = 3 then
    let t := (s.clearTlbs p).powerInvalidate p
    if s.runsClusters p && !s.flag (PCTL_STS_FAILED p) then (List.range 20).foldl (fun u c => u.cluWake p c) t else t
  else s

/-- The partition reaches A0. -/
def State.endWake (s : State) (p : Nat) : State :=
  let k := s.fld (PWR_PSTATE_STATE p)
  (((s.setFlag (PWR_PSTATE_WAKING p) false).setFld (PWR_PSTATE_STATE p) 0).countUp (PWR_WAKE_CNT_COUNT p)).exitState p k

/-- WAKE_COMPLETE: the partition reaches A0. -/
def execWakeComplete (p : Part) (s : State) : Host.Outcome State Fault Refusal :=
  .next (if s.flag (PWR_PSTATE_WAKING p) then s.endWake p else s)

/-- A register access that wakes partition `p` completes after the exit, which the model does with it: an entry in progress ends, and the
partition reaches A0 (R352). An OFF partition stays (R353). (DESIGN CHOICE: assumption 94.) -/
def State.wakeNow (s : State) (p : Nat) : State :=
  if s.fld (PCTL_ROLE_ROLE_ACTIVE p) = 0 then s
  else
    let s1 := s.endEntry p
    if s1.awake p then s1 else s1.endWake p

/-- Whether WCB entries of stack `k` are in use. -/
def State.wcbUsed (s : State) (k : Nat) : Bool := (partGroups k).any (fun g => !(s.mem.wcbOf g).entries.isEmpty)

/-- SELF_REFRESH_ENTRY: in A3, with no WCB entry in use (R353). -/
def execSelfRefreshEntry (k : Part) (s : State) : Host.Outcome State Fault Refusal :=
  if s.fld (PWR_PSTATE_STATE k) = 3 ∧ s.wcbUsed k = false then .next (s.setFlag (STK_STS_SELF_REFRESH k) true) else .next s

/-- SELF_REFRESH_EXIT; the stack of an OFF partition is held (R353). -/
def execSelfRefreshExit (k : Part) (s : State) : Host.Outcome State Fault Refusal :=
  if s.role k = 0 then .next s else .next (s.setFlag (STK_STS_SELF_REFRESH k) false)

/-! ### Writes to the CLU, L2, ADIT and ASY sub-blocks that are rows of their own (R192, R204, R216, R220 to R225, R340, R347)

Each finds its partition in A0, or wakes it and is performed after the exit (R352). -/

/-- CLEAN by slot `c`. -/
def execClean (p : Part) (c : Clu) (s : State) : Host.Outcome State Fault Refusal := .next ((s.wakeNow p).maintStart p c 0)

/-- CLEAN_INV by slot `c`. -/
def execCleanInv (p : Part) (c : Clu) (s : State) : Host.Outcome State Fault Refusal := .next ((s.wakeNow p).maintStart p c 1)

/-- INV by slot `c`. -/
def execInv (p : Part) (c : Clu) (s : State) : Host.Outcome State Fault Refusal := .next ((s.wakeNow p).maintStart p c 2)

/-- FLUSH_ALL. -/
def execFlushAll (p : Part) (s : State) : Host.Outcome State Fault Refusal := .next ((s.wakeNow p).fullStart p true)

/-- INV_ALL. -/
def execInvAll (p : Part) (s : State) : Host.Outcome State Fault Refusal := .next ((s.wakeNow p).fullStart p false)

/-- L1D_INV_ALL. -/
def execL1dInvAll (h : Hart) (s : State) : Host.Outcome State Fault Refusal := .next ((s.wakeNow h.part).l1dInvAll h.part h.clu)

/-- L1D_ENABLE_WRITE. -/
def execL1dEnableWrite (h : Hart) (v : Bool) (s : State) : Host.Outcome State Fault Refusal :=
  .next ((s.wakeNow h.part).l1dEnable h.part h.clu v)

/-- L2_ENABLE_WRITE. -/
def execL2EnableWrite (p : Part) (v : Bool) (s : State) : Host.Outcome State Fault Refusal := .next ((s.wakeNow p).l2Enable p v)

/-- L2_WAYOFF_WRITE. -/
def execL2WayoffWrite (p : Part) (mask : BitVec 16) (s : State) : Host.Outcome State Fault Refusal :=
  .next ((s.wakeNow p).wayoffWrite p mask.toNat)

/-- ADIT_ENQ: bits [5:0] of the address are reserved. -/
def execAditEnq (p : Part) (va : BitVec 56) (s : State) : Host.Outcome State Fault Refusal :=
  .next ((s.wakeNow p).aditEnqueue p (va.toNat / 64 * 64))

/-- ADIT_ABORT. -/
def execAditAbort (p : Part) (s : State) : Host.Outcome State Fault Refusal := .next ((s.wakeNow p).aditAbort p)

/-- ASY_ENQ: bits [5:0] of the address are reserved. -/
def execAsyEnq (p : Part) (va : BitVec 56) (s : State) : Host.Outcome State Fault Refusal :=
  .next ((s.wakeNow p).asyEnqueue p (va.toNat / 64 * 64))

/-- ASY_ABORT. -/
def execAsyAbort (p : Part) (s : State) : Host.Outcome State Fault Refusal := .next ((s.wakeNow p).asyAbort p)

/-! ### Device states (R358) -/

/-- Whether no sequence is in flight. -/
def State.noSequence (s : State) : Bool := s.slots.all (fun e => decide (e.2.phase = .free))

/-- D3HOT_ENTRY: function `fn` moves to D3hot; the physical function's move closes the port at the next class table. -/
def execD3hotEntry (fn : Fin 9) (s : State) : Host.Outcome State Fault Refusal :=
  let d := if s.pwr.d3.contains fn.val then s.pwr.d3 else s.pwr.d3 ++ [fn.val]
  .next { s with pwr := { s.pwr with d3 := d, portHold := s.pwr.portHold || fn.val == 0 } }

/-- A partition enters A3; an entry in progress ends (R358). -/
def State.quiescePart (s : State) (p : Nat) : State :=
  let t := (s.endEntry p).setFlag (PWR_PSTATE_WAKING p) false
  if t.fld (PWR_PSTATE_STATE p) = 3 then t else t.enterState p 3

/-- A stack enters self-refresh, with its WCBs drained first (R353, R358). -/
def State.quiesceStack (s : State) (k : Nat) : State :=
  (s.drainWait (.flush k) .fence (partGroups k)).setFlag (STK_STS_SELF_REFRESH k) true

/-- D3HOT_QUIESCE: with no sequence in flight and every partition idle, every partition enters A3, and then every stack self-refresh, so
that no writeback of a partition meets a stack that is in it (R351, R353, R358). (DEDUCED: assumption 94.) -/
def execD3hotQuiesce (s : State) : Host.Outcome State Fault Refusal :=
  if s.pwr.d3.contains 0 && s.noSequence && (List.range 8).all (fun p => s.idle p) then
    .next ((List.range 8).foldl State.quiesceStack ((List.range 8).foldl State.quiescePart (s.setFld PWR_STS_DSTATE 3)))
  else .next s

/-- Sends the messages a function pended in D3hot that are not masked (R358). -/
def State.sendPended (s : State) (fn : Nat) : List Nat → State
  | [] => s
  | v :: t =>
    let m := s.msixOf fn
    if m.masked v then s.sendPended fn t
    else ((s.setMsix fn { m with pend := m.pend.erase v }).send (m.msg fn v)).sendPended fn t

/-- D0_ENTRY: function `fn` returns to D0; the partitions then return to the states R357 selects. -/
def execD0Entry (fn : Fin 9) (s : State) : Host.Outcome State Fault Refusal :=
  let s1 := { s with pwr := { s.pwr with d3 := s.pwr.d3.erase fn.val } }
  let s2 := s1.sendPended fn.val (s1.msixOf fn.val).pend
  if fn.val = 0 then
    .next ((List.range 8).foldl (fun t p => if t.target p < t.fld (PWR_PSTATE_STATE p) then t.wakeEvent p else t)
      (s2.setFld PWR_STS_DSTATE 0))
  else .next s2

/-- The port's hold of D3hot ends at a boundary at which every stage partition is in A0. -/
def State.portTurn (s : State) : State :=
  if s.pwr.portHold && !s.pwr.d3.contains 0 && (List.range 8).all (fun p => !s.isStage p || s.awake p) then
    { s with pwr := { s.pwr with portHold := false } }
  else s

/-! ### The thermal ladder (R247, R359, R360) -/

/-- The threshold of a level (Table 18-4). -/
def thermAt : Nat → Nat
  | 0 => 0
  | 1 => 95
  | 2 => 100
  | 3 => 105
  | _ => 120

/-- The level a temperature reaches. -/
def thermLevel (t : Nat) : Nat := if 120 ≤ t then 4 else if 105 ≤ t then 3 else if 100 ≤ t then 2 else if 95 ≤ t then 1 else 0

/-- The level after a sample (R359). -/
def nextLevel (cur t : Nat) : Nat := if cur < thermLevel t then thermLevel t else if 0 < cur ∧ t + 5 ≤ thermAt cur then cur - 1 else cur

/-- ALERT_LEVEL as it acts (Table 18-5). -/
def State.alertLevel (s : State) : Nat := max 1 (min 3 (s.fld PWR_CTL_ALERT_LEVEL))

/-- The highest level of the eight pairs. -/
def State.devLevel (s : State) : Nat := (List.range 8).foldl (fun m p => max m (s.fld (PWR_THERM_LEVEL p))) 0

/-- The device level follows, and a rise may set LEVEL_UP and send a message (R360). -/
def State.devTherm (s : State) (p t : Nat) : State :=
  let old := s.fld PWR_STS_DEV_LEVEL
  let new := s.devLevel
  let s1 := s.setFld PWR_STS_DEV_LEVEL new
  if old < new then
    let s2 := if s.alertLevel ≤ new then (s1.setFlag PWR_STS_LEVEL_UP true).logD ev_LEVEL_UP blkPwr 0 [p, new, t] else s1
    if s2.flag PWR_CTL_IRQ_EN then s2.raise 4 else s2
  else s1

/-- A level change acts on the step. A rise is an emergency: a step faster than the effective one ends at once, as does a change to such
a step, or a setpoint commanded for it, and the slower setpoint is commanded (R66, R355, Table 21-13). A fall commands the faster
setpoint, for a change from a boundary on (R417). (DEDUCED: assumption 94.) -/
def State.stepTherm (s : State) (p : Nat) (rise : Bool) : State :=
  let eff := s.effStep p (s.act (PWR_PSTATE_STEP_REQ p))
  let cur := s.fld (CLK_PCLK_STS_STEP p)
  let s1 := s.setFld (PWR_PSTATE_EFF_STEP p) eff
  if rise then
    if cur < eff ∨ s.fld (CLK_PCLK_STS_TARGET p) < eff then
      (((s1.setFld (CLK_PCLK_STS_STEP p) (max cur eff)).setFld (CLK_PCLK_STS_TARGET p) eff).setFlag
        (CLK_PCLK_STS_TRANSITION p) false).avsCommand p eff
    else s1
  else if eff < cur ∧ s.flag (CLK_PCLK_STS_TRANSITION p) = false then s1.stepFaster p eff
  else s1

/-- The readings of pair `k`'s die sensors. -/
def State.dieTemps (s : State) (k : Nat) : List Nat := (List.range 4).map (fun i => (Tbl.get (fun _ => 0) s.pwr.die (4 * k + i)).toNat)

/-- The temperatures, level and step of pair `k` follow its readings (R247, R359). -/
def State.thermEval (s : State) (k : Nat) : State :=
  let ts := (s.stackTemps k).foldl max 0
  let tp := (s.dieTemps k).foldl max 0
  let tj := max ts tp
  let cur := s.fld (PWR_THERM_LEVEL k)
  let lvl := nextLevel cur tj
  let s1 := ((s.setFld (PWR_THERM_TS k) ts).setFld (PWR_THERM_TP k) tp).setFld (PWR_THERM_TJ k) tj
  let s2 := (s1.setFld (PWR_THERM_LEVEL k) lvl).setFld (PWR_THERM_PEAK_LEVEL k) (max (s.fld (PWR_THERM_PEAK_LEVEL k)) lvl)
  let s3 := (s2.setFld (STK_TEMP_PEAK_PEAK k) (max (s.fld (STK_TEMP_PEAK_PEAK k)) ts)).devTherm k tj
  if lvl = cur then s3 else s3.stepTherm k (decide (cur < lvl))

/-- Takes the reading of sensor `i` of pair `k`: 0 to 3 of the stack, 4 to 7 of the die. -/
def State.takeReading (s : State) (k i v : Nat) : State :=
  if i < 4 then s.setFld (STK_TEMP_G k) (putBits (s.fld (STK_TEMP_G k)) (8 * i) 8 v)
  else { s with pwr := { s.pwr with die := Tbl.set (fun _ => 0) s.pwr.die (4 * k + (i - 4)) (BitVec.ofNat 8 v) } }

/-- Takes the valid readings of a sample; an invalid one leaves the last.
(DEDUCED: assumption 94.) -/
def State.takeReadings (s : State) (k : Nat) : Nat → List (Option Byte) → State
  | _, [] => s
  | i, r :: t => (match r with | some v => s.takeReading k i v.toNat | none => s).takeReadings k (i + 1) t

/-- SENSOR_SAMPLE of pair `k`, with the hotter Tsumbe reading. -/
def execSensorSample (k : Part) (a : SampleArgs) (s : State) : Host.Outcome State Fault Refusal :=
  let s1 := (s.takeReadings k 0 a.readings).noteHot k
  .next (if s.tripped then s else (s1.setFld PWR_STS_TS_TEMP ((a.ts.map BitVec.toNat).foldl max 0)).thermEval k)

/-- SENSOR_FAIL: sensor `i` of pair `k` counts as reading 100 °C; flagged and logged (R247). -/
def execSensorFail (k : Part) (i : Fin 8) (s : State) : Host.Outcome State Fault Refusal :=
  let s1 := ((s.takeReading k i 100).noteHot k).setFlag (STK_TEMP_PEAK_SENSOR_FAIL k) true
  .next (if s.tripped then s else (s1.logD ev_SENSOR_FAIL blkPwr 0 [k, s.fld (PWR_THERM_LEVEL k), 100]).thermEval k)

/-! ### The CXL link (R250) -/

/-- CXL_UP: the link trains at a width and speed and serves requests again. -/
def execCxlUp (lanes : BitVec 5) (speed : BitVec 2) (s : State) : Host.Outcome State Fault Refusal :=
  .next (((s.setFld FAR_STS_UPS (putBits (s.fld FAR_STS_UPS) 2 1 1)).setFld FAR_STS_CXL_LANES lanes.toNat).setFld
    FAR_STS_CXL_SPEED speed.toNat)

/-! ### PCTL_CMD at a boundary (R437) -/

/-- Every cluster of a partition after a change of each. -/
def State.mapClus (s : State) (p : Nat) (f : Cluster → Cluster) : State :=
  (List.range 20).foldl (fun t c => t.setClu p c (f (t.clu p c))) s

/-- HALT: every cluster halts. (DEDUCED: assumption 115.) -/
def State.haltPart (s : State) (p : Nat) : State := s.mapClus p (fun k => { k with halted := true, stepping := false })

/-- RESET: every cluster is held in cluster reset. (DEDUCED: assumption 115.) -/
def State.resetPart (s : State) (p : Nat) : State :=
  (s.mapClus p (fun k => { k.cleared with inReset := true })).setFlag (PCTL_STS_RUNNING p) false

/-- Whether a partition's clusters are held in cluster reset by RESET. -/
def State.partInReset (s : State) (p : Nat) : Bool := (List.range 20).any (fun c => (s.clu p c).inReset)

/-- RUN: clusters held by RESET start at PCTL_PROG.ENTRY and TAKEN frames return to READY; clusters that HALT held go on.
(DEDUCED: assumption 115.) -/
def State.runPart (s : State) (p was : Nat) : State :=
  if s.partInReset p then
    let s1 := (s.mapClus p (fun k => { k with inReset := false })).untakeAll p
    if s1.runsClusters p then (s1.cluStartAll p).setFlag (PCTL_STS_RUNNING p) true else s1
  else if was = 2 then s.mapClus p (fun k => { k with halted := false })
  else s

/-- The condition PCTL_CMD holds from this boundary; `was` is the code active in the beat that ended. -/
def State.cmdTurn (s : State) (p was : Nat) : State :=
  if s.flag (PCTL_STS_FAILED p) then s
  else match s.act (PCTL_CMD_CMD p) with
  | 0 => s.runPart p was
  | 1 => (if was = 2 then s.mapClus p (fun k => { k with halted := false }) else s).drainTurn p (decide (was ≠ 1))
  | 2 => s.haltPart p
  | _ => s.resetPart p

/-! ### A partition's own part of a boundary -/

/-- PCTL_LOSS_SEEN takes the controls active from this boundary (R322). -/
def State.lossTurn (s : State) (p : Nat) : State :=
  let w := (Tbl.get resetWord s.active (partBase p + 0x4C)).toNat % 16
  let s1 := s.setFld (PCTL_LOSS_SEEN_APX p) (s.fld (PCTL_LOSS_SEEN_APX p) ||| w)
  let s2 := if s1.act (PCTL_NUM_FTZ_IN p) = 1 then s1.setFlag (PCTL_LOSS_SEEN_FTZ_IN p) true else s1
  let s3 := if s2.act (PCTL_NUM_FTZ_OUT p) = 1 then s2.setFlag (PCTL_LOSS_SEEN_FTZ_OUT p) true else s2
  if s3.act (PCTL_NUM_SATFP8 p) = 1 then s3.setFlag (PCTL_LOSS_SEEN_SATFP8 p) true else s3

/-- A takeover's step, and the start of the spare's clusters when it takes the stage (R107). -/
def State.takeTurn (s : State) (p : Nat) : State :=
  let f := s.foOf p
  let s1 := s.foTurn p
  if f.phase = .copied then s1.cluStartAll f.spare else s1

/-- A partition's own part of a boundary: acknowledged frames are freed, PCTL_CMD's condition, RELEASE frames, the end of WFB, its DVFS
step and power state. (DEDUCED: assumption 62.) -/
def State.partTurn (s : State) (p was : Nat) : State :=
  (((((s.freeAcked p).cmdTurn p was).releaseTurn p).lossTurn p).mapClus p (fun k => { k with wfb := false })).stepTurn p |>.powerTurn p

end Sys2Proof.Machine
end

