-- ==== Sys2Proof/Machine/Pins.lean ====
section
/-!
DEFINITION. Machine/Pins.lean: GPIO pins and their functions, pin switches, the strap and the I3C address (chapter 21).
-/
namespace Sys2Proof.Machine

/-- BLOCK code of PIN (Table 0-8). -/
def blkPin : Nat := 7

/-- Replaces the pin state. -/
def State.withPins (s : State) (x : PinSt) : State := { s with pins := x }

/-- The function a FUNC code selects on pin `n`: 1 where Table 21-8 gives one and the code is 0b001, else GPIO (R424). -/
def pinFunc (n code : Nat) : Nat :=
  if code = 1 ∧ n ≠ 2 ∧ n < 12 then 1 else 0

/-- Whether pin `n` is in GPIO function and not in a switch. -/
def State.isGpio (s : State) (n : Nat) : Bool :=
  pinFunc n (s.fld (PIN_MUX_FUNC n)) == 0 && !s.pins.switching.contains n

/-- Whether pin `n` is in its other function and not in a switch. -/
def State.isAlt (s : State) (n : Nat) : Bool :=
  pinFunc n (s.fld (PIN_MUX_FUNC n)) == 1 && !s.pins.switching.contains n

/-- The level at pad `n`: the pin's own output while it drives in GPIO function, else the board's level.
(DEDUCED: assumption 104.) -/
def State.padLevel (s : State) (n : Nat) : Bool :=
  if s.isGpio n && s.fbit PIN_GPIO_OE_OE n then s.fbit PIN_GPIO_OUT_OUT n else s.pins.level.getLsbD n

/-- What the GPIO synchroniser of pin `n` sees: the pad in GPIO function, else the inactive level 0 (R424, R425). -/
def State.gpioSees (s : State) (n : Nat) : Bool := s.isGpio n && s.padLevel n

/-- The synchroniser of pin `n` follows its input; a change sets its PIN_GPIO_EDGE bit (R426).
(DEDUCED: assumption 104.) -/
def State.gpioFollow (s : State) (n : Nat) : State :=
  let v := s.gpioSees n
  if v == s.pins.seen.getLsbD n then s
  else
    let b := BitVec.ofNat 16 (putBits s.pins.seen.toNat n 1 (if v then 1 else 0))
    (s.withPins { s.pins with seen := b }).setFbit (if v then PIN_GPIO_EDGE_RISE else PIN_GPIO_EDGE_FALL) n true

/-- Every synchroniser follows. -/
def State.gpioAll (s : State) : State := (List.range 16).foldl State.gpioFollow s

/-- PIN_GPIO_IN (R426). -/
def State.gpioIn (s : State) : Nat := (List.range 16).foldl (fun m n => if s.gpioSees n then m + 2 ^ n else m) 0

/-- A write of PIN_MUX_n.FUNC has been performed, which read `old` before: a change switches the pin (R425).
(DEDUCED: assumption 104.) -/
def State.muxChanged (s : State) (n old : Nat) : State :=
  if s.fld (PIN_MUX_FUNC n) = old then s
  else
    let sw := if s.pins.switching.contains n then s.pins.switching else s.pins.switching ++ [n]
    (s.withPins { s.pins with switching := sw }).gpioFollow n

/-- FUNC of pin `n` is written: SEALED for pins 0 to 5 (R424). -/
def State.muxWrite (s : State) (n v : Nat) : State :=
  let old := s.fld (PIN_MUX_FUNC n)
  if n < 6 ∧ s.flag HDF_SEAL_SEALED = true then
    (if v % 8 = old then s
     else (s.countSat HDF_SEAL_VIOL_CNT).log ev_SEAL_VIOLATION blkPin (PIN_MUX_FUNC n).addr v)
  else (s.setFld (PIN_MUX_FUNC n) v).muxChanged n old

/-- PIN_FUNCTION_SWITCH. Pins of a device held in reset stay as during PERST_N (R361). -/
def execPinFunctionSwitch (n : Fin 16) (func : BitVec 3) (s : State) : Host.Outcome State Fault Refusal :=
  .next (if s.inReset then s else s.muxWrite n func.toNat)

/-- PIN_SWITCH_END: the new function first samples and drives (R425). -/
def execPinSwitchEnd (n : Fin 16) (s : State) : Host.Outcome State Fault Refusal :=
  .next (if s.inReset then s else (s.withPins { s.pins with switching := s.pins.switching.erase n.val }).gpioFollow n)

/-- GPIO_EDGE: the board's level at pin `n` changes (R426). -/
def execGpioEdge (n : Fin 16) (v : Bool) (s : State) : Host.Outcome State Fault Refusal :=
  let l := BitVec.ofNat 16 (putBits s.pins.level.toNat n 1 (if v then 1 else 0))
  let s1 := s.withPins { s.pins with level := l }
  .next (if s.inReset then s1 else s1.gpioFollow n)

/-- The level an output function drives on its pin (Table 21-8): LOR_OUT, SYNC_OUT2 and the thermal level; the other outputs are
not level functions of the state. -/
def State.altDrive (s : State) (n : Nat) : Option Bool :=
  if !s.isAlt n then none
  else if n = 3 then some (s.flag CLK_REF_STS_HOLDOVER)
  else if n = 4 then some s.syncOut
  else if n = 6 then some ((min (s.fld PWR_STS_DEV_LEVEL) 3).testBit 0)
  else if n = 7 then some ((min (s.fld PWR_STS_DEV_LEVEL) 3).testBit 1)
  else none

/-! ### The I3C target (R422) -/

/-- The static address. -/
def State.i3cStatic (s : State) : BitVec 7 := 0x48#7 + s.pins.strap.zeroExtend 7

/-- SETDASA to the static address gives the target a dynamic one. A device held in reset answers nothing (R361, R367). -/
def execSetdasa (st dyn : BitVec 7) (s : State) : Host.Outcome State Fault Refusal :=
  .next (if st = s.i3cStatic ∧ s.inReset = false then s.withPins { s.pins with i3cDyn := some dyn } else s)

/-- ENTDAA gives a target without a dynamic address one. -/
def execEntdaa (dyn : BitVec 7) (s : State) : Host.Outcome State Fault Refusal :=
  .next (if s.pins.i3cDyn.isNone && !s.inReset then s.withPins { s.pins with i3cDyn := some dyn } else s)

end Sys2Proof.Machine
end

