-- ==== Sys2Proof/Machine/HostIf.lean ====
section
/-!
DEFINITION. Machine/HostIf.lean: host memory windows, DMA engines, the MSI-X tables, configuration requests and the event log's
commands (chapter 20).
-/
namespace Sys2Proof.Machine

/-- BLOCK code of EVT (Table 0-8). -/
def blkEvt : Nat := 6


/-! ### Access conduct (R394, Table 20-3) -/

/-- The rows of Table 20-3 but the one for reserved offsets. -/
inductive AccKind where
  | wide | misaligned | split | narrow | word | dword
deriving DecidableEq, Repr

/-- The row an access of `n` bytes at `off` falls under. -/
def accKind (off n : Nat) : AccKind :=
  if 8 < n then .wide
  else if 8 < off % 8 + n then .misaligned
  else if n = 8 then .dword
  else if 4 < off % 4 + n then .split
  else if n = 4 then .word
  else .narrow

/-! ### Host writes to memory, with the COMMIT words they cover (R43, R391) -/

/-- The slots of INGRESS ranges whose COMMIT bytes a write of `n` bytes at local address `a` touches.
(DEDUCED: assumption 101.) -/
def State.commitSlots (s : State) (a n : Nat) : List Nat :=
  ((List.range 8).filter (fun p => s.fld (PCTL_ROLE_ROLE p) == 1)).flatMap (fun p =>
    (s.slotRange p).filter (fun k =>
      let c := localPa (s.ringAddr k + 0x14)
      decide (a < c + 4) && decide (c < a + n)))

/-- A host write at local address `a`: a COMMIT of each slot whose COMMIT bytes it touches (R43).
(DEDUCED: assumption 101.) -/
def State.hostWrite (s : State) (q : Req) (a : Nat) (d : List Byte) : MemRes × State :=
  let r := s.localWrite q true a d
  (r.1, (s.commitSlots a d.length).foldl (fun t k =>
    let c := localPa (t.ringAddr k + 0x14)
    let all := decide (a ≤ c) && decide (c + 4 ≤ a + d.length) && s.claimed q c false true && !s.roleOffAt c
    t.commitSeen k all (BitVec.ofNat 32 (natLE ((d.drop (c - a)).take 4)))) r.2)

/-! ### BAR2 (R380, R391) -/

/-- The partition bound to virtual function `v`, the lowest if several name it (R391, R105). -/
def State.vfPart (s : State) (v : Nat) : Option Nat :=
  (List.range 8).find? (fun p => s.flag (PCTL_TENANT_BIND_EN p) && s.fld (PCTL_TENANT_VF p) == v)

/-- The local address and request of a BAR2 access of function `fn`; none is Unsupported Request, as for a function in D3hot (R358).
(DEDUCED: assumption 103.) -/
def State.bar2Map (s : State) (fn off n : Nat) : Option (Nat × Req) :=
  if s.inReset || !s.flag HDF_SEAL_SEALED || s.pwr.d3.contains fn then none
  else if fn = 0 then
    (if off + n ≤ 2 ^ s.early.bar2Log2 then some (off, ⟨s.fld MMU_HOST_CID_CID, 4, 0, s.chip, sourceStop 4 0⟩) else none)
  else if s.early.numVfs < fn ∨ s.early.vfBar2Log2 = 0 ∨ 2 ^ s.early.vfBar2Log2 < off + n then none
  else match s.vfPart (fn - 1) with
    | none => none
    | some p =>
      if 24 * 2 ^ 30 < off + n then none
      else some (p * 0x000800000000 + off, ⟨s.fld (PCTL_TENANT_CID p), 4, p, s.chip, sourceStop 4 0⟩)

/-- BAR2_REQUEST: reads and failed writes are answered with a completion; a write that succeeds is posted.
(DEDUCED: assumption 101.) (DEDUCED: assumption 117.) -/
def execBar2Request (fn : Fin 9) (off : BitVec 40) (op : MemOp) (s : State) : Host.Outcome State Fault Refusal :=
  if s.inReset || s.ucieLost then .next s
  else match op with
  | .read n => match s.bar2Map fn off.toNat n with
    | none => .next (s.send (.completion .unsupported))
    | some (a, q) => .next (sendRes (s.localRead q false a n))
  | .write d => match s.bar2Map fn off.toNat d.length with
    | none => .next (s.send (.completion .unsupported))
    | some (a, q) =>
      let r := s.hostWrite q a d
      match r.1 with
      | .denied _ => .next (r.2.send (.completion .abort))
      | _ => .next r.2

/-! ### DMA engines (R399, R400) -/

/-- Where engine `d` stands when it runs nothing. -/
def dmaIdle : DmaSt := ⟨false, none⟩

/-- Engine `d`. -/
def State.dmaOf (s : State) (d : Nat) : DmaSt := Tbl.get (fun _ => dmaIdle) s.dma d

/-- Replaces it. -/
def State.setDma (s : State) (d : Nat) (x : DmaSt) : State := { s with dma := Tbl.set (fun _ => dmaIdle) s.dma d x }

/-- The stop of DMA engine `d` (Table 14-2). -/
def dmaStop (d : Nat) : Nat := stopOf (6 + d / 4) (44 + d % 4)

/-- The request of a transfer of DMA engine `d`: MMU_HOST_CID, or SYSTEM for Headframe (R399). -/
def State.dmaReq (s : State) (d : Nat) (bySystem : Bool) : Req :=
  if bySystem then { s.sysReq 7 0 with stop := dmaStop d } else ⟨s.fld MMU_HOST_CID_CID, 4, 0, s.chip, dmaStop d⟩

/-- A transfer: what it moves and between which sides. -/
structure DmaJob where
  src : Nat
  dst : Nat
  srcHost : Bool
  dstHost : Bool
  req : Req
deriving DecidableEq, Repr

/-- The STS.CODE of a failed memory request (Table 20-8). -/
def MemRes.dmaCode : MemRes → Nat
  | .ok _ => 0
  | .denied _ => 1
  | .ue _ => 2

/-- Reads `n` bytes at the source: a failure code, or the bytes. -/
def State.dmaRead (s : State) (j : DmaJob) (a n : Nat) : Nat × List Byte × State :=
  if j.srcHost then (if s.hostFails a n then (4, [], s) else (0, Mem.read s.hostMem a n, s))
  else
    let r := s.physRead j.req false a n
    match r.1 with
    | .ok d => (0, d, r.2)
    | x => (x.dmaCode, [], r.2)

/-- Writes bytes at the destination: a failure code. -/
def State.dmaWrite (s : State) (j : DmaJob) (a : Nat) (d : List Byte) : Nat × State :=
  if d = [] then (0, s)
  else if j.dstHost then (if s.hostFails a d.length then (4, s) else (0, { s with hostMem := Mem.write s.hostMem a d }))
  else
    let r := if s.isLocal a then s.hostWrite j.req (localPa a) d else s.physWrite j.req a d
    (r.1.dmaCode, r.2)

/-- Moves `n` granules from offset `o` on, keeping back the last `keep` bytes of the last one: the first failure in address order, and the
bytes read (R400). -/
def State.dmaMove (s : State) (j : DmaJob) (keep : Nat) : Nat → Nat → List Byte → Nat × List Byte × State
  | 0, _, acc => (0, acc, s)
  | n + 1, o, acc =>
    let r := s.dmaRead j (j.src + o) 64
    if r.1 ≠ 0 then (r.1, acc, r.2.2)
    else
      let w := r.2.2.dmaWrite j (j.dst + o) (if n = 0 then r.2.1.take (64 - keep) else r.2.1)
      if w.1 ≠ 0 then (w.1, acc, w.2) else w.2.dmaMove j keep n (o + 64) (acc ++ r.2.1)

/-- Runs a transfer of `len` bytes at engine `d` with its Check Unit contexts (R315, R316): its CODE, and the bytes moved.
(DESIGN CHOICE: assumption 100.) -/
def State.dmaRun (s : State) (d : Nat) (j : DmaJob) (len : Nat) : Nat × List Byte × State :=
  if len = 0 ∨ len % 64 ≠ 0 ∨ j.src % 64 ≠ 0 ∨ j.dst % 64 ≠ 0 then (5, [], s)
  else
    let inC := s.chkPick (s.dmaCtxs 1 d)
    let outC := inC.2.chkPick (inC.2.dmaCtxs 0 d)
    let keep := match inC.1 with | some n => crcBytes (s.ctxPoly n) | none => 0
    let m := outC.2.dmaMove j keep (len / 64) 0 []
    if m.1 ≠ 0 then (m.1, m.2.1, m.2.2)
    else
      let body := m.2.1.take (len - keep)
      let c := match inC.1 with
        | some n => m.2.2.chkCompare n body (natLE (m.2.1.drop (len - keep)))
        | none => (true, m.2.2)
      let w := match outC.1 with
        | some n =>
          let v := c.2.chkRun n body
          v.2.dmaWrite j (j.dst + body.length) (bytesLE (crcBytes (v.2.ctxPoly n)) v.1)
        | none => (0, c.2)
      (if w.1 ≠ 0 then w.1 else if c.1 then 0 else 3, body, w.2)

/-- A write of CTL with GO = 1 while the engine is idle starts it (R399). -/
def State.dmaGo (s : State) (m : RegMaster) (d : Nat) : State :=
  (s.setDma d ⟨decide (m = .headframe), none⟩).setFlag (DMA_STS_BUSY d) true

/-- Engine `d` stops with CODE `code`: DONE, ERR and the event of a failure (R400). -/
def State.dmaEnd (s : State) (d code : Nat) : State :=
  let s1 := ((s.setDma d dmaIdle).setFlag (DMA_STS_BUSY d) false).setFlag (DMA_STS_DONE d) true
  let s2 := (s1.setFlag (DMA_STS_ERR d) (decide (code ≠ 0))).setFld (DMA_STS_CODE d) code
  if code ≠ 0 then s2.logD ev_DMA_FAIL blkEvt 0 [d, code] else s2

/-- The transfer that the registers of engine `d` name runs and ends, with its message (R400). -/
def State.dmaFinish (s : State) (d : Nat) : State :=
  let j : DmaJob := ⟨s.dword (DMA_SRC_ADDR d).addr, s.dword (DMA_DST_ADDR d).addr, s.flag (DMA_CTL_SRC_HOST d),
    s.flag (DMA_CTL_DST_HOST d), s.dmaReq d (s.dmaOf d).bySystem⟩
  let r := s.dmaRun d j (s.fld (DMA_LEN_LEN d))
  let t := r.2.2.dmaEnd d r.1
  if t.flag (DMA_CTL_IRQ d) then t.raise (26 + d) else t

/-! ### MSI-X tables (R401) -/

/-- Vectors of a function (R401, R402). -/
def State.msixCount (s : State) (fn : Nat) : Nat := if fn = 0 then s.early.msixPf else s.early.msixVf

/-- Where the Pending Bit Array of a function's BAR4 begins (Table 20-2). -/
def pbaBase (fn : Nat) : Nat := if fn = 0 then 0x2000 else 0x800

/-- Whether offset `o` of a function's BAR4 is reserved. -/
def State.bar4Reserved (s : State) (fn o : Nat) : Bool :=
  let n := s.msixCount fn
  !(decide (o < 16 * n) || (decide (pbaBase fn ≤ o) && decide (o < pbaBase fn + (n + 63) / 64 * 8)))

/-- The 32-bit word at offset `o` of a function's BAR4. -/
def State.bar4Word (s : State) (fn o : Nat) : Nat :=
  let m := s.msixOf fn
  if s.bar4Reserved fn o then 0
  else if o < pbaBase fn then (Tbl.get msixWordReset m.table (o / 4)).toNat
  else (List.range 32).foldl (fun w i => if m.pend.contains (8 * (o / 4 * 4 - pbaBase fn) + i) then w + 2 ^ i else w) 0

/-- Sends vector `v` once if it is pending and neither masked nor held by D3hot. -/
def State.msixRetry (s : State) (fn v : Nat) : State :=
  let m := s.msixOf fn
  if m.pend.contains v && m.enabled && !m.masked v && !s.pwr.d3.contains fn && !s.ucieLost then
    (s.setMsix fn { m with pend := m.pend.erase v }).send (m.msg fn v)
  else s

/-- Writes the 32-bit word at offset `o` of a function's BAR4; the Pending Bit Array is read-only. -/
def State.bar4Write (s : State) (fn o v : Nat) : State :=
  if s.bar4Reserved fn o || decide (pbaBase fn ≤ o) then s
  else
    let k := o / 4
    let m := s.msixOf fn
    let w := BitVec.ofNat 32 (if k % 4 = 3 then v % 2 else v)
    (s.setMsix fn { m with table := Tbl.set msixWordReset m.table k w }).msixRetry fn (k / 4)

/-- MSIX_UNMASK: the mask bit of vector `vec` clears. -/
def execMsixUnmask (fn : Fin 9) (vec : Fin 256) (s : State) : Host.Outcome State Fault Refusal :=
  .next (s.bar4Write fn (16 * vec + 12) 0)

/-! ### Configuration requests (R379, R390) -/

/-- DEVICE_ID of the product (Table 0-4). -/
def State.deviceId (s : State) : Nat :=
  (if s.product.assembly then 0x0A26 else 0x0A16) + (if s.product.narrow then 1 else 0)

/-- CONFIGURATION_REQUEST: Retry Status before EARLY is applied, then the function's answer; a function that does not exist is
unsupported. Contents that PCI Express defines and this specification does not are open.
(DESIGN CHOICE: assumption 102.) -/
def execConfigurationRequest (fn : Fin 9) (k : CfgOp) (s : State) : Host.Outcome State Fault Refusal :=
  if s.inReset then .next s
  else if !s.early.applied then .next (s.send (.completion .retry))
  else if s.early.numVfs < fn.val then .next (s.send (.completion .unsupported))
  else match k with
    | .device => .next (s.send (.completion (.ok (bytesLE 2 (s.deviceId ||| (if fn.val = 0 then 0 else 0x80))))))
    | .subsystem => .next (s.send (.completion (.ok (bytesLE 2 s.early.subsysVendor.toNat ++ bytesLE 2 s.early.subsysId.toNat))))
    | .msixControl en mk =>
      let s1 := s.setMsix fn { s.msixOf fn with enabled := en, fmask := mk }
      .next (((s1.msixOf fn).pend.foldl (fun t v => t.msixRetry fn v) s1).send (.completion (.ok [])))
    | .other =>
      let r := s.freshBits
      .next (r.2.send (.completion (.ok (bytesLE 4 r.1.toNat))))

/-! ### The event log (R404 to R406) -/

/-- EVENT_LOG_WRITE: an event of the given content is logged now. -/
def execEventLogWrite (e : EvArgs) (s : State) : Host.Outcome State Fault Refusal :=
  .next (if s.tripped then s else s.logEvent ⟨e.code.toNat, e.block.toNat, e.sev.toNat, s.beat.ts, e.info0, e.info1⟩)

/-- A write of EVT_LOG_ACK (R404, R406). -/
def State.ackWrite (s : State) (v : Nat) : State :=
  if (s.fld EVT_LOG_HEAD_SEQ + 2 ^ 32 - v) % 2 ^ 32 ≤ 4096 then
    { s.setFld EVT_LOG_ACK_SEQ v with evt := { s.evt with armed := true } }
  else (s.setFlag EVT_STS_ACK_BAD true).log ev_ACK_REJECTED blkEvt EVT_LOG_ACK_SEQ.addr v

end Sys2Proof.Machine
end

