-- ==== Sys2Proof/Machine/Headframe.lean ====
section
/-!
DEFINITION. Machine/Headframe.lean: PERST_N and REBOOT, boot status and faults, the weight manifest, and debug unlock (chapter 19;
R361).
-/
namespace Sys2Proof.Machine

/-- BLOCK code of SEC (Table 0-8). -/
def blkSec : Nat := 14

/-- Replaces the boot state. -/
def State.withBoot (s : State) (b : BootSt) : State := { s with boot := b }

/-! ### PERST_N, REBOOT and power (R361, R367, R418, R419) -/

/-- The state during PERST_N: every block reset. What is outside the reset stays: product, fuses, what the stacks and host memory hold,
levels at the pins, and what has left the device. (DESIGN CHOICE: assumption 106.) -/
def State.perst (s : State) : State :=
  { State.reset with
    product := s.product
    pending := s.pending
    mem := { State.reset.mem with bytes := s.mem.bytes, poison := s.mem.poison, ecc := s.mem.ecc }
    hostMem := s.hostMem
    hostErr := s.hostErr
    fuses := s.fuses
    pins := { State.reset.pins with level := s.pins.level }
    pwr := { State.reset.pwr with powered := s.pwr.powered }
    out := s.out
    thermtrip := s.thermtrip
    freeCtr := s.freeCtr }

/-- HDF_IMAGE_STS.PHASE follows the boot (R365): 3 while B3 runs alongside B2. -/
def State.showPhase (s : State) : State :=
  s.setFld HDF_IMAGE_STS_PHASE (if s.boot.step = 2 ∧ s.boot.b3 = .run then 3 else s.boot.step)

/-- PERST_N is released: the straps are sampled, the Admission Port's outputs are driven, and B1 begins (R28, R365, R422). -/
def State.bootStart (s : State) : State :=
  ({ s with
    boot := { State.reset.boot with held := false, step := 1 }
    pwr := { s.pwr with powered := true }
    pins := { s.pins with strap := s.pins.level.extractLsb' 0 3, seen := s.pins.level } }).showPhase.drive false 0

/-- PERST_ASSERT (R367). -/
def execPerstAssert (s : State) : Host.Outcome State Fault Refusal := .next s.perst

/-- PERST_RELEASE: rails and reference are good (R418). A latched THERMTRIP_N holds the device (R361).
(DEDUCED: assumption 107.) -/
def execPerstRelease (s : State) : Host.Outcome State Fault Refusal :=
  .next (if s.boot.held && !s.thermtrip then s.bootStart else s)

/-- HDF_CTL.REBOOT: an assertion of PERST_N for 1 ms (R367). (DESIGN CHOICE: assumption 106.) -/
def State.reboot (s : State) : State := if s.inReset then s else s.perst.bootStart

/-- REBOOT. -/
def execReboot (s : State) : Host.Outcome State Fault Refusal := .next s.reboot

/-- THERMTRIP: clocks stop and every block is held in reset until power is removed (R361). -/
def execThermtrip (s : State) : Host.Outcome State Fault Refusal := .next { s.perst with thermtrip := true }

/-- MAIN_POWER_REMOVAL: the memories lose what they hold, THERMTRIP_N is released, and the device is in D3cold (R361).
(DESIGN CHOICE: assumption 106.) -/
def execMainPowerRemoval (s : State) : Host.Outcome State Fault Refusal :=
  let t := s.perst
  .next { t with mem := State.reset.mem, thermtrip := false, pwr := { t.pwr with powered := false } }

/-! ### Boot faults (R375, Table 19-5) -/

/-- Records a reason code for the copy being read, with the section or entry. -/
def State.bootReason (s : State) (code sect : Nat) : State :=
  let s1 := if s.boot.copy = 2 then s.setFld HDF_IMAGE_STS_REASON_B code else s.setFld HDF_IMAGE_STS_REASON_A code
  s1.setFld HDF_IMAGE_STS_SECTION sect

/-- Ends the manifest fetches that engines run. -/
def State.stopFetches (s : State) : State :=
  (List.range 8).foldl (fun t d => if (t.dmaOf d).entry.isSome then (t.setDma d dmaIdle).setFlag (DMA_STS_BUSY d) false else t) s

/-- Boot stops: PHASE 0xF, FAILED, the event, the message; ALERT_N follows `State.alertN` (R375). -/
def State.bootFail (s : State) (code sect : Nat) : State :=
  let s1 := ((s.bootReason code sect).stopFetches.setFlag HDF_IMAGE_STS_WAIT_HOST false).setFlag HDF_IMAGE_STS_FAILED true
  let s2 := (s1.withBoot { s1.boot with step := 15, b3 := .idle }).showPhase
  let s3 := s2.logD ev_BOOT_FAILED 0 0 [code, s.boot.copy, sect]
  if s3.flag HDF_CTL_IRQ_EN then s3.raise 1 else s3

/-- The blocks that keep their registers when copy B is read after a fault of copy A: HDF, CLK, EVT and SEC (assumption 31).
(DEDUCED: assumption 31.) -/
def keptBlock (a : Nat) : Bool :=
  let b := a / 0x10000
  b == 0 || b == 1 || b == 6 || b == 14

/-- Headframe reads a copy from its header on (R369). -/
def State.readCopy (s : State) (c : Nat) : State :=
  ((s.withBoot { State.reset.boot with
    held := false, step := 2, copy := c, b3 := s.boot.b3, linked := s.boot.linked, xspi := .reading }).setFld
      HDF_IMAGE_STS_COPY c).showPhase

/-- Every block resets but Headframe, the always-on domain and the PCIe endpoint with its link, and copy B is read (R375).
(DEDUCED: assumption 31.) -/
def State.fallback (s : State) : State :=
  State.readCopy
    { s.perst with
      regs := s.regs.filter (fun e => keptBlock e.1)
      active := s.active.filter (fun e => keptBlock e.1)
      masters := s.masters
      beat := { State.reset.beat with
        tick := s.beat.tick, ts := s.beat.ts, locked1st := s.beat.locked1st, goodWin := s.beat.goodWin, depth := s.beat.depth }
      pwr := { State.reset.pwr with powered := s.pwr.powered, die := s.pwr.die, d3 := s.pwr.d3 }
      evt := s.evt
      msix := s.msix
      early := s.early
      boot := s.boot
      dbg := s.dbg
      pins := { s.pins with switching := [] } } 2

/-- An image fault: logged; copy A falls back to copy B, and a fault of copy B stops boot (R375). -/
def State.imageFault (s : State) (code sect : Nat) : State :=
  let s1 := (s.bootReason code sect).stopFetches.logD ev_IMAGE_FAULT 0 0 [code, s.boot.copy, sect]
  if s.boot.copy = 1 then (s1.setFlag HDF_IMAGE_STS_WAIT_HOST false).fallback else s1.bootFail code sect

/-! ### The weight manifest (R381, R382) -/

/-- Ticks as microseconds, saturating in 32 bits. -/
def ticksUs (n : Nat) : Nat := min (n / 1200) 0xFFFFFFFF

/-- Every entry has been fetched and verified: B9 begins (R366, R382).
(DESIGN CHOICE: assumption 12.) -/
def State.manCheck (s : State) : State :=
  if s.boot.step = 8 ∧ s.boot.man.all (fun e => e.fin) then
    ((s.setFld HDF_FETCH_TIME_US (ticksUs (s.beat.tick - s.boot.t8))).withBoot { s.boot with step := 9 }).showPhase
  else s

/-- The first entry that has not started. -/
def manNext (l : List ManEnt) : Option (Nat × ManEnt) :=
  (l.zipIdx.find? (fun e => e.1.eng.isNone && !e.1.fin)).map (fun e => (e.2, e.1))

/-- Starts entries in list order on the engines that are free; a HOST entry waits for STAGE_GO.
(DEDUCED: assumption 108.) -/
def State.manStart (s : State) : List Nat → State
  | [] => s
  | d :: t =>
    if s.flag (DMA_STS_BUSY d) then s.manStart t
    else match manNext s.boot.man with
      | none => s
      | some (i, e) =>
        if e.kind = 1 ∧ s.boot.staged = false then s
        else
          let s1 := s.withBoot { s.boot with man := s.boot.man.set i { e with eng := some d } }
          ((s1.setDma d ⟨true, some i⟩).setFlag (DMA_STS_BUSY d) true).manStart t

/-- The source bytes of an entry: a memory result, where a host completion error reads as an uncorrectable error. -/
def State.manRead (s : State) (e : ManEnt) : MemRes × State :=
  match e.kind with
  | 0 => (.ok (((Tbl.get (fun _ => []) s.boot.data e.sec).drop e.src).take e.len), s)
  | 1 =>
    let a := s.fld HDF_STAGE_BASE_ADDR * 4096 + e.src
    if s.hostFails a e.len then (.ue a, s) else (.ok (Mem.read s.hostMem a e.len), s)
  | _ => s.physRead (s.sysReq 7 0) false e.src e.len

/-- The fetch of engine `d`'s entry ends: its bytes are written and hashed (R382). A PEER read that is denied waits for its retry.
(DEDUCED: assumption 108.) -/
def State.manFetch (s : State) (d : Nat) : State :=
  match (s.dmaOf d).entry with
  | none => s
  | some i =>
    match s.boot.man[i]? with
    | none => s
    | some e =>
      let r := s.manRead e
      match r.1 with
      | .denied _ => if e.kind = 3 then r.2 else (r.2.dmaEnd d 1).bootFail 0x0F i
      | .ue _ => (r.2.dmaEnd d (if e.kind = 1 then 4 else 2)).bootFail 0x0F i
      | .ok data =>
        let w := r.2.localWrite (r.2.sysReq 7 0) true e.dst data
        match w.1 with
        | .ok _ =>
          let s1 := w.2.dmaEnd d 0
          if Config.sha384 data ≠ e.hash then s1.bootFail 0x0E i
          else
            let s2 := s1.withBoot { s1.boot with man := s1.boot.man.set i { e with eng := none, fin := true } }
            (s2.manStart (List.range 8)).manCheck
        | x => (w.2.dmaEnd d x.dmaCode).bootFail 0x0F i

/-- DMA_DONE: engine `d`'s transfer, or the manifest fetch it runs, ends (R382, R400).
(DESIGN CHOICE: assumption 100.) -/
def execDmaDone (d : Fin 8) (s : State) : Host.Outcome State Fault Refusal :=
  .next (if !s.flag (DMA_STS_BUSY d) then s else if (s.dmaOf d).entry.isSome then s.manFetch d else s.dmaFinish d)

/-- PEER_READ_RETRY of the entry that engine `d` runs (R382). -/
def execPeerReadRetry (d : Fin 8) (s : State) : Host.Outcome State Fault Refusal :=
  .next (match (s.dmaOf d).entry.bind (fun i => s.boot.man[i]?) with
    | some e => if e.kind = 3 then s.manFetch d else s
    | none => s)

/-- STAGE_GO, ignored unless WAIT_HOST = 1 (R382, Table 19-9). -/
def State.stageGo (s : State) : State :=
  if s.flag HDF_IMAGE_STS_WAIT_HOST then
    ((s.setFlag HDF_IMAGE_STS_WAIT_HOST false).withBoot { s.boot with staged := true }).manStart (List.range 8)
  else s

/-- STAGE_GO. -/
def execStageGo (s : State) : Host.Outcome State Fault Refusal := .next s.stageGo

/-- HOST_WAIT_TIMEOUT: STAGE_GO or a peer read has not come within HOST_WAIT_S of B8 (R382). -/
def execHostWaitTimeout (s : State) : Host.Outcome State Fault Refusal :=
  .next (if s.boot.step = 8 ∧ (s.flag HDF_IMAGE_STS_WAIT_HOST = true ∨ s.boot.man.any (fun e => e.kind == 3 && !e.fin) = true) then
    s.bootFail 0x0F 0 else s)

/-! ### Debug unlock (R385, R386) -/

/-- Replaces the debug state. -/
def State.withDbg (s : State) (x : DbgSt) : State := { s with dbg := x }

/-- A write ignored because SEC_DBG_STS.BUSY = 1 (Table 19-11). -/
def State.dbgBusy (s : State) : State := s.logD ev_DEBUG_BUSY blkSec SEC_DBG_CMD_VERIFY.addr []

/-- Stores the challenge words in SEC_DBG_CHAL. -/
def State.putChal (s : State) (b : List Byte) : State :=
  (List.range 12).foldl (fun t i => t.setFld (SEC_DBG_CHAL_CHAL i) (natLE ((b.drop (4 * i)).take 4))) s

/-- A write of 1 to CHALLENGE: a new nonce and the serial; any earlier challenge is invalid (R385).
(DEDUCED: assumption 105.) -/
def State.challenge (s : State) : State :=
  if s.dbg.op.isSome then s.dbgBusy
  else
    let n := (List.range 4).flatMap (fun i => bytesLE 8 (Config.freeBits (s.freeCtr + i)).toNat)
    let s1 := { s with freeCtr := s.freeCtr + 4 }
    let s2 := s1.putChal (n ++ (s.fuses.serial ++ List.replicate 16 0).take 16)
    (s2.withDbg { s2.dbg with op := some .challenge, live := true }).setFlag SEC_DBG_STS_BUSY true

/-- CHALLENGE. -/
def execChallenge (s : State) : Host.Outcome State Fault Refusal := .next s.challenge

/-- Bytes of SEC_DBG_CHAL and SEC_DBG_RESP in order. -/
def State.chalBytes (s : State) : List Byte := (List.range 12).flatMap (fun i => bytesLE 4 (s.fld (SEC_DBG_CHAL_CHAL i)))

/-- The response as written. -/
def State.respBytes (s : State) : List Byte :=
  (List.range 48).flatMap (fun i => bytesLE 4 (Tbl.get (fun _ => 0) s.dbg.resp i).toNat)

/-- FLAGS of the image header. -/
def BootSt.flags (b : BootSt) : Nat := natLE ((b.hdr.drop 0x14).take 4)

/-- Whether the response unlocks the scope (R385, R386). (DESIGN CHOICE: assumption 12.) -/
def State.verifies (s : State) (scope : Nat) : Bool :=
  let key := s.respBytes.take 96
  let msg := s.chalBytes ++ bytesLE 2 s.deviceId ++ bytesLE 2 scope
  s.boot.accepted && s.boot.flags.testBit 2 && s.dbg.live && decide (s.fld SEC_DBG_STS_FAIL_CNT < 8) &&
    (List.range 2).any (fun i => s.fuses.dbgProg.getLsbD i && !s.fuses.dbgRevoked.getLsbD i &&
      decide (Config.sha384 key = Tbl.get (fun _ => []) s.fuses.dbgKey i)) &&
    Config.ecdsaP384 key (Config.sha384 msg) (s.respBytes.drop 96)

/-- A write of 1 to VERIFY: the checks are made, and shown when the verification finishes.
(DEDUCED: assumption 105.) -/
def State.verify (s : State) : State :=
  if s.dbg.op.isSome then s.dbgBusy
  else
    let scope := s.fld SEC_DBG_CMD_SCOPE
    (s.withDbg { s.dbg with op := some (.verify (if s.verifies scope then some scope else none)) }).setFlag SEC_DBG_STS_BUSY true

/-- VERIFY. -/
def execVerify (s : State) : Host.Outcome State Fault Refusal := .next s.verify

/-- A write of 1 to RELOCK. (DEDUCED: assumption 105.) -/
def State.relock (s : State) : State := s.setFlag SEC_DBG_STS_UNLOCKED false

/-- RELOCK. -/
def execRelock (s : State) : Host.Outcome State Fault Refusal := .next s.relock

/-- VERIFICATION_DONE: BUSY clears; a verification shows its result and is logged. -/
def execVerificationDone (s : State) : Host.Outcome State Fault Refusal :=
  let s1 := (s.withDbg { s.dbg with op := none }).setFlag SEC_DBG_STS_BUSY false
  match s.dbg.op with
  | none => .next s
  | some .challenge => .next s1
  | some (.verify (some sc)) =>
    let s2 := (s1.withDbg { s1.dbg with live := false }).setFlag SEC_DBG_STS_UNLOCKED true
    .next ((s2.setFld SEC_DBG_STS_SCOPE_ACTIVE sc).logD ev_DEBUG_UNLOCK blkSec 0 [sc])
  | some (.verify none) =>
    .next (((s1.setFlag SEC_DBG_STS_FAIL true).countSat SEC_DBG_STS_FAIL_CNT).logD ev_DEBUG_FAIL blkSec 0 [])

/-- Whether master `m` may use debug scope bit `b`: unlocked, or Headframe between acceptance of a copy and the seal (R386). -/
def State.scopeOpen (s : State) (m : RegMaster) (b : Nat) : Bool :=
  (s.flag SEC_DBG_STS_UNLOCKED && s.fbit SEC_DBG_STS_SCOPE_ACTIVE b) ||
    (!s.flag HDF_SEAL_SEALED && s.boot.accepted && decide (m = .headframe))

end Sys2Proof.Machine
end

