-- ==== Sys2Proof/Machine/RegAccess.lean ====
section
/-!
DEFINITION. Machine/RegAccess.lean: register accesses by a master: the width and alignment conduct (R394), pairs, shadows and held
halves (R395), the masters' gates (R380, R391, R397 to R399, R441), fields under their access codes and classes (R10, R12), what a
write triggers, and the registers whose value is computed when they are read.
-/
namespace Sys2Proof.Machine

/-! ### Masters -/

/-- The master code of a register event and of OWNER (Table 20-5, R397); a cluster has none. -/
def masterCode : RegMaster → Nat
  | .headframe => 1
  | .i3c => 2
  | .pf => 3
  | .vf _ => 3
  | .clu _ => 0

/-- The key of a master's shadow and held half. -/
def masterKey : RegMaster → Nat
  | .headframe => 0
  | .i3c => 1
  | .pf => 2
  | .vf v => 3 + v.val
  | .clu h => 11 + cluKey h.part h.clu

/-- A master's shadow and held half. -/
def State.masterOf (s : State) (m : RegMaster) : MasterSt := Tbl.get (fun _ => (⟨none, none⟩ : MasterSt)) s.masters (masterKey m)

/-- Replaces them. -/
def State.setMaster (s : State) (m : RegMaster) (x : MasterSt) : State :=
  { s with masters := Tbl.set (fun _ => (⟨none, none⟩ : MasterSt)) s.masters (masterKey m) x }

/-- The PCIe function of a host master. -/
def hostFn : RegMaster → Option Nat
  | .pf => some 0
  | .vf v => some (1 + v.val)
  | _ => none

/-- The Event BLOCK code of a register offset (Table 0-8). (DEDUCED: assumption 15.) -/
def blockOf (a : Nat) : Nat := if a < 0x100000 then a / 0x10000 else 0x10 + (a / 0x100000 - 1) % 16

/-- Logs a register event: the master in FLAGS, the offset and the value written in INFO (Tables 20-5 and 22-6).
(DEDUCED: assumption 15.) -/
def State.logReg (s : State) (k : EvKind) (m : RegMaster) (a v : Nat) : State :=
  let s1 := if k = ev_SEAL_VIOLATION then s.countSat HDF_SEAL_VIOL_CNT else s
  s1.logEvent ⟨k.code, blockOf a, k.sev + 4 * masterCode m, s.beat.ts, BitVec.ofNat 64 a, BitVec.ofNat 64 v⟩

/-- A pre-seal violation, which records the field class as pre-seal (R380, assumption 14).
(DESIGN CHOICE: assumption 14.) -/
def State.logPreSeal (s : State) (m : RegMaster) (a v : Nat) : State :=
  (s.countSat HDF_SEAL_VIOL_CNT).logEvent ⟨ev_SEAL_VIOLATION.code, blockOf a, 4 * masterCode m, s.beat.ts, BitVec.ofNat 64 a,
    Config.infoPack ev_SEAL_VIOLATION.code [v, 1]⟩

/-- The register-space offset a master's own offset names; none is answered with Unsupported Request (R391, Table 20-2). -/
def State.masterOff (s : State) (m : RegMaster) (off n : Nat) : Option Nat :=
  match m with
  | .vf v =>
    match s.vfPart v with
    | none => none
    | some p =>
      if 2 ^ s.early.vfBar0Log2 < off + n then none
      else if off < 0x100000 then some (partBase p + off)
      else if off < 0x110000 then some (0x20000 + (off - 0x100000))
      else some (0x3FF0000 + off % 8)
  | _ => some off

/-- The blocks I3C reaches (R398). -/
def i3cReaches (a : Nat) : Bool :=
  let b := a / 0x10000
  b == 0 || b == 1 || b == 2 || b == 3 || b == 6 && decide (a < 0x61000) || b == 7 || b == 14

/-- Whether a cluster's Monitor access reaches register offset `a` (R263). -/
def State.cluReach (s : State) (h : Hart) (a : Nat) (write : Bool) : Bool :=
  !s.flag (PCTL_TENANT_BIND_EN h.part) || decide (a / 0x100000 = 1 + h.part.val) || (decide (a / 0x10000 = 2) && !write)

/-! ### Which registers there are -/

/-- Whether the register at `a` belongs to an optional function that the I/O die omits (R6, R378).
(DEDUCED: assumption 113.) -/
def State.omitted (s : State) (a : Nat) : Bool :=
  let cap := s.fld HDF_CAP_CAP
  cap.testBit 0 &&
    (if a / 0x10000 = 12 then decide (a % 0x2000 < 0x1000) && !cap.testBit (8 + a % 0x10000 / 0x2000)
     else if a / 0x10000 = 13 then
       (if 0xD0100 ≤ a then !cap.testBit 3
        else if a = 0xD0010 then !cap.testBit 4 && !cap.testBit 5
        else !cap.testBit 3 && !cap.testBit 4 && !cap.testBit 5)
     else false)

/-- Whether byte offset `a` is reserved (R394). -/
def reservedByte (a : Nat) : Bool := (regAt a).isNone && (companionAt a).isNone

/-- The partition whose CLU, L2, ADIT or ASY sub-block an offset lies in: an access wakes it (R352). -/
def wakes (a : Nat) : Option Nat :=
  if 0x100000 ≤ a ∧ a < 0x900000 then
    let o := a % 0x100000
    if (0x4000 ≤ o ∧ o < 0x8000) ∨ (0x10000 ≤ o ∧ o < 0x18000) ∨ (0x20000 ≤ o ∧ o < 0x34000) then some (a / 0x100000 - 1) else none
  else none

/-- An access to register offset `a` arrives: it may wake a partition, and is performed after the exit (R352).
(DESIGN CHOICE: assumption 94.) -/
def State.arrive (s : State) (a : Nat) : State :=
  match wakes a with
  | some p => s.wakeNow p
  | none => s

/-- Whether a register request of cluster `h` is admitted: at Monitor level, within what its partition reaches (R263). -/
def State.cluAdmits (s : State) (h : Hart) (a : Nat) (write : Bool) : Bool := (s.clu h.part h.clu).mon && s.cluReach h a write

/-! ### Reading -/

/-- One bit of a number if a condition holds. -/
def bitIf (i : Nat) (b : Bool) : Nat := if b then 2 ^ i else 0

/-- EVT_WM_SUM (R403, Table 20-7). -/
def State.wmSum (s : State) : Nat :=
  bitIf 0 (s.flag ADM_WM_STS_CROSSED_UP) + bitIf 1 (s.flag EVT_WM_STS_CROSSED_UP) +
    (List.range 8).foldl (fun m i => m + bitIf (2 + i) (s.flag (TAL_GUARD_STS_CROSSED_UP i)) +
      bitIf (10 + i) (s.flag (LNK_WM_STS_CROSSED_UP i)) + bitIf (18 + i) (s.flag (PLAT_WM_STS_CROSSED_UP i)) +
      (List.range 4).foldl (fun w g => w + bitIf (26 + 4 * i + g) (s.flag (WCB_WM_STS_CROSSED_UP i g))) 0) 0

/-- A snapshot bin as its pair reads (Table 3-12): `nk` is class × 2 + kind. -/
def State.talBin (s : State) (nk b : Nat) : Nat :=
  Tbl.get (fun _ => 0) s.tal.snap (nk * 65 + b) + bitIf 63 (Tbl.get (fun _ => false) s.tal.snapSat (nk * 65 + b))

/-- SEC_FUSE (Table 19-10). -/
def State.secFuse (s : State) : Nat :=
  s.fuses.imgRevoked.toNat + s.fuses.imgProg.toNat * 16 + (s.fuses.dbgProg &&& ~~~s.fuses.dbgRevoked).toNat * 256 +
    s.fuses.svnMin % 256 * 65536

/-- CLU_STS (Table 6-16): RUNNING while the cluster fetches. -/
def State.cluSts (s : State) (p c : Nat) (w : Nat) : Nat :=
  let k := s.clu p c
  w / 8 * 8 + bitIf 2 k.mon + bitIf 1 k.halted + bitIf 0 (k.running && !k.halted && !k.inReset)

/-- L1D_STS.INV_BUSY: INV_ALL is in progress for 128 PCLK cycles (Table 11-4). -/
def State.l1dInvBusy (s : State) (p c : Nat) : Bool :=
  match (s.clu p c).l1dBusy with
  | some t => decide (s.pclkOf p < t + 128 * pclkUnit)
  | none => false

/-- A partition-window register as it reads: `w` is the stored word at offset `o`. -/
def State.partWord (s : State) (p o w : Nat) : Nat :=
  if 0x20000 ≤ o then
    let c := (o - 0x20000) / 0x1000
    let j := o % 0x1000
    if j = 0 then s.cluSts p c w
    else if j = 8 then (s.clu p c).lastPc.toNat % 2 ^ 32 / 2 * 2
    else if j = 12 then (s.clu p c).lastPc.toNat / 2 ^ 32 % 2 ^ 24
    else if j = 0x44 then putBits w 1 1 (if s.l1dInvBusy p c then 1 else 0)
    else w
  else if o = 0x10004 ∨ o = 0x14004 then (if s.flag (PCTL_TENANT_BIND_EN p) then s.fld (PCTL_TENANT_CID p) else w)
  else if o = 0x10010 then w % 2 ^ 16 + (s.aditOf p).held * 2 ^ 16 + bitIf 31 (s.aditOf p).run.isSome
  else if o = 0x14010 then w % 2 ^ 16 + (s.asyOf p).held * 2 ^ 16 + bitIf 31 (s.asyOf p).run.isSome
  else if o = 0x18004 then s.nf p
  else if o = 0x18010 then
    let x := s.plat p
    bitIf 31 (!x.waiting.isEmpty) + s.framesIn p .ready * 2 ^ 16 + (s.nf p - (x.frames.filter (fun e => decide (e.2.st ≠ .free))).length)
  else if o = 0xC000 then
    putBits (putBits w 4 1 (if s.role p = 0 ∧ s.flag HDF_SEAL_SEALED = true then 1 else 0)) 3 1
      (if s.flag (STK_CTL_SCRUB_EN p) && !s.flag (STK_STS_SELF_REFRESH p) then 1 else 0)
  else if 0x8100 ≤ o ∧ o < 0x8200 ∧ o % 0x40 = 0 then
    let g := s.mem.wcbOf (wcbKey p ((o - 0x8100) / 0x40))
    g.entries.length + bitIf 7 (!g.stalled.isEmpty)
  else w

/-- The 32-bit register word at the aligned offset `a` of a register, as it reads: stored words, and those computed from the state. -/
def State.readWord (s : State) (a : Nat) : Nat :=
  let w := (s.word a).toNat
  if 0x100000 ≤ a then s.partWord (a / 0x100000 - 1) (a % 0x100000) w
  else match a / 0x10000 with
  | 0 => if a = 0 then s.deviceId * 65536 + s.product.step.toNat else w
  | 2 => if a = 0x20048 then s.beat.ts.toNat % 2 ^ 32 else if a = 0x2004C then s.beat.ts.toNat / 2 ^ 32 else w
  | 5 =>
    if 0x51000 ≤ a then
      let v := s.talBin ((a - 0x51000) / 0x400) (a % 0x400 / 8)
      (if a % 8 = 0 then v % 2 ^ 32 else v / 2 ^ 32)
    else w
  | 6 =>
    if a = 0x60004 then w + 2 * s.evt.held.length
    else if a = 0x60028 then s.wmSum % 2 ^ 32
    else if a = 0x6002C then s.wmSum / 2 ^ 32
    else w
  | 7 =>
    if a = 0x70084 ∨ a = 0x70088 then s.fld PIN_GPIO_OUT_OUT
    else if a = 0x70090 then s.gpioIn
    else if a = 0x700A0 then s.i3cStatic.toNat
    else w
  | 8 => if a = 0x80004 then w + s.mmu.queue.length * 2 ^ 16 else w
  | 9 => if a = 0x90010 then (Tbl.get (fun _ => 0) s.claims (s.fld CLM_INDEX_INDEX)).toNat else w
  | 14 => if a = 0xE0000 then s.secFuse else w
  | _ => w

/-- The word at an aligned offset: a register, a companion's active values, or 0 (R12, R394, R396, R6). -/
def State.wordAt (s : State) (a : Nat) : Nat :=
  match regAt a with
  | some _ => if s.omitted a then 0 else s.readWord a
  | none =>
    match companionAt a with
    | some r => (Tbl.get resetWord s.active (a - 0x800)).toNat &&& r.row.beatMask / 2 ^ (8 * (a - 0x800 - r.addr))
    | none => 0

/-- `n` bytes of register space from `a` on. -/
def State.regBytes (s : State) (a n : Nat) : List Byte :=
  (List.range n).map (fun i => BitVec.ofNat 8 (s.wordAt ((a + i) / 4 * 4) / 2 ^ (8 * ((a + i) % 4))))

/-- Whether `a` is the low half of a 64-bit pair. -/
def pairLow (a : Nat) : Bool :=
  match regAt a with
  | some r => r.row.pair && decide (r.addr = a)
  | none => false

/-- Discards a held half that is not completed (R395). -/
def State.dropHeld (s : State) (m : RegMaster) : State :=
  let x := s.masterOf m
  let s1 := s.setMaster m ⟨none, none⟩
  match x.held with
  | some h => s1.logReg ev_PAIR_ABANDONED m h.off h.word.toNat
  | none => s1

/-- The answer of Table 20-3 to a read of `n` bytes at `a` by master `m`; none is Unsupported Request. -/
def State.readConduct (s : State) (m : RegMaster) (a n : Nat) : Option (List Byte) × State :=
  match accKind a n with
  | .wide => (none, s)
  | .misaligned => (none, s)
  | k =>
    if (List.range n).all (fun i => reservedByte (a + i)) then (some (List.replicate n 0), s)
    else
      let s1 := s.arrive a
      match k with
      | .split => (none, s)
      | .word =>
        let d := s1.regBytes a 4
        (some d, if pairLow a then s1.setMaster m ⟨some ⟨a, BitVec.ofNat 32 (s1.wordAt (a + 4))⟩, none⟩ else s1)
      | _ => (some (s1.regBytes a n), s1)

/-- A register read by master `m` (R394, R395, R398). -/
def State.regRead (s : State) (m : RegMaster) (off n : Nat) : Option (List Byte) × State :=
  if s.inReset then (none, s)
  else match s.masterOff m off n with
  | none => (none, s)
  | some a =>
    let sh := (s.masterOf m).shadow
    let s1 := s.dropHeld m
    if m = .i3c ∧ n ≠ 4 ∧ n ≠ 8 then (none, s1.logReg ev_ACCESS_WIDTH m a 0)
    else if m = .i3c ∧ i3cReaches a = false then (some (List.replicate n 0), s1)
    else match sh with
    | some h =>
      if n = 4 ∧ a = h.off + 4 then (some (bytesLE 4 h.word.toNat), s1.arrive a) else s1.readConduct m a n
    | none => s1.readConduct m a n

/-! ### Writing one register -/

/-- One register write as it is performed: master, register, the bits written and their values. -/
structure RegWr where
  m : RegMaster
  reg : RegAt
  mask : Nat
  val : Nat
deriving DecidableEq, Repr

/-- The stored bits of a register, both halves of a pair. -/
def State.regVal (s : State) (r : RegAt) : Nat := if r.row.pair then s.dword r.addr else (s.word r.addr).toNat

/-- Stores a register's bits. -/
def State.setRegVal (s : State) (r : RegAt) (x : Nat) : State :=
  let s1 := s.setWord r.addr (BitVec.ofNat 32 x)
  if r.row.pair then s1.setWord (r.addr + 4) (BitVec.ofNat 32 (x / 2 ^ 32)) else s1

/-- Whether a unit of the stream of Check Unit context `n` is in progress (R318). -/
def State.chkBusy (s : State) (n : Nat) : Bool :=
  let u := s.fld (CHK_CTX_CFG_LPART n)
  if s.fld (CHK_CTX_CFG_BKIND n) = 1 then s.flag (DMA_STS_BUSY u)
  else if s.fld (CHK_CTX_CFG_BKIND n) ≠ 0 then false
  else if s.flag (CHK_CTX_CFG_DIR n) then
    (s.plat u).frames.any (fun e => decide (e.2.st = .filling) && e.2.hdr.srcChip.toNat == s.ctxChip n &&
      e.2.hdr.srcPart.toNat == s.fld (CHK_CTX_CFG_PPART n))
  else s.net.remPuts.any (fun r => r.part == u && r.chip == s.ctxChip n && r.dpart == s.fld (CHK_CTX_CFG_PPART n))

/-- Whether the block that owns the IDLE fields of the register at `a` is busy (Table 0-7). -/
def State.blockBusy (s : State) (a : Nat) : Bool :=
  if 0x100000 ≤ a then
    let p := a / 0x100000 - 1
    let o := a % 0x100000
    if o = 0x10004 then decide (0 < (s.aditOf p).held)
    else if o = 0x14004 then decide (0 < (s.asyOf p).held)
    else if o = 0x4008 then (s.l2Of p).waying
    else if 0x4100 ≤ o ∧ o < 0x4380 then s.flag (L2_MAINT_STS_BUSY p ((o - 0x4100) / 0x20))
    else false
  else match a / 0x10000 with
  | 6 => if a < 0x61000 then s.flag EVT_CTL_EN else s.flag (DMA_STS_BUSY ((a - 0x61000) / 0x40))
  | 9 => s.flag CLM_STS_BUSY
  | 11 => s.chkBusy ((a - 0xB0100) / 0x20)
  | _ => false

/-- Whether the field at these bits of register `a` is guarded by EVT_CTL.OWNER (R409); OWNER itself follows R397. -/
def guarded (a lo : Nat) : Bool := (a == 0x60000 && decide (lo < 5)) || a == 0x60008

/-- Whether OWNER lets master `m` write a guarded field of register `a` at bit `lo` (R397). -/
def State.ownerOk (s : State) (m : RegMaster) (a lo : Nat) : Bool :=
  let o := s.fld EVT_CTL_OWNER
  o == 0 || o == masterCode m || (a == 0x60000 && lo == 4 && decide (m = .headframe))

/-- What a field makes of a write: its new bits in place, and the events it calls for (R10, R12, Tables 0-6 and 0-7). -/
structure FieldOut where
  bits : Nat
  took : Bool
  sealBreak : Bool
  busy : Bool
  owner : Bool
deriving DecidableEq, Repr

/-- One field under a write: `x` is the register's old value. -/
def State.fieldWrite (s : State) (w : RegWr) (x : Nat) (f : FieldRow) : FieldOut :=
  let fm := f.mask
  let wm := w.mask &&& fm
  let v := w.val &&& wm
  let old := x &&& fm
  let new :=
    match f.acc with
    | .rw => (old ^^^ (old &&& wm)) ||| v
    | .w1c => old ^^^ (old &&& v)
    | .w1s => old ||| v
    | .cnt => if wm = fm ∧ v = 0 then 0 else old
    | _ => old
  let eff := if f.acc = .wo ∨ f.acc = .w1c ∨ f.acc = .w1s then decide (v ≠ 0) else decide (new ≠ old)
  if f.acc = .ro ∨ wm = 0 then ⟨old, false, false, false, false⟩
  else if f.cls = .sealed && s.flag HDF_SEAL_SEALED then ⟨old, false, eff, false, false⟩
  else if guarded w.reg.addr f.lo && !s.ownerOk w.m w.reg.addr f.lo then ⟨old, false, false, false, eff⟩
  else if f.cls = .idle && s.blockBusy w.reg.addr then ⟨old, false, false, true, false⟩
  else ⟨new, true, false, false, false⟩

/-! ### The arbitration window (R397) -/

/-- Number of the present window: 5 ns, six ticks. (DEDUCED: assumption 34.) -/
def State.winIdx (s : State) : Nat := s.beat.tick / 6

/-- What other masters set under key `a` in the present window. (DEDUCED: assumption 34.) -/
def State.winOthers (s : State) (a : Nat) (m : RegMaster) : List Nat :=
  if s.win.idx ≠ s.winIdx then []
  else (s.win.sets.filter (fun e => e.addr == a && !(masterCode e.master == masterCode m))).map (fun e => e.bits)

/-- Notes what master `m` set under key `a` in the present window. (DEDUCED: assumption 34.) -/
def State.noteWin (s : State) (a : Nat) (m : RegMaster) (bits : Nat) : State :=
  let old := if s.win.idx = s.winIdx then s.win.sets else []
  { s with win := ⟨s.winIdx, old ++ [⟨a, m, bits⟩]⟩ }

/-- The key of the window's writes of RW bits of the register at `a`; the address itself is that of its command codes and W1S bits. -/
def rwKey (a : Nat) : Nat := a + 1

/-- Registers whose writes of one window do not replace one another: PCTL_CMD merges its codes, and each write of CLM_ENTRY starts an update. -/
def eachWrite (a : Nat) : Bool := (decide (0x100000 ≤ a) && a % 0x100000 == 0x58) || a == 0x90010

/-- The bits of RW fields of the register at `a` that a master whose writes come after those of `m` has written in the present window: in
the order Headframe, I3C, host its values remain. (DEDUCED: assumption 34.) -/
def State.winAfter (s : State) (a : Nat) (m : RegMaster) : Nat :=
  if s.win.idx ≠ s.winIdx ∨ s.beat.locked1st = false ∨ masterCode m = 0 then 0
  else (s.win.sets.filter (fun e => e.addr == rwKey a && decide (masterCode m < masterCode e.master))).foldl (fun x e => x ||| e.bits) 0

/-- The write `w` as it counts in its window: RW bits that a later master has written keep the value it gave them. -/
def State.inWindow (s : State) (w : RegWr) : RegWr :=
  let k := s.winAfter w.reg.addr w.m
  { w with val := (w.val ^^^ (w.val &&& k)) ||| (s.regVal w.reg &&& k) }

/-- Every field of the register under the write, with one event of each kind called for, at the register's offset, however many of its fields
refuse the write (R12). (DESIGN CHOICE: assumption 120.) -/
def State.foldFields (s : State) (w : RegWr) : Nat × State :=
  let x := s.regVal w.reg
  let o := w.reg.row.fields.map (fun f => (f, s.fieldWrite w x f))
  let s1 := if o.any (fun e => e.2.sealBreak) then s.logReg ev_SEAL_VIOLATION w.m w.reg.addr w.val else s
  let s2 := if o.any (fun e => e.2.owner) then s1.logReg ev_OWNER_DENIED w.m w.reg.addr w.val else s1
  let s3 := if o.any (fun e => e.2.busy) then s2.logReg ev_BUSY_WRITE w.m w.reg.addr w.val else s2
  let rw := (o.filter (fun e => decide (e.1.acc = .rw) && e.2.took)).foldl (fun n e => n ||| (e.1.mask &&& w.mask)) 0
  (o.foldl (fun n e => n ||| e.2.bits) 0,
    if rw = 0 ∨ masterCode w.m = 0 ∨ eachWrite w.reg.addr = true then s3 else s3.noteWin (rwKey w.reg.addr) w.m rw)

/-- A write of a command code: of several in one window the highest of RESET > HALT > DRAIN > RUN (R397); a FAILED partition refuses
it (R437). (DEDUCED: assumption 34.) -/
def State.cmdWrite (s : State) (m : RegMaster) (p code : Nat) : State :=
  let a := (PCTL_CMD_CMD p).addr
  if s.flag (PCTL_STS_FAILED p) then s.logReg ev_BUSY_WRITE m a code
  else ((s.setFld (PCTL_CMD_CMD p) ((s.winOthers a m).foldl max code))).noteWin a m code

/-- A write to PIN_GPIO_SET (R397: a W1S wins over a W1C of the window). -/
def State.gpioSet (s : State) (m : RegMaster) (v : Nat) : State :=
  ((s.setFld PIN_GPIO_OUT_OUT (s.fld PIN_GPIO_OUT_OUT ||| v % 65536)).noteWin PIN_GPIO_OUT_OUT.addr m v).gpioAll

/-- A write to PIN_GPIO_CLR. -/
def State.gpioClr (s : State) (m : RegMaster) (v : Nat) : State :=
  let kept := (s.winOthers PIN_GPIO_OUT_OUT.addr m).foldl (fun x y => x ||| y) 0
  let o := s.fld PIN_GPIO_OUT_OUT
  (s.setFld PIN_GPIO_OUT_OUT (o ^^^ (o &&& (v ^^^ (v &&& kept))))).gpioAll

/-! ### Cluster debug (R441) -/

/-- HALT: the cluster halts after the instructions that have issued, which is at once between commands. -/
def State.cluHalt (s : State) (p c : Nat) : State :=
  let k := s.clu p c
  s.setClu p c { k with halted := true, stepping := false }

/-- STEP: one instruction retires, and the cluster halts again. -/
def State.cluStep (s : State) (p c : Nat) : State :=
  let k := s.clu p c
  s.setClu p c { k with halted := false, stepping := true }

/-- RESUME. -/
def State.cluResume (s : State) (p c : Nat) : State :=
  let k := s.clu p c
  s.setClu p c { k with halted := false, stepping := false }

/-- A write to CLU_DBG_CTL with its three bits: after the seal it needs debug scope bit 2. -/
def State.dbgCtlWrite (s : State) (m : RegMaster) (p c v : Nat) : State :=
  if s.flag HDF_SEAL_SEALED && !s.scopeOpen m 2 then s.logReg ev_SEAL_VIOLATION m (CLU_DBG_CTL_HALT p c).addr v
  else
    let s1 := if v.testBit 0 then s.cluHalt p c else s
    let s2 := if v.testBit 1 then s1.cluStep p c else s1
    if v.testBit 2 then s2.cluResume p c else s2

/-! ### Gates and triggers -/

/-- Every watermark of the device (Table 3-3). -/
def allWms : List WmId :=
  [.adm, .evt] ++ (List.finRange 8).map WmId.plat ++ (List.finRange 8).map WmId.lnk ++ (List.finRange 8).map WmId.guard ++
    (List.finRange 8).flatMap (fun k => (List.finRange 4).map (WmId.wcb k))

/-- The watermark whose IRQ_EN lies in the register at `a`. -/
def wmAt (a : Nat) : Option WmFlds := (allWms.map wmFlds).find? (fun w => w.irq.addr == a)

/-- IRQ_EN written from 0 to 1 while CROSSED_UP = 1 sends the message (R59). -/
def State.wmEnabled (s : State) (a old : Nat) : State :=
  match wmAt a with
  | some w => if bitsOf old w.irq.lo 1 = 0 && s.flag w.irq && s.flag w.up then s.wmMessage w else s
  | none => s

/-- Why a master's write to a register is not performed at all. -/
inductive Gate where
  | pass
  | preSeal
  | silent
  | refuse (k : EvKind)
deriving DecidableEq, Repr

/-- The gates of a write by master `m` to the register at `a`. -/
def State.gate (s : State) (m : RegMaster) (a : Nat) : Gate :=
  let b := a / 0x10000
  let sealed := s.flag HDF_SEAL_SEALED
  let byHost := decide (masterCode m = 2) || decide (masterCode m = 3)
  let own := decide (m = .pf) || decide (m = .headframe)
  if s.omitted a then .silent
  else if !sealed && byHost && !(b == 0 || b == 6 || b == 14) then .preSeal
  else if (hostFn m).getD 0 ≠ 0 ∧ b = 2 then .refuse ev_MASTER_DENIED
  else if 0x61000 ≤ a ∧ a < 0x70000 ∧ own = false then .refuse ev_MASTER_DENIED
  else if (a = 0x90008 ∨ a = 0x9000C ∨ a = 0x90010) ∧ own = false then .refuse ev_MASTER_DENIED
  else if (a = 0x90008 ∨ a = 0x9000C ∨ a = 0x90010) ∧ sealed = true ∧ s.flag CLM_CTL_LOCK = true then .refuse ev_SEAL_VIOLATION
  else if (a = 0xE0040 ∨ (0xE0200 ≤ a ∧ a < 0xE02C0)) ∧ m ≠ .pf ∧ m ≠ .i3c then .refuse ev_MASTER_DENIED
  else if b = 15 ∧ s.scopeOpen m 1 = false then .refuse ev_SEAL_VIOLATION
  else if 0x100000 ≤ a ∧ (a % 0x100000 = 0x10004 ∨ a % 0x100000 = 0x14004) ∧ s.flag (PCTL_TENANT_BIND_EN (a / 0x100000 - 1)) = true then .silent
  else .pass

/-- The bits of a register that its own rule writes, not the common one. -/
def ruleBits (a : Nat) : Nat :=
  if 0x100000 ≤ a then
    let o := a % 0x100000
    if o = 0x58 then 3
    else if o = 0x4000 then 1
    else if o = 0x4008 then 0xFFFF
    else if 0x20000 ≤ o ∧ o % 0x1000 = 0x40 then 1
    else 0
  else if a = 0x60014 ∨ a = 0x90010 then 0xFFFFFFFF
  else if a = 0x70084 ∨ a = 0x70088 then 0xFFFF
  else 0

/-- Triggers of the PCTL sub-block. -/
def State.hookPctl (s : State) (w : RegWr) (p o : Nat) : State :=
  let v := w.val &&& w.mask
  if o = 0 then
    (if s.flag HDF_SEAL_SEALED then s
     else s.setFld (PCTL_ROLE_ROLE_ACTIVE p) (if s.fld (PCTL_ROLE_ROLE p) < 6 then s.fld (PCTL_ROLE_ROLE p) else 0))
  else if o = 0x30 then (if v.testBit 8 then s.foTrigger p else s)
  else if o = 0x54 then (if v.testBit 29 then s.computeFatal p 3 31 else s)
  else if o = 0x58 then s.cmdWrite w.m p (v % 4)
  else s

/-- Triggers of the L2, WCB, ADIT and ASY sub-blocks. -/
def State.hookMemory (s : State) (w : RegWr) (p o : Nat) : State :=
  let v := w.val &&& w.mask
  if o = 0x4000 then
    let s1 := if v.testBit 2 then s.fullStart p true else s
    let s2 := if v.testBit 1 then s1.fullStart p false else s1
    s2.l2Enable p (v.testBit 0)
  else if o = 0x4008 then (if s.blockBusy w.reg.addr then s else s.wayoffWrite p (v % 65536))
  else if 0x4100 ≤ o ∧ o < 0x4380 then
    (if o % 0x20 = 0xC ∧ s.blockBusy w.reg.addr = false then s.maintStart p ((o - 0x4100) / 0x20) (v % 4) else s)
  else if o = 0x8004 then (if v.testBit 0 then s.wcbCtlDrain p else s)
  else if o = 0x10000 then (if v.testBit 8 then s.aditAbort p else s)
  else if o = 0x10008 then (if w.mask = 2 ^ 64 - 1 then s.aditEnqueue p (v / 64 * 64 % 2 ^ 56) else s)
  else if o = 0x14000 then (if v.testBit 8 then s.asyAbort p else s)
  else if o = 0x14008 then (if w.mask = 2 ^ 64 - 1 then s.asyEnqueue p (v / 64 * 64 % 2 ^ 56) else s)
  else s

/-- Triggers of a partition window. (DEDUCED: assumption 111.) (DEDUCED: assumption 112.) -/
def State.hookPart (s : State) (w : RegWr) (p o : Nat) : State :=
  let v := w.val &&& w.mask
  if o < 0x4000 then s.hookPctl w p o
  else if o < 0x20000 then s.hookMemory w p o
  else
    let c := (o - 0x20000) / 0x1000
    if o % 0x1000 = 0x20 then s.dbgCtlWrite w.m p c v
    else if o % 0x1000 = 0x40 then ((if v.testBit 1 then s.l1dInvAll p c else s).l1dEnable p c (v.testBit 0))
    else s

/-- A write to MMU_CMDQ_k: the word is kept, and the high half of CMDQ_3 enqueues the command (R270). -/
def State.cmdqWrite (s : State) (w : RegWr) (k : Nat) : State :=
  let x := (Tbl.get (fun _ => (0 : BitVec 64)) s.mmu.words k).toNat
  let n := BitVec.ofNat 64 ((x ^^^ (x &&& w.mask)) ||| (w.val &&& w.mask))
  let s1 := { s with mmu := { s.mmu with words := Tbl.set (fun _ => 0) s.mmu.words k n } }
  if k = 3 ∧ w.mask.testBit 63 then s1.cmdEnqueue ((List.range 4).map (fun i => Tbl.get (fun _ => 0) s1.mmu.words i)) else s1

/-- Triggers of SEC_DBG_CMD. (DEDUCED: assumption 105.) -/
def State.hookDbgCmd (s : State) (v : Nat) : State :=
  let s1 := if v.testBit 0 then s.challenge else s
  let s2 := if v.testBit 1 then s1.verify else s1
  if v.testBit 2 then s2.relock else s2

/-- What a performed write triggers, after its fields have taken it; `old` is the register's value before. -/
def State.regHook (s : State) (w : RegWr) (old : Nat) : State :=
  let a := w.reg.addr
  let v := w.val &&& w.mask
  let s := s.wmEnabled a old
  if 0x100000 ≤ a then s.hookPart w (a / 0x100000 - 1) (a % 0x100000)
  else match a / 0x10000 with
  | 0 =>
    if a = 0x4 then
      let s1 := if v.testBit 1 then s.stageGo else s
      if v.testBit 0 then s1.reboot else s1
    else s
  | 1 => if 0x10100 ≤ a ∧ a < 0x10120 ∧ v = 0 then s.droopClear ((a - 0x10100) / 4) else s
  | 2 =>
    if a = 0x20010 then
      let s1 := if v.testBit 9 then s.armReacq else s
      if v.testBit 8 then s1.armLoad else s1
    else s
  | 3 => if 0x30200 ≤ a ∧ a < 0x30280 ∧ a % 0x10 = 0 then s.stepReqWrite ((a - 0x30200) / 0x10) else s
  | 5 => if a = 0x50000 then s.tallyCmd (v % 256) (v / 256 % 256) (v / 65536 % 256) else s
  | 6 =>
    if a = 0x60000 then
      (if v.testBit 0 && (bitsOf old 4 2 == 0 || bitsOf old 4 2 == masterCode w.m) then s.evtEnable (old.testBit 0) else s)
    else if a = 0x60014 then s.ackWrite v
    else if 0x61000 ≤ a ∧ a % 0x40 = 0x14 then
      (if v.testBit 0 && !s.blockBusy a then s.dmaGo w.m ((a - 0x61000) / 0x40) else s)
    else s
  | 7 =>
    if a < 0x70040 then s.muxChanged ((a - 0x70000) / 4) (old % 8)
    else if a = 0x70084 then s.gpioSet w.m v
    else if a = 0x70088 then s.gpioClr w.m v
    else if a = 0x70080 ∨ a = 0x7008C then s.gpioAll
    else s
  | 8 => if 0x80020 ≤ a ∧ a < 0x80040 then s.cmdqWrite w ((a - 0x80020) / 8) else s
  | 9 => if a = 0x90010 then (if s.flag CLM_STS_BUSY then s else s.claimWrite (BitVec.ofNat 32 v)) else s
  | 12 => if a % 0x2000 = 0 ∧ v.testBit 1 = true then s.linkRetrain (a % 0x10000 / 0x2000) else s
  | 14 =>
    if a = 0xE0040 then s.hookDbgCmd v
    else if 0xE0200 ≤ a then s.withDbg { s.dbg with resp := Tbl.set (fun _ => 0) s.dbg.resp ((a - 0xE0200) / 4) (BitVec.ofNat 32 v) }
    else s
  | _ => s

/-- Performs one register write: gates, fields, triggers. -/
def State.regPerform (s0 : State) (w0 : RegWr) : State :=
  let s := (s0.arrive w0.reg.addr).noteCycle
  let w := s.inWindow w0
  match s.gate w.m w.reg.addr with
  | .silent => s
  | .preSeal => s.logPreSeal w.m w.reg.addr w.val
  | .refuse k => s.logReg k w.m w.reg.addr w.val
  | .pass =>
    let old := s.regVal w.reg
    let r := s.foldFields w
    let rb := ruleBits w.reg.addr
    let x := (r.1 ^^^ (r.1 &&& rb)) ||| (old &&& rb)
    (r.2.setRegVal w.reg x).regHook w old

/-! ### Accesses -/

/-- Performs the 32-bit write of `v` at aligned offset `a`; a reserved or companion offset ignores it.
(DEDUCED: assumption 111.) -/
def State.wordWrite (s : State) (m : RegMaster) (a v : Nat) : State :=
  match regAt a with
  | none => s
  | some r =>
    if r.addr = a then s.regPerform ⟨m, r, 2 ^ 32 - 1, v⟩ else s.regPerform ⟨m, r, (2 ^ 32 - 1) * 2 ^ 32, v * 2 ^ 32⟩

/-- Performs an aligned 8-byte write: a pair in one cycle, or two registers. -/
def State.dwordWrite (s : State) (m : RegMaster) (a v : Nat) : State :=
  match regAt a with
  | some r =>
    if r.row.pair ∧ r.addr = a then s.regPerform ⟨m, r, 2 ^ 64 - 1, v⟩
    else (s.wordWrite m a (v % 2 ^ 32)).wordWrite m (a + 4) (v / 2 ^ 32)
  | none => (s.wordWrite m a (v % 2 ^ 32)).wordWrite m (a + 4) (v / 2 ^ 32)

/-- The AER message of a dropped wide write from the host (Table 20-3). -/
def State.aer (s : State) (m : RegMaster) : State :=
  match hostFn m with
  | some fn => s.send (.aerUnsupported fn)
  | none => s

/-- The answer of Table 20-3 to a write of `data` at `a`. (DEDUCED: assumption 110.) -/
def State.writeConduct (s : State) (m : RegMaster) (a : Nat) (data : List Byte) : State :=
  let v := natLE data
  match accKind a data.length with
  | .wide => (s.logReg ev_ACCESS_WIDTH m a (v % 2 ^ 64)).aer m
  | .misaligned => s.logReg ev_ACCESS_ALIGN m a v
  | k =>
    if (List.range data.length).all (fun i => reservedByte (a + i)) then s
    else match k with
    | .split => s.logReg ev_ACCESS_ALIGN m a v
    | .word => if pairLow a then (s.arrive a).setMaster m ⟨none, some ⟨a, BitVec.ofNat 32 v⟩⟩ else s.wordWrite m a v
    | .dword => s.dwordWrite m a v
    | _ => s.logReg ev_ACCESS_WIDTH m a v

/-- The held half that an access completes: the low half of the pair whose high half it writes (R395). -/
def completes (h : Option HalfWord) (a n : Nat) : Option HalfWord :=
  match h with
  | some x => if n = 4 ∧ a = x.off + 4 then some x else none
  | none => none

/-- A register write by master `m` at its own offset `off` (R393 to R398). (DEDUCED: assumption 103.) -/
def State.regWrite (s : State) (m : RegMaster) (off : Nat) (data : List Byte) : State :=
  if s.inReset then s
  else match s.masterOff m off data.length with
  | none => s.send (.completion .unsupported)
  | some a =>
    match completes (s.masterOf m).held a data.length with
    | some h => (s.setMaster m ⟨none, none⟩).dwordWrite m h.off (h.word.toNat + natLE data * 2 ^ 32)
    | none =>
      let s1 := s.dropHeld m
      if m = .i3c ∧ (data.length ≠ 4 ∧ data.length ≠ 8 ∨ i3cReaches a = false) then s1.logReg ev_ACCESS_WIDTH m a (natLE data)
      else s1.writeConduct m a data

/-- Whether a register request of master `m` passes R263, which limits clusters. -/
def State.masterAdmits (s : State) (m : RegMaster) (a : Nat) (write : Bool) : Bool :=
  match m with
  | .clu h => s.cluAdmits h a write
  | _ => true

/-- REGISTER_WRITE. A cluster's write that R263 does not allow is not performed; its instruction reports the denial. -/
def execRegisterWrite (m : RegMaster) (off : BitVec 26) (data : List Byte) (s : State) : Host.Outcome State Fault Refusal :=
  .next (if s.masterAdmits m off.toNat true then s.regWrite m off.toNat data else s)

/-- PAIR_LOW_READ: a 4-byte read at `off` fills the master's shadow, and is answered (R395). A cluster's read that R263 does not allow is
aborted. -/
def execPairLowRead (m : RegMaster) (off : BitVec 26) (s : State) : Host.Outcome State Fault Refusal :=
  if !s.masterAdmits m off.toNat false then .next (s.send (.completion .abort))
  else
    let r := s.regRead m off.toNat 4
    match r.1 with
    | some d => .next (r.2.send (.completion (.ok d)))
    | none => .next (r.2.send (.completion .unsupported))

/-- A read or write of a function's BAR4, by Table 20-3 (R401). (DEDUCED: assumption 15.) -/
def State.bar4Access (s : State) (fn off : Nat) : MemOp → State
  | .read n =>
    let bad := s.send (.completion .unsupported)
    let d := (List.range n).map (fun i => BitVec.ofNat 8 (s.bar4Word fn ((off + i) / 4 * 4) / 2 ^ (8 * ((off + i) % 4))))
    match accKind off n with
    | .wide => bad
    | .misaligned => bad
    | .split => if (List.range n).all (fun i => s.bar4Reserved fn (off + i)) then s.send (.completion (.ok d)) else bad
    | _ => s.send (.completion (.ok d))
  | .write data =>
    let m : RegMaster := if h : 1 ≤ fn ∧ fn ≤ 8 then .vf ⟨fn - 1, by omega⟩ else .pf
    let v := natLE data
    let lg (k : EvKind) : State := s.logEvent ⟨k.code, 0, k.sev + 4 * masterCode m, s.beat.ts, BitVec.ofNat 64 off, BitVec.ofNat 64 v⟩
    match accKind off data.length with
    | .wide => (lg ev_ACCESS_WIDTH).aer m
    | .misaligned => lg ev_ACCESS_ALIGN
    | k =>
      if (List.range data.length).all (fun i => s.bar4Reserved fn (off + i)) then s
      else match k with
      | .split => lg ev_ACCESS_ALIGN
      | .word => s.bar4Write fn off v
      | .dword => (s.bar4Write fn off (v % 2 ^ 32)).bar4Write fn (off + 4) (v / 2 ^ 32)
      | _ => lg ev_ACCESS_WIDTH

/-- The register master of a PCIe function. -/
def fnMaster (fn : Fin 9) : RegMaster := if h : 1 ≤ fn.val then .vf ⟨fn.val - 1, by omega⟩ else .pf

/-- HOST_REGISTER_REQUEST: a request to BAR0, or to BAR4, of function `fn`: a read is answered with its completion. A virtual function
that is bound to no partition is answered with Unsupported Request, as is a function in D3hot (R358). (DEDUCED: assumption 103.)
(DEDUCED: assumption 117.) -/
def execHostRegisterRequest (fn : Fin 9) (bar4 : Bool) (off : BitVec 26) (op : MemOp) (s : State) : Host.Outcome State Fault Refusal :=
  if s.inReset || s.ucieLost then .next s
  else if s.pwr.d3.contains fn.val then .next (s.send (.completion .unsupported))
  else if bar4 then
    (if fn.val ≠ 0 ∧ s.vfPart (fn.val - 1) = none then .next (s.send (.completion .unsupported))
     else .next (s.bar4Access fn off.toNat op))
  else match op with
  | .read n =>
    let r := s.regRead (fnMaster fn) off.toNat n
    match r.1 with
    | some d => .next (r.2.send (.completion (.ok d)))
    | none => .next (r.2.send (.completion .unsupported))
  | .write d => .next (s.regWrite (fnMaster fn) off.toNat d)

/-! ### Rows of one register each -/

/-- A 4-byte write of `v` to the register at `a` by master `m`, where `m` reaches it: the form of the rows that name one register.
(DEDUCED: assumption 110.) -/
def State.masterWord (s : State) (m : RegMaster) (a v : Nat) : State :=
  if s.inReset then s
  else
    let s1 := s.dropHeld m
    match m with
    | .i3c => if i3cReaches a then s1.wordWrite m a v else s1.logReg ev_ACCESS_WIDTH m a v
    | .vf f =>
      if s.vfPart f.val = some (a / 0x100000 - 1) ∧ 0x100000 ≤ a ∨ a / 0x1000 = 0x61 then s1.wordWrite m a v else s1
    | .clu h => if s.cluAdmits h a true then s1.wordWrite m a v else s1
    | _ => s1.wordWrite m a v

/-- GO: a write of DMA_d_CTL with GO = 1 and the other fields as they stand (R399). -/
def execGo (m : RegMaster) (d : Fin 8) (s : State) : Host.Outcome State Fault Refusal :=
  let a := (DMA_CTL_GO d).addr
  .next (s.masterWord m a ((s.word a).toNat + 1))

/-- EVT_LOG_ACK_WRITE. -/
def execEvtLogAckWrite (m : RegMaster) (v : BitVec 32) (s : State) : Host.Outcome State Fault Refusal :=
  .next (s.masterWord m EVT_LOG_ACK_SEQ.addr v.toNat)

/-- EVT_EN_WRITE: EN is written and the other fields of EVT_CTL as they stand (R407). -/
def execEvtEnWrite (m : RegMaster) (v : Bool) (s : State) : Host.Outcome State Fault Refusal :=
  let a := EVT_CTL_EN.addr
  .next (s.masterWord m a (putBits (s.word a).toNat 0 1 (if v then 1 else 0)))

/-- WATERMARK_IRQ_ENABLE: IRQ_EN of the watermark is written 1 (R59). -/
def execWatermarkIrqEnable (w : WmId) (s : State) : Host.Outcome State Fault Refusal :=
  let f := wmFlds w
  let s1 := s.setFlag f.irq true
  .next (if !s.flag f.irq && s.flag f.up then s1.wmMessage f else s1)

end Sys2Proof.Machine
end

