-- ==== Sys2Proof/Machine/Boot.lean ====
section
/-!
DEFINITION. Machine/Boot.lean: reading and verifying an image copy, the formats of its sections, and boot steps B1 to B9 (19.3 to
19.11).
-/
namespace Sys2Proof.Machine

/-! ### The header, the section table and the signature (R371 to R374) -/

/-- `n` bytes at offset `o` as a little-endian number (R14); past the end the bytes are 0. -/
def at_ (b : List Byte) (o n : Nat) : Nat := natLE ((b.drop o).take n)

/-- Whether bytes `o` to `o + n - 1` are 0. -/
def zeroAt (b : List Byte) (o n : Nat) : Bool := ((b.drop o).take n).all (fun x => decide (x = 0))

/-- Check 1 of R374: MAGIC, FORMAT, HDR_LEN, the reserved fields and IMAGE_LEN. -/
def hdrOk (h : List Byte) : Bool :=
  h.length == 256 && at_ h 0 4 == 0x4B50444C && at_ h 4 2 == 1 && at_ h 6 2 == 256 && decide (at_ h 8 4 ≤ 0x02000000) &&
    decide (at_ h 0x14 4 < 16) && zeroAt h 0x1B 5 && (List.range 8).all (fun i => at_ h (0x21 + 4 * i) 1 / 4 == 0) &&
    zeroAt h 0x4D 3 && zeroAt h 0x60 160

/-- Check 2: DEV_ID matches under DEV_MASK. -/
def State.devOk (s : State) (h : List Byte) : Bool := (s.deviceId ^^^ at_ h 0x10 2) &&& at_ h 0x12 2 == 0

/-- SECT_COUNT. -/
def sectCount (h : List Byte) : Nat := at_ h 0x44 4

/-- TYPE, OFFSET, LENGTH and HASH of a section (Table 19-4). -/
structure Sect where
  type : Nat
  off : Nat
  len : Nat
  hash : List Byte
deriving DecidableEq, Repr

/-- Entry `i` of the section table. -/
def sectAt (t : List Byte) (i : Nat) : Sect :=
  let e := (t.drop (64 * i)).take 64
  ⟨at_ e 0 2, at_ e 4 4, at_ e 8 4, (e.drop 16).take 48⟩

/-- The sections in table order. -/
def sections (h t : List Byte) : List Sect := (List.range (sectCount h)).map (sectAt t)

/-- Whether byte ranges are pairwise disjoint. -/
def disjoint : List (Nat × Nat) → Bool
  | [] => true
  | a :: t => t.all (fun b => decide (a.1 + a.2 ≤ b.1) || decide (b.1 + b.2 ≤ a.1) || a.2 == 0 || b.2 == 0) && disjoint t

/-- Whether the header's ranges and the table meet R371 and R372. (DEDUCED: assumption 114.) -/
def tableOk (h t : List Byte) : Bool :=
  let ss := sections h t
  let n := sectCount h
  let ranges := [(0, 256), (at_ h 0x40 4, 64 * n), (at_ h 0x48 4, 256)] ++ ss.map (fun e => (e.off, e.len))
  decide (at_ h 0x19 1 ≤ 31) && decide (at_ h 0x1A 1 ≤ 8) && (List.range 8).all (fun i => decide (at_ h (0x21 + 4 * i) 1 % 4 ≤ 2)) &&
    decide (1 ≤ n) && decide (n ≤ 256) && t.length == 64 * n && at_ h 0x40 4 % 64 == 0 && at_ h 0x48 4 % 64 == 0 &&
    ss.all (fun e => decide (1 ≤ e.type) && decide (e.type ≤ 10) && e.off % 64 == 0) &&
    (List.range n).all (fun i => zeroAt t (64 * i + 2) 2 && zeroAt t (64 * i + 12) 4) &&
    (ss.head?.map (fun e => e.type) == some 1) &&
    (List.range 11).all (fun k => k == 9 || decide ((ss.filter (fun e => e.type == k)).length ≤ 1)) &&
    disjoint ranges && ranges.all (fun r => decide (r.1 + r.2 ≤ at_ h 8 4))

/-- Check 3: the key slot is programmed and not revoked, and holds the hash of the block's key.
(DESIGN CHOICE: assumption 12.) -/
def State.keyOk (s : State) (h sig : List Byte) : Bool :=
  let k := at_ h 0x4C 1
  decide (k < 4) && s.fuses.imgProg.getLsbD k && !s.fuses.imgRevoked.getLsbD k &&
    decide (Config.sha384 (sig.take 96) = Tbl.get (fun _ => []) s.fuses.imgKey k)

/-- Check 4: the signature over header and table verifies, and the block's last 64 bytes are zero (R373).
(DESIGN CHOICE: assumption 12.) -/
def sigOk (h t sig : List Byte) : Bool :=
  sig.length == 256 && zeroAt sig 192 64 && Config.ecdsaP384 (sig.take 96) (Config.sha384 (h ++ t)) ((sig.drop 96).take 96)

/-! ### Section formats (R376, R377, R379, R381) -/

/-- Whether a register-image section of a type may name a register offset (Table 19-6). -/
def imageReaches (type a : Nat) : Bool :=
  let b := a / 0x10000
  let inPart := decide (0x100000 ≤ a) && decide (a < 0x900000)
  let o := a % 0x100000
  match type with
  | 2 => b == 1 || b == 2 || b == 3 || b == 7
  | 3 => b == 13 || (inPart && decide (0x8000 ≤ o) && decide (o < 0x10000))
  | 4 => b == 10 || b == 11 || b == 12 || a == 0x80000
  | 6 => b == 8 || (inPart && (decide (o < 0x8000) || (decide (0x10000 ≤ o) && decide (o < 0x1C000)) ||
      (decide (0x20000 ≤ o) && decide (o < 0x34000))))
  | 7 => b == 4 || b == 5 || b == 6
  | _ => false

/-- The pairs of a register image. -/
def imagePairs (d : List Byte) : List (Nat × Nat) := (List.range (d.length / 8)).map (fun i => (at_ d (8 * i) 4, at_ d (8 * i + 4) 4))

/-- Whether a register image is well formed. -/
def imageOk (type : Nat) (d : List Byte) : Bool :=
  d.length % 8 == 0 && (imagePairs d).all (fun e => e.1 % 4 == 0 && imageReaches type e.1)

/-- Whether an EARLY section is well formed (Table 19-7). -/
def earlyOk (d : List Byte) : Bool :=
  let w := at_ d 5 1
  decide (64 ≤ d.length) && decide (d.length ≤ 4096) && decide (1 ≤ at_ d 4 1) && decide (at_ d 4 1 ≤ 6) &&
    (w == 1 || w == 2 || w == 4 || w == 8 || w == 16) && decide (at_ d 6 1 ≤ 8) &&
    decide (30 ≤ at_ d 7 1) && decide (at_ d 7 1 ≤ 40) && decide (21 ≤ at_ d 8 1) && decide (at_ d 8 1 ≤ 24) &&
    (at_ d 9 1 == 0 || (decide (28 ≤ at_ d 9 1) && decide (at_ d 9 1 ≤ 38))) &&
    decide (1 ≤ at_ d 10 2) && decide (at_ d 10 2 ≤ 256) && decide (at_ d 12 2 ≤ 32) && zeroAt d 14 50

/-- One entry of a register-write list (R377). -/
structure RwEnt where
  op : Nat
  zero : Bool
  addr : Nat
  a : Nat
  b : Nat
deriving DecidableEq, Repr

/-- Entry `i` of a register-write list. -/
def rwAt (d : List Byte) (i : Nat) : RwEnt :=
  let e := d.drop (16 * i)
  ⟨at_ e 0 1, zeroAt e 1 3, at_ e 4 4, at_ e 8 4, at_ e 12 4⟩

/-- The entries up to END. -/
def rwEnts (d : List Byte) : List RwEnt := ((List.range (d.length / 16)).map (rwAt d)).takeWhile (fun e => e.op != 0)

/-- Whether a register-write list is well formed. (DEDUCED: assumption 114.) -/
def rwOk (d : List Byte) : Bool :=
  d.length % 16 == 0 && (rwEnts d).all (fun e =>
    let b := e.addr / 0x10000
    decide (e.op ≤ 5) && e.zero && (if e.op = 5 then decide (e.a ≤ 1000000)
      else decide (e.addr < 0x4000000) && !(b == 0 || b == 14 || b == 15)))

/-- A manifest entry as the image holds it (Table 19-8). -/
def manEnt (d : List Byte) (i : Nat) : ManEnt :=
  let e := (d.drop (16 + 80 * i)).take 80
  { kind := at_ e 0 1, sec := at_ e 4 4, src := at_ e 8 8, dst := at_ e 16 8, len := at_ e 24 8, hash := (e.drop 32).take 48,
    eng := none, fin := false }

/-- The entries of a manifest. -/
def manEnts (d : List Byte) : List ManEnt := (List.range (at_ d 0 4)).map (manEnt d)

/-- Whether a manifest is well formed; a BLOB entry names bytes of a BLOB section. -/
def manOk (ss : List Sect) (d : List Byte) : Bool :=
  d.length == 16 + 80 * at_ d 0 4 && zeroAt d 8 8 && (List.range (at_ d 0 4)).all (fun i => zeroAt d (17 + 80 * i) 3) &&
    (manEnts d).all (fun e => decide (e.kind ≤ 3) && e.dst % 64 == 0 && e.len % 64 == 0 && decide (0 < e.len) &&
      (e.kind != 0 || (match ss[e.sec]? with | some x => x.type == 9 && decide (e.src + e.len ≤ x.len) | none => false))) &&
    disjoint ((manEnts d).map (fun e => (e.dst, e.len)))

/-- Whether section content of a type meets its format. -/
def sectOk (ss : List Sect) (type : Nat) (d : List Byte) : Bool :=
  match type with
  | 1 => earlyOk d
  | 4 => decide (4 ≤ d.length) && imageOk 4 (d.drop 4)
  | 5 => d.length % 12 == 0
  | 8 => manOk ss d
  | 9 => true
  | 10 => rwOk d
  | t => imageOk t d

/-- The first section that fails its format. -/
def State.badSect (s : State) : Option Nat :=
  let ss := sections s.boot.hdr s.boot.table
  (List.range ss.length).find? (fun i =>
    !sectOk ss ((ss[i]?.map (fun e => e.type)).getD 0) (Tbl.get (fun _ => []) s.boot.data i))

/-! ### Applying sections -/

/-- The index and content of the section of a type, if the copy has one. -/
def State.sectOf (s : State) (type : Nat) : Option (Nat × List Byte) :=
  let ss := sections s.boot.hdr s.boot.table
  ((List.range ss.length).find? (fun i => (ss[i]?.map (fun e => e.type)) == some type)).map
    (fun i => (i, Tbl.get (fun _ => []) s.boot.data i))

/-- Headframe writes pairs in order, each as a 32-bit write (R376). -/
def State.applyPairs (s : State) (l : List (Nat × Nat)) : State :=
  l.foldl (fun t e => t.regWrite .headframe e.1 (bytesLE 4 e.2)) s

/-- Applies the register image of a type; LINK has four bytes before it. -/
def State.applyImage (s : State) (type : Nat) : State :=
  match s.sectOf type with
  | some (_, d) => s.applyPairs (imagePairs (if type = 4 then d.drop 4 else d))
  | none => s

/-- Applies CLAIMS records through the CLM registers, waiting for each update (R269).
(DEDUCED: assumption 114.) -/
def State.applyClaims (s : State) : State :=
  match s.sectOf 5 with
  | some (_, d) => (List.range (d.length / 12)).foldl (fun t i =>
      (t.applyPairs [(0x90008, at_ d (12 * i) 4), (0x9000C, at_ d (12 * i + 4) 4), (0x90010, at_ d (12 * i + 8) 4)]).setFlag
        CLM_STS_BUSY false) s
  | none => s

/-- Applies EARLY to the endpoint (R379); a format fault stops the copy. -/
def State.applyEarly (s : State) : State :=
  let d := Tbl.get (fun _ => []) s.boot.data 0
  if !earlyOk d then s.imageFault 0x08 0
  else { s with early :=
    { applied := true, numVfs := at_ d 6 1, bar2Log2 := at_ d 7 1, vfBar0Log2 := at_ d 8 1, vfBar2Log2 := at_ d 9 1,
      msixPf := at_ d 10 2, msixVf := at_ d 12 2, subsysVendor := BitVec.ofNat 16 (at_ d 0 2),
      subsysId := BitVec.ofNat 16 (at_ d 2 2), maxSpeed := at_ d 4 1, maxWidth := at_ d 5 1 } }

/-! ### The configuration checks of B7 (R42, R91, R250, R381) -/

/-- R42: every ring entry of an INGRESS range lies in populated memory of one stack whose partition is not OFF. -/
def State.ringOk (s : State) : Bool :=
  (List.range 8).all (fun p => s.fld (PCTL_ROLE_ROLE p) != 1 || (s.slotRange p).all (fun k =>
    let pa := s.ringAddr k
    let a := localPa pa
    let n := a / 0x000800000000
    s.isLocal pa && decide (n < 8) && decide (a % 0x000800000000 + s.ringStride ≤ 24 * 2 ^ 30) && s.role n != 0))

/-- A stage of this device that a NEXT or PREV names: index `want` of the same loop. -/
def State.peerOk (s : State) (chip part want len : Nat) : Bool :=
  if chip ≠ 63 ∧ chip ≠ s.chip then true
  else s.isStage part && s.fld (PCTL_STAGE_LOOP_LEN part) == len && s.fld (PCTL_STAGE_STAGE_IDX part) == want

/-- R91 for one partition. -/
def State.stageOk (s : State) (p : Nat) : Bool :=
  let len := s.fld (PCTL_STAGE_LOOP_LEN p)
  let i := s.fld (PCTL_STAGE_STAGE_IDX p)
  if !s.isStage p then true
  else
    decide (3 ≤ len) && decide (len ≤ 504) &&
      (match s.role p with
        | 1 => i == 0
        | 3 => i == len - 1
        | _ => decide (0 < i) && decide (i < len - 1)) &&
      s.peerOk (s.fld (PCTL_NEXT_CHIP p)) (s.fld (PCTL_NEXT_PART p)) ((i + 1) % len) len &&
      s.peerOk (s.fld (PCTL_PREV_CHIP p)) (s.fld (PCTL_PREV_PART p)) ((i + len - 1) % len) len

/-- R250: the enabled windows lie in the CXL range, do not overlap, and have a size that is a multiple of their ways. -/
def State.cxlOk (s : State) : Bool :=
  let on := (List.range 4).filter (fun i => s.flag (FAR_CXL_WIN_CTL_EN i) && decide (s.fld (FAR_CXL_WIN_CTL_WAYS i) ≤ 3))
  let range := fun i => (s.fld (FAR_CXL_WIN_BASE_BASE i) * 2 ^ 28, s.fld (FAR_CXL_WIN_CTL_SIZE_GIB i) * 2 ^ 30)
  on.all (fun i => decide (0x100000000000 ≤ (range i).1) && decide ((range i).1 + (range i).2 ≤ 0x140000000000) &&
    s.fld (FAR_CXL_WIN_CTL_SIZE_GIB i) % 2 ^ s.fld (FAR_CXL_WIN_CTL_WAYS i) == 0) && disjoint (on.map range)

/-- Whether every manifest destination is populated local memory (R381).
(DEDUCED: assumption 114.) -/
def State.manDstOk (s : State) : Bool :=
  match s.sectOf 8 with
  | some (_, d) => (manEnts d).all (fun e => (s.loc e.dst).populated && (s.loc (e.dst + e.len - 1)).populated)
  | none => true

/-! ### Steps B7 to B9 -/

/-- B8 begins: the manifest's entries start, and HOST entries wait for STAGE_GO (R381, R382). -/
def State.enterB8 (s : State) : State :=
  let l := match s.sectOf 8 with | some (_, d) => manEnts d | none => []
  let s1 := (s.withBoot { s.boot with step := 8, man := l, staged := false, t8 := s.beat.tick }).showPhase
  let s2 := if l.any (fun e => e.kind == 1) then s1.setFlag HDF_IMAGE_STS_WAIT_HOST true else s1
  (s2.manStart (List.range 8)).manCheck

/-- The copy is accepted (R374): HDF_SVN and HDF_BUILD_ID take the header's values. -/
def State.acceptCopy (s : State) : State :=
  let h := s.boot.hdr
  let s1 := (s.withBoot { s.boot with accepted := true, sub := 0 }).setFld HDF_SVN_SVN (at_ h 0x0C 4)
  (List.range 4).foldl (fun t i => t.setFld (HDF_BUILD_ID_BUILD_ID i) (at_ h (0x50 + 4 * i) 4)) s1

/-- A register read by Headframe. -/
def State.hfRead (s : State) (a : Nat) : Nat × State :=
  let r := s.regRead .headframe a 4
  (natLE (r.1.getD []), r.2)

/-- Executes register-write entries from the present one on; a poll that is not satisfied waits, and the last entry accepts the copy
(R377). -/
def State.runWrites (s : State) : List RwEnt → State
  | [] => s.acceptCopy.enterB8
  | e :: t =>
    let next := fun (x : State) => (x.withBoot { x.boot with rw := x.boot.rw + 1, sub := 0 }).runWrites t
    match e.op with
    | 1 => next (s.applyPairs [(e.addr, e.a)])
    | 2 => next (s.applyPairs [(e.addr, e.a), (e.addr + 4, e.b)])
    | 3 =>
      let r := s.hfRead e.addr
      next (r.2.applyPairs [(e.addr, (r.1 ^^^ (r.1 &&& e.b)) ||| (e.a &&& e.b))])
    | 4 =>
      let r := s.hfRead e.addr
      if r.1 &&& e.b = e.a then next r.2 else r.2.withBoot { r.2.boot with sub := 1 }
    | _ => next (s.timeTo (s.beat.tick + 1200 * e.a))

/-- The entries still to run. -/
def State.rwLeft (s : State) : List RwEnt :=
  match s.sectOf 10 with
  | some (_, d) => (rwEnts d).drop s.boot.rw
  | none => []

/-- B7: CLAIMS, STAGES, ADMIT, the configuration checks, then the register-write list (Table 19-2). -/
def State.enterB7 (s : State) : State :=
  let s1 := ((s.withBoot { s.boot with step := 7, sub := 0, rw := 0 }).showPhase.applyClaims.applyImage 6).applyImage 7
  if !(s1.ringOk && (List.range 8).all s1.stageOk && s1.cxlOk) then s1.imageFault 0x09 0
  else if !s1.manDstOk then s1.imageFault 0x08 (((s1.sectOf 8).map (fun e => e.1)).getD 0)
  else s1.runWrites s1.rwLeft

/-- An OFF partition stays in A3 with its stack in self-refresh (R353, R384).
(DEDUCED: assumption 115.) -/
def State.holdOff (s : State) (p : Nat) : State :=
  if s.role p = 0 then (s.setFld (PWR_PSTATE_STATE p) 3).setFlag (STK_STS_SELF_REFRESH p) true else s

/-- A partition starts at RUN: the clusters of INGRESS, LAYER, EGRESS and ASSAY leave cluster reset (R384). -/
def State.startPart (s : State) (p : Nat) : State :=
  if s.runsClusters p then (s.cluStartAll p).setFlag (PCTL_STS_RUNNING p) true else s.holdOff p

/-- COMMIT_SVN raises SVN_MIN to SVN, as far as its fuses go (R374, R383). -/
def State.commitSvn (s : State) : State :=
  let v := s.fld HDF_SVN_SVN
  if s.boot.flags.testBit 3 ∧ s.fuses.svnMin < v then { s with fuses := { s.fuses with svnMin := min v 255 } } else s

/-- Every WCB is drained by a write of 1 to its WCB_CTL.DRAIN (R244, R383).
(DEDUCED: assumption 114.) -/
def State.drainAll (s : State) : State :=
  (List.range 8).foldl (fun t p => (t.setFlag (WCB_STS_DRAIN_BUSY p) true).drainWait (.ctl p) .other (partGroups p)) s

/-- HDF_BOOT_TIME: microseconds from PERST_N release, with the part before the root PLL first locked open (assumption 32).
(DESIGN CHOICE: assumption 32.) -/
def State.bootTime (s : State) : State :=
  let r := s.fresh
  r.2.setFld HDF_BOOT_TIME_US (min (s.beat.tick / 1200 + r.1) 0xFFFFFFFF)

/-- B9: WCBs drained, the seal set, and at the next TCLK edge RUN, boundary 0 (R72, R383, R384), which is a beat boundary for the clusters
that start, the loss record, steps, power states and guards too. (DESIGN CHOICE: assumption 4.) -/
def State.sealAndRun (s : State) : State :=
  let s1 := s.drainAll.setFlag HDF_SEAL_SEALED true
  let s2 := ((s1.timeTo (s1.beat.tick + 1)).setFlag HDF_SEAL_RUN true).beatStart
  let s3 := ((List.range 8).foldl (fun t p => t.partTurn p 0) ((List.range 8).foldl State.startPart s2)).guardTurn.bootTime
  let s4 := (s3.withBoot { s3.boot with step := 10, xspi := if s3.boot.flags.testBit 1 then .released else .heldHigh }).showPhase
  let s5 := s4.commitSvn.logD ev_RUN 0 0 [0, s4.boot.copy, 0]
  let s6 := if s5.flag HDF_CTL_IRQ_EN then s5.raise 1 else s5
  s6.buildTable

/-! ### Steps B1 to B6 -/

/-- B4 begins when both B2 and B3 are complete: CLOCK_PIN is applied (R365). -/
def State.enterB4 (s : State) : State :=
  if s.boot.step = 2 ∧ s.boot.b2done = true ∧ s.boot.b3 = .done then
    (s.withBoot { s.boot with step := 4 }).showPhase.applyImage 2
  else s

/-- The end of B2: the formats of every section (check 7). -/
def State.endB2 (s : State) : State :=
  match s.badSect with
  | some i => s.imageFault 0x08 i
  | none => (s.withBoot { s.boot with b2done := true }).enterB4

/-- The required bits of a capability word are there (R378). -/
def capOk (w : Nat) : Bool := w % 8 == 7

/-- Section `i` of the copy has been read: its hash is checked (check 6), EARLY starts B3 or replaces the values of copy A, and the
last one ends B2. -/
def State.sectArrive (s : State) (i : Nat) (b : List Byte) : State :=
  let e := sectAt s.boot.table i
  if b.length ≠ e.len ∨ Config.sha384 b ≠ e.hash then s.imageFault 0x07 i
  else
    let s1 := s.withBoot { s.boot with got := s.boot.got ++ [i], data := Tbl.set (fun _ => []) s.boot.data i b }
    let s2 :=
      if i ≠ 0 then s1
      else if s1.boot.b3 = .idle then (s1.withBoot { s1.boot with b3 := .run }).showPhase
      else if capOk (s1.fld HDF_CAP_CAP) then s1.applyEarly
      else s1
    if s2.boot.step = 2 ∧ s2.boot.copy = s.boot.copy ∧ s2.boot.got.length = sectCount s2.boot.hdr then s2.endB2 else s2

/-- The signature block has been read: checks 3, 4, 5, and the table (check 6). -/
def State.sigArrive (s : State) (b : List Byte) : State :=
  let h := s.boot.hdr
  if !s.keyOk h b then s.imageFault 0x04 0
  else if !sigOk h s.boot.table b then s.imageFault 0x05 0
  else if at_ h 0x0C 4 < s.fuses.svnMin then s.imageFault 0x06 0
  else if !tableOk h s.boot.table then s.imageFault 0x08 0
  else s.withBoot { s.boot with sig := b }

/-- FLASH_DATA_ARRIVAL: the parts of a copy arrive in their order, each checked as it comes (R374). -/
def State.flashArrive (s : State) (x : FlashPiece) : State :=
  if s.boot.step ≠ 2 ∨ s.boot.b2done = true then s
  else match x with
  | .none => s.bootFail 0x01 0
  | .header b =>
    if s.boot.hdr ≠ [] then s
    else if !hdrOk b then s.imageFault 0x02 0
    else if !s.devOk b then s.imageFault 0x03 0
    else s.withBoot { s.boot with hdr := b }
  | .table b => if s.boot.hdr = [] ∨ s.boot.table ≠ [] then s else s.withBoot { s.boot with table := b }
  | .signature b => if s.boot.table = [] ∨ s.boot.sig ≠ [] then s else s.sigArrive b
  | .sect i b => if s.boot.sig = [] ∨ sectCount s.boot.hdr ≤ i ∨ s.boot.got.contains i = true then s else s.sectArrive i b

/-- FLASH_DATA_ARRIVAL. -/
def execFlashDataArrival (x : FlashPiece) (s : State) : Host.Outcome State Fault Refusal := .next (s.flashArrive x)

/-- CAPABILITY_WORD, during B3: HDF_CAP takes it; a Required function missing stops boot, else EARLY is applied (R378). -/
def execCapabilityWord (w : BitVec 32) (s : State) : Host.Outcome State Fault Refusal :=
  if s.boot.step = 2 ∧ s.boot.b3 = .run ∧ s.early.applied = false then
    let s1 := s.setFld HDF_CAP_CAP w.toNat
    .next (if !capOk w.toNat then s1.bootFail 0x0A 0 else if s1.boot.got.contains 0 then s1.applyEarly else s1)
  else .next s

/-- B5 completes: the stacks serve, MEMORY is applied, and the far tier shows what was found (R249, R254, R365).
(DEDUCED: assumption 114.) -/
def State.endB5 (s : State) (ch0 ch1 : Nat) : State :=
  let cap := s.fld HDF_CAP_CAP
  let c0 := if cap.testBit 4 then min ch0 256 else 0
  let c1 := if cap.testBit 5 then min ch1 256 else 0
  let cxl := cap.testBit 3 && s.fbit FAR_STS_UPS 2
  let s1 := (List.range 8).foldl (fun t p => t.setFlag (STK_STS_TRAINED p) true) s
  let s2 := (s1.setFld FAR_DDR_CFG_CH0_GIB c0).setFld FAR_DDR_CFG_CH1_GIB c1
  let ups := bitIf 0 (decide (0 < c0)) + bitIf 1 (decide (0 < c1)) + bitIf 2 cxl
  (((s2.setFld FAR_CAP_PRESENT ups).setFld FAR_STS_UPS ups).applyImage 3).withBoot { s2.boot with step := 6, sub := 0 }

/-- The enabled Col Link ports train (B6). -/
def State.trainPorts (s : State) : State :=
  (List.range 8).foldl (fun t p => if t.flag (LNK_CTL_EN p) then t.linkTrain p else t) s

/-- Whether every enabled port is UP or DOWN. -/
def State.portsSettled (s : State) : Bool := (List.range 8).all (fun p => !s.flag (LNK_CTL_EN p) || !s.flag (LNK_STS_TRAINING p))

/-- B1 is complete when the root PLL has locked and OCLK is trimmed (R64). -/
def State.b1Done (s : State) : Bool := s.beat.locked1st && s.flag CLK_REF_STS_OCLK_TRIMMED

/-- The training or fetch of the running step ends well (R365). -/
def State.stepDone (s : State) (ch0 ch1 : Nat) : State :=
  let b := s.boot
  match b.step with
  | 1 => if s.b1Done then s.readCopy 1 else s
  | 2 => if b.b3 = .run ∧ s.early.applied = true then (s.withBoot { b with b3 := .done, linked := true }).showPhase.enterB4 else s
  | 4 => (s.withBoot { b with step := 5 }).showPhase
  | 5 => (s.endB5 ch0 ch1).showPhase
  | 6 =>
    if b.sub = 0 then ((s.applyImage 4).trainPorts).withBoot { b with sub := 1 }
    else if s.portsSettled then s.enterB7 else s
  | 7 => if b.sub = 1 then s.runWrites s.rwLeft else s
  | 9 => s.sealAndRun
  | _ => s

/-- BOOT_STEP_COMPLETION: a hardware fault stops boot where its step trains that part; else the next step starts. -/
def execBootStepCompletion (r : StepRes) (s : State) : Host.Outcome State Fault Refusal :=
  match r with
  | .ok ch0 ch1 => .next (if s.inReset then s else s.stepDone ch0.toNat ch1.toNat)
  | .stack => .next (if s.boot.step = 5 then s.bootFail 0x0B 0 else s)
  | .far => .next (if s.boot.step = 5 then s.bootFail 0x0C 0 else s)
  | .ucie => .next (if (s.boot.step = 2 ∧ s.boot.b3 = .run) ∨ (s.boot.step = 6 ∧ s.boot.sub = 0) then s.bootFail 0x0D 0 else s)

/-- LINK_WAIT_EXPIRY: the enabled ports that are still training go DOWN, and boot continues (R366). -/
def execLinkWaitExpiry (s : State) : Host.Outcome State Fault Refusal :=
  if s.boot.step = 6 ∧ s.boot.sub = 1 then
    .next ((List.range 8).foldl (fun t p => if t.flag (LNK_CTL_EN p) && t.flag (LNK_STS_TRAINING p) then t.linkDown p else t) s).enterB7
  else .next s

/-- POLL_TIMEOUT: a POLL32 has not been satisfied within 100 ms (R377); SECTION names the REGWRITE section. -/
def execPollTimeout (s : State) : Host.Outcome State Fault Refusal :=
  .next (if s.boot.step = 7 ∧ s.boot.sub = 1 then s.imageFault 0x10 (((s.sectOf 10).map (fun e => e.1)).getD 0) else s)

end Sys2Proof.Machine
end

