-- ==== Sys2Proof/Machine/Boundary.lean ====
section
/-!
DEFINITION. Machine/Boundary.lean: a whole beat boundary (R72, R84, R92 to R95, R107, R322, R437), watermark evaluation (R58, R60), and
the commands of chapter 22 that hold partitions and clusters (R432, R437, R441).
-/
namespace Sys2Proof.Machine

/-! ### The boundary -/

/-- A beat boundary: the closing beat's late work, the generator, then the new beat's work and its class table. -/
def State.boundary (s : State) : State :=
  let ps := List.range 8
  let was := fun p => s.act (PCTL_CMD_CMD p)
  let s1 := (ps.foldl State.lateTurn s).beatTurn.meshSinks
  let load := s.beat.loadCount || s1.fld BEAT_COUNT_COUNT != (s.fld BEAT_COUNT_COUNT + 1) % 2 ^ 48
  let s2 := if load then s1.rewriteDeadlines else s1
  let s3 := ps.foldl State.takeTurn s2
  let s4 := ps.foldl (fun t p => t.partTurn p (was p)) s3
  (s4.retryPuts.expireBodies.guardTurn.portTurn).buildTable

/-- BEAT_BOUNDARY: the next placed boundary falls; none is placed before RUN (R72). -/
def execBeatBoundary (s : State) : Host.Outcome State Fault Refusal := .next (if s.running then s.boundary else s)

/-! ### Watermark evaluation (R58, R60, Table 3-3) -/

/-- The plat fill in KiB: FRAME_KIB times the number of frames in FILLING or READY (R103). -/
def State.platFill (s : State) (p : Nat) : Nat :=
  s.frameKib p * ((s.plat p).frames.filter (fun e => decide (e.2.st = .filling) || decide (e.2.st = .ready))).length

/-- The quantity of a watermark. -/
def State.wmQ (s : State) : WmId → Nat
  | .adm => s.queueDepth
  | .wcb k g => (s.mem.wcbOf (wcbKey k g)).entries.length
  | .plat p => s.platFill p
  | .evt => (s.fld EVT_LOG_HEAD_SEQ + 2 ^ 32 - s.fld EVT_LOG_ACK_SEQ) % 2 ^ 32
  | .lnk p => (s.linkOf p).held.length
  | .guard _ => 0

/-- WATERMARK_EVALUATION. The guard's watermark is evaluated at each boundary only (R56).
(DEDUCED: assumption 116.) -/
def execWatermarkEvaluation (w : WmId) (s : State) : Host.Outcome State Fault Refusal :=
  match w with
  | .guard _ => .next s
  | _ => .next (s.wmEval (wmFlds w) (s.wmQ w))

/-! ### Rows of chapter 22 -/

/-- RUN written to PCTL_CMD. -/
def execRun (m : RegMaster) (p : Part) (s : State) : Host.Outcome State Fault Refusal :=
  .next (s.masterWord m (PCTL_CMD_CMD p).addr 0)
/-- DRAIN written to PCTL_CMD. -/
def execDrain (m : RegMaster) (p : Part) (s : State) : Host.Outcome State Fault Refusal :=
  .next (s.masterWord m (PCTL_CMD_CMD p).addr 1)
/-- HALT written to PCTL_CMD. -/
def execHalt (m : RegMaster) (p : Part) (s : State) : Host.Outcome State Fault Refusal :=
  .next (s.masterWord m (PCTL_CMD_CMD p).addr 2)
/-- RESET written to PCTL_CMD. -/
def execReset (m : RegMaster) (p : Part) (s : State) : Host.Outcome State Fault Refusal :=
  .next (s.masterWord m (PCTL_CMD_CMD p).addr 3)

/-- HALT written to CLU_DBG_CTL. -/
def execClusterHalt (m : RegMaster) (h : Hart) (s : State) : Host.Outcome State Fault Refusal :=
  .next (s.masterWord m (CLU_DBG_CTL_HALT h.part h.clu).addr 1)
/-- STEP written to CLU_DBG_CTL. -/
def execStep (m : RegMaster) (h : Hart) (s : State) : Host.Outcome State Fault Refusal :=
  .next (s.masterWord m (CLU_DBG_CTL_HALT h.part h.clu).addr 2)
/-- RESUME written to CLU_DBG_CTL. -/
def execResume (m : RegMaster) (h : Hart) (s : State) : Host.Outcome State Fault Refusal :=
  .next (s.masterWord m (CLU_DBG_CTL_HALT h.part h.clu).addr 4)

/-- DBG_TRIG_EDGE: a rising edge on input pin DBG_TRIG*k*, while its pin has that function, halts the clusters of PART (R441). -/
def execDbgTrigEdge (k : Fin 4) (s : State) : Host.Outcome State Fault Refusal :=
  if s.isAlt (8 + k) && s.fld (DBG_TRIG_DIR k) == 0 then
    .next (((List.range 8).filter (fun p => s.fbit (DBG_TRIG_PART k) p)).foldl State.haltPart s)
  else .next s

/-- UCIE_MODULE_LOSS: module 0 is lost; after RUN this is fatal to the device, and no class table or register request passes any more
(R39, R432). (DEDUCED: assumption 117.) -/
def execUcieModuleLoss (s : State) : Host.Outcome State Fault Refusal :=
  .next (if s.flag HDF_SEAL_RUN then { s with ucieLost := true } else s)

end Sys2Proof.Machine
end

