-- ==== Sys2Proof/Machine/Operands.lean ====
section
/-!
DEFINITION. Machine/Operands.lean: the register files of a cluster, immediates, the 32-bit and compact encodings of chapters 6, 7
and 9, and which encodings are assigned, reserved or malformed (R123).
-/
namespace Sys2Proof.Machine

/-! ### Register files (R114, R135, R171) -/

/-- X[r]; X0 reads 0 (6.3). -/
def Cluster.getX (k : Cluster) (r : BitVec 5) : BitVec 64 := if r = 0 then 0 else Tbl.get (fun _ => 0) k.x r.toNat

/-- Writes X[r]; a write to X0 is discarded (6.3). -/
def Cluster.setX (k : Cluster) (r : BitVec 5) (v : BitVec 64) : Cluster :=
  if r = 0 then k else { k with x := Tbl.set (fun _ => 0) k.x r.toNat v }

/-- S[r] (R135). -/
def Cluster.getS (k : Cluster) (r : BitVec 5) : BitVec 256 := Tbl.get (fun _ => 0) k.sv r.toNat

/-- Writes the whole of S[r] (R135). -/
def Cluster.setS (k : Cluster) (r : BitVec 5) (v : BitVec 256) : Cluster :=
  { k with sv := Tbl.set (fun _ => 0) k.sv r.toNat v }

/-- F[r], bits [63:0] of S[r] (R135). -/
def Cluster.getF (k : Cluster) (r : BitVec 5) : BitVec 64 := (k.getS r).extractLsb' 0 64

/-- Writes F[r]; S[r] bits [255:64] stay (R135). -/
def Cluster.setF (k : Cluster) (r : BitVec 5) (v : BitVec 64) : Cluster := k.setS r ((k.getS r).extractLsb' 64 192 ++ v)

/-- V[r]. -/
def Cluster.getV (k : Cluster) (r : BitVec 5) : BitVec 8192 := Tbl.get (fun _ => 0) k.v r.toNat

/-- Writes V[r]. -/
def Cluster.setV (k : Cluster) (r : BitVec 5) (v : BitVec 8192) : Cluster := { k with v := Tbl.set (fun _ => 0) k.v r.toNat v }

/-- M[i]. -/
def Cluster.getM (k : Cluster) (i : BitVec 3) : BitVec 1024 := Tbl.get (fun _ => 0) k.m i.toNat

/-- Writes M[i]. -/
def Cluster.setM (k : Cluster) (i : BitVec 3) (v : BitVec 1024) : Cluster := { k with m := Tbl.set (fun _ => 0) k.m i.toNat v }

/-- Row `r` of tile register `t` (R171). -/
def Cluster.getRow (k : Cluster) (t : BitVec 3) (r : Nat) : BitVec 4096 := Tbl.get (fun _ => 0) k.t (32 * t.toNat + r)

/-- Writes row `r` of tile register `t`. -/
def Cluster.setRow (k : Cluster) (t : BitVec 3) (r : Nat) (v : BitVec 4096) : Cluster :=
  { k with t := Tbl.set (fun _ => 0) k.t (32 * t.toNat + r) v }

/-- Companion row `r` of tile register `t` (R172). -/
def Cluster.getScale (k : Cluster) (t : BitVec 3) (r : Nat) : BitVec 256 := Tbl.get (fun _ => unitScales) k.ts (32 * t.toNat + r)

/-- Writes companion row `r` of tile register `t`. -/
def Cluster.setScale (k : Cluster) (t : BitVec 3) (r : Nat) (v : BitVec 256) : Cluster :=
  { k with ts := Tbl.set (fun _ => unitScales) k.ts (32 * t.toNat + r) v }

/-! ### Scalar FP operands (6.3, Table 6-7) -/

/-- The format that FMT names. -/
def fmtOf (f : BitVec 2) : Fmt :=
  match f.toNat with
  | 0 => fmtD
  | 1 => fmtS
  | 2 => fmtH
  | _ => fmtBf

/-- A register's code in format `t`: a narrower value whose upper bits are not all 1 reads as the default NaN (6.3). -/
def unbox (t : Fmt) (v : BitVec 64) : Nat :=
  if v.toNat / 2 ^ t.w = 2 ^ (64 - t.w) - 1 then v.toNat % 2 ^ t.w else t.nan

/-- A code of format `t` as a register holds it: the upper bits are 1 (6.3). -/
def box (t : Fmt) (c : Nat) : BitVec 64 := BitVec.ofNat 64 ((2 ^ (64 - t.w) - 1) * 2 ^ t.w + c % 2 ^ t.w)

/-- F[r] as an operand of format `t`. (DEDUCED: assumption 43.) -/
def Cluster.fOp (k : Cluster) (t : Fmt) (r : BitVec 5) : Nat := unbox t (k.getF r)

/-- The direction that a code of Table 6-9 names; the two codes without one never reach it. -/
def rmCode (c : BitVec 3) : Rm :=
  match c.toNat with
  | 1 => .rtz
  | 2 => .rdn
  | 3 => .rup
  | 4 => .rna
  | _ => .rne

/-! ### Encoding (Tables 6-5, 6-7 and 6-8) -/

/-- A 32-bit word from its second halfword, MAJOR and low two fields. -/
def wordOf (major hi mid lo : Nat) : Nat := hi * 65536 + 32768 + major * 1024 + mid * 32 + lo

/-- Format R. -/
def encR (major f8 rd rs1 rs2 : Nat) (aq rl : Bool) : Nat :=
  wordOf major (rs2 * 2048 + (if aq then 1024 else 0) + (if rl then 512 else 0) + f8) rd rs1

/-- Format I. -/
def encI (major f4 rd rs1 imm : Nat) : Nat := wordOf major (f4 * 4096 + imm) rd rs1

/-- Format S: the data register stands in W[9:5]. -/
def encS (f4 : Nat) (a : SArgs) : Nat := wordOf 6 (f4 * 4096 + a.imm.toNat) a.rs2.toNat a.rs1.toNat

/-- Format B. -/
def encB (cond : Nat) (a : BArgs) : Nat := wordOf 7 (cond * 8192 + a.imm.toNat) a.rs2.toNat a.rs1.toNat

/-- Formats U and J: imm21 is W[31:16] with W[4:0]. -/
def encU (major : Nat) (a : UArgs) : Nat := wordOf major (a.imm.toNat / 32) a.rd.toNat (a.imm.toNat % 32)

/-- Format FR. -/
def encF (f6 : Nat) (a : FArgs) : Nat :=
  wordOf 12 (a.rs2.toNat * 2048 + a.rm.toNat * 256 + a.fmt.toNat * 64 + f6) a.rd.toNat a.rs1.toNat

/-- Format F4. -/
def encF4 (major neg : Nat) (a : F4Args) : Nat :=
  wordOf major (a.rs2.toNat * 2048 + a.rs3.toNat * 64 + a.rm.toNat * 8 + a.fmt.toNat * 2 + neg) a.rd.toNat a.rs1.toNat

/-- A set bit of W, as its value. -/
def flagBit (i : Nat) (b : Bool) : Nat := if b then 2 ^ i else 0

/-- Format V. -/
def encV (major f5 : Nat) (a : VArgs) : Nat :=
  wordOf major (a.vs2.toNat * 2048 + flagBit 10 a.z0b + flagBit 9 a.z0a + flagBit 8 a.masked + a.mask.toNat * 32 + f5)
    a.vd.toNat a.vs1.toNat

/-- LV-CVT (R144). -/
def encCvt (a : CvtArgs) : Nat :=
  wordOf 22 (a.src.toNat * 2048 + flagBit 10 a.scaled + flagBit 9 a.z0a + flagBit 8 a.masked + a.mask.toNat * 32 + a.dst.toNat)
    a.vd.toNat a.vs1.toNat

/-- LV-MEM (R146). -/
def encLvMem (f5 : Nat) (a : LvMemArgs) : Nat :=
  wordOf 19 (a.idx.toNat * 2048 + flagBit 9 a.strm + flagBit 8 a.masked + a.mask.toNat * 32 + f5) a.vd.toNat a.base.toNat

/-- VSETVL (R136). -/
def encVset (a : VsetArgs) : Nat := wordOf 20 (flagBit 7 a.alt + a.sew.toNat * 32 + 31) a.rd.toNat a.rs1.toNat

/-- SV-ARITH. -/
def encSv (f5 : Nat) (a : SvArgs) : Nat :=
  wordOf 16 (a.ss2.toNat * 2048 + flagBit 10 a.z0b + flagBit 9 a.z0a + a.efmt.toNat * 32 + f5) a.sd.toNat a.ss1.toNat

/-- SV-MEM (R153). -/
def encSvMem (f5 : Nat) (a : SvMemArgs) : Nat :=
  wordOf 17 (a.off.toNat * 2048 + flagBit 9 a.strm + a.efmt.toNat * 32 + f5) a.sd.toNat a.base.toNat

/-- Format T (R177, R182). -/
def encT (major f5 : Nat) (a : TArgs) : Nat :=
  wordOf major (a.rs2.toNat * 2048 + a.ta.toNat * 256 + a.tb.toNat * 32 + f5) a.rd.toNat a.rs1.toNat

/-! ### Kinds of encodings (R120, R123, R125) -/

/-- What an encoding raises when a cluster executes it: MALFORMED_OP, RESERVED_OP, PRIV, or none of these. -/
inductive Kind where
  | malformed
  | reserved
  | priv
  | assigned
deriving DecidableEq, Repr

/-- The kind by the order of R125. -/
def kindBy (bad rsv priv : Bool) : Kind :=
  if bad then .malformed else if rsv then .reserved else if priv then .priv else .assigned

/-- The instruction groups that execute in hardware, bits [8:0] of ISAVER, under ISAMASK (Table 6-14). -/
def isaBits (narrow : Bool) (mask : BitVec 16) : Nat := (mask &&& (if narrow then 0x1DF else 0x1FF)).toNat

/-- What decides an encoding's kind beside its bits: the groups present, VTYPE.SEW, and whether the level is Monitor. -/
structure KindCtx where
  isa : Nat
  sew : Nat
  mon : Bool
deriving DecidableEq, Repr

/-- The assigned CSR numbers (Tables 6-3, 7-2, 9-3, 13-3). -/
def csrAssigned (n : Nat) : Bool :=
  n == 1 || n == 0x10 || n == 0x11 || (decide (0x20 ≤ n) && decide (n ≤ 0x23)) || (decide (0x400 ≤ n) && decide (n ≤ 0x405)) ||
    n == 0x410 || (decide (0x800 ≤ n) && decide (n ≤ 0x804)) || n == 0x810 || (decide (0xC00 ≤ n) && decide (n ≤ 0xC05))

/-- A CSR instruction of FUNCT4 `f4` with fields rs1 and csr (R115, R116, R123). -/
def csrKind (mon : Bool) (f4 rs1 n : Nat) : Kind :=
  let writes := f4 == 1 || (decide (2 ≤ f4) && rs1 != 0)
  kindBy (writes && decide (n / 1024 % 2 = 1)) (!csrAssigned n) (decide (0x800 ≤ n) && !mon)

/-- SYSTEM (Table 6-12). -/
def sysKind (mon : Bool) (w : Nat) : Kind :=
  let f4 := bitsOf w 28 4
  let imm := bitsOf w 16 12
  let regs := bitsOf w 0 10
  if f4 < 4 then csrKind mon f4 (bitsOf w 0 5) imm
  else if f4 = 4 then kindBy (regs != 0) false false
  else if f4 = 5 then kindBy (regs != 0 || imm != 0) false (!mon)
  else if f4 = 6 then kindBy (regs != 0 || imm != 0) false false
  else .reserved

/-- ATOMIC (Table 6-11). -/
def atomKind (w : Nat) : Kind :=
  let op := bitsOf w 20 4
  let lo := bitsOf w 16 4
  let aqrl := bitsOf w 25 2
  let mbz := bitsOf w 24 1
  if op < 2 then kindBy (mbz != 0 || aqrl != 0 || lo / 4 != 0) false false
  else if op < 12 then kindBy (decide (2 ≤ lo % 4) && (mbz != 0 || lo / 4 != 0)) (decide (lo % 4 < 2)) false
  else if op = 12 ∧ lo < 6 then kindBy (mbz != 0 || aqrl != 0 || bitsOf w 27 5 != 0 || bitsOf w 0 10 != 0) false false
  else .reserved

/-- INT-R (Table 6-10). -/
def intRKind (w : Nat) : Kind :=
  let f8 := bitsOf w 16 8
  if f8 < 14 ∨ (16 ≤ f8 ∧ f8 < 24) then kindBy (bitsOf w 24 1 != 0) false false
  else if 32 ≤ f8 ∧ f8 < 36 then kindBy (bitsOf w 24 1 != 0 || bitsOf w 27 5 != 0) false false
  else .reserved

/-- INT-I (Table 6-10). -/
def intIKind (w : Nat) : Kind :=
  let f4 := bitsOf w 28 4
  if f4 < 6 then .assigned
  else if f4 < 9 then kindBy (bitsOf w 22 6 != 0) false false
  else .reserved

/-- A rounding field that Table 6-9 marks malformed. -/
def rmBad (rm : Nat) : Bool := rm == 5 || rm == 6

/-- The EFMT codes that name a format (R153): floating point 0 to 5, integer 8 to 11. -/
def efmtOk (e : Nat) : Bool := decide (e < 6) || (decide (8 ≤ e) && decide (e < 12))

/-- SV-ARITH (Table 7-9). -/
def svKind (w : Nat) : Kind :=
  let f5 := bitsOf w 16 5
  let e := bitsOf w 21 4
  if f5 < 11 then (if 8 ≤ e ∧ e < 12 then .assigned else .reserved)
  else if 16 ≤ f5 ∧ f5 < 26 then (if e < 6 then .assigned else .reserved)
  else .reserved

/-- SV-MEM (R153). -/
def svMemKind (w : Nat) : Kind :=
  if bitsOf w 16 5 < 3 ∧ efmtOk (bitsOf w 21 4) then kindBy (bitsOf w 26 1 != 0) false false else .reserved

/-- The MASK field of an unmasked instruction is an unused register field (R142).
(DEDUCED: assumption 59.) -/
def maskIdle (w : Nat) : Bool := bitsOf w 24 1 == 0 && bitsOf w 21 3 != 0

/-- LV-ARITH (Table 7-3): the unused fields of VMV, VFSQRT and VID are MBZ. -/
def lvArithKind (w : Nat) : Kind :=
  let f5 := bitsOf w 16 5
  let b := bitsOf w 26 6
  if f5 = 15 ∨ f5 = 20 then kindBy (maskIdle w || b != 0) false false
  else if f5 = 27 then kindBy (maskIdle w || b != 0 || bitsOf w 25 1 != 0 || bitsOf w 0 5 != 0) false false
  else if f5 < 28 then kindBy (maskIdle w) false false
  else .reserved

/-- LV-MASK (Table 7-4, R136, R143). -/
def lvMaskKind (w : Nat) : Kind :=
  let f5 := bitsOf w 16 5
  let mods := bitsOf w 21 6
  if f5 < 10 then kindBy (maskIdle w) false false
  else if 16 ≤ f5 ∧ f5 < 20 then kindBy (mods != 0) false false
  else if f5 = 20 then kindBy (mods != 0 || bitsOf w 27 5 != 0 || bitsOf w 0 5 != 0) false false
  else if f5 = 24 ∨ f5 = 25 then kindBy (mods != 0 || bitsOf w 27 5 != 0 || bitsOf w 3 2 != 0) false false
  else if f5 = 31 then kindBy (bitsOf w 24 8 != 0 || bitsOf w 22 2 == 3) false false
  else .reserved

/-- LV-RED (Table 7-8). -/
def lvRedKind (w : Nat) : Kind :=
  let f5 := bitsOf w 16 5
  if f5 < 8 ∨ (16 ≤ f5 ∧ f5 < 20) then kindBy (maskIdle w) false false else .reserved

/-- The codes of Table 7-5. -/
def cvtCode (c : Nat) : Bool := decide (c < 7) || (decide (8 ≤ c) && decide (c < 13))

/-- The block formats D4, E4M3 and E5M2. -/
def blockCode (c : Nat) : Bool := decide (4 ≤ c) && decide (c < 7)

/-- LV-CVT (R144). -/
def lvCvtKind (w : Nat) : Kind :=
  let d := bitsOf w 16 5
  let sc := bitsOf w 27 5
  if cvtCode d && cvtCode sc then
    kindBy (maskIdle w || (bitsOf w 26 1 == 1 && (bitsOf w 0 5 == 31 || !(blockCode d || blockCode sc)))) false false
  else .reserved

/-- LV-MEM (R146, Table 7-7). -/
def lvMemKind (w : Nat) : Kind :=
  let f5 := bitsOf w 16 5
  let b26 := bitsOf w 26 1 != 0
  let noIdx := bitsOf w 27 5 != 0
  if f5 = 0 ∨ f5 = 4 then kindBy (b26 || noIdx || maskIdle w) false false
  else if f5 = 3 then kindBy (b26 || noIdx) false false
  else if f5 = 8 ∨ f5 = 9 then kindBy (b26 || noIdx || bitsOf w 21 4 != 0) false false
  else if f5 < 7 then kindBy (b26 || maskIdle w) false false
  else .reserved

/-- LV-WIDE (R145). -/
def lvWideKind (sew w : Nat) : Kind :=
  if bitsOf w 16 5 < 8 then kindBy (maskIdle w || bitsOf w 5 1 != 0) (sew == 3) false else .reserved

/-- TILE (R177, Table 9-4). -/
def tileKind (w : Nat) : Kind :=
  let f5 := bitsOf w 16 5
  let rs2 := bitsOf w 27 5 != 0
  let ta := bitsOf w 24 3 != 0
  let tb := bitsOf w 21 3 != 0
  let rs1 := bitsOf w 0 5 != 0
  let td := bitsOf w 8 2 != 0
  let rd := bitsOf w 5 5 != 0
  match f5 with
  | 0 => kindBy (rs2 || ta || tb || rs1 || td) false false
  | 1 => kindBy (rs2 || rs1 || td) false false
  | 2 => kindBy (rs2 || rs1 || td) false false
  | 3 => kindBy (rs2 || ta || rs1 || rd) false false
  | 4 => kindBy (ta || tb || rd) false false
  | 5 => kindBy (ta || tb || rd) false false
  | 8 => kindBy (rs2 || tb || rs1) false false
  | 9 => kindBy (rs2 || tb || rs1) false false
  | 10 => kindBy (rs2 || tb || rs1) false false
  | 11 => kindBy (rs2 || tb || rs1) false false
  | 12 => kindBy (rs2 || tb) false false
  | 13 => kindBy (ta || tb || td) false false
  | 14 => kindBy (rs2 || ta || tb || rs1 || td) false false
  | _ => .reserved

/-- TILE-MEM (R182). -/
def tileMemKind (w : Nat) : Kind := if bitsOf w 16 5 < 4 then kindBy (bitsOf w 8 2 != 0) false false else .reserved

/-- A group that is absent or masked is reserved as a whole (R123, R130).
(DEDUCED: assumption 59.) -/
def inGroup (g : KindCtx) (i : Nat) (k : Kind) : Kind := if g.isa.testBit i then k else .reserved

/-- The kind of a 32-bit word, by its major group (Table 6-8, R123). -/
def wordKind (g : KindCtx) (w : Nat) : Kind :=
  let f4 := bitsOf w 28 4
  match bitsOf w 10 5 with
  | 0 => .malformed
  | 1 => intRKind w
  | 2 => intIKind w
  | 3 => .assigned
  | 4 => .assigned
  | 5 => if f4 < 7 then .assigned else if f4 = 8 ∨ f4 = 9 then inGroup g 2 .assigned else .reserved
  | 6 => if f4 < 4 then .assigned else if f4 = 8 ∨ f4 = 9 then inGroup g 2 .assigned else .reserved
  | 7 => if bitsOf w 29 3 < 6 then .assigned else .reserved
  | 8 => .assigned
  | 9 => if f4 = 0 then .assigned else .reserved
  | 10 => inGroup g 7 (atomKind w)
  | 11 => sysKind g.mon w
  | 12 => if rmBad (bitsOf w 24 3) then .malformed
      else inGroup g 2 (if bitsOf w 16 6 < 14 ∨ (16 ≤ bitsOf w 16 6 ∧ bitsOf w 16 6 < 21) then .assigned else .reserved)
  | 13 => if rmBad (bitsOf w 19 3) then .malformed else inGroup g 2 .assigned
  | 14 => if rmBad (bitsOf w 19 3) then .malformed else inGroup g 2 .assigned
  | 16 => inGroup g 3 (svKind w)
  | 17 => inGroup g 3 (svMemKind w)
  | 18 => inGroup g 4 (lvArithKind w)
  | 19 => inGroup g 4 (lvMemKind w)
  | 20 => inGroup g 4 (lvMaskKind w)
  | 21 => inGroup g 4 (lvRedKind w)
  | 22 => inGroup g 8 (lvCvtKind w)
  | 23 => inGroup g 6 (tileKind w)
  | 24 => inGroup g 6 (tileMemKind w)
  | 25 => inGroup g 5 (lvWideKind g.sew w)
  | 31 => .malformed
  | _ => .reserved

/-- The kind of a halfword with bit 15 = 0 (Tables 6-5 and 6-6); a compact form of a masked group's instruction is reserved. -/
def halfKind (g : KindCtx) (w : Nat) : Kind :=
  match bitsOf w 12 3 with
  | 0 =>
    if w = 0 then .malformed
    else match w % 4 with
      | 0 => .assigned
      | 1 => inGroup g 2 .assigned
      | 2 => .reserved
      | _ => if w = 3 then .assigned else .reserved
  | 1 => if bitsOf w 7 5 = 0 then .reserved else .assigned
  | 2 => if bitsOf w 4 5 = 0 then .reserved else .assigned
  | 4 => inGroup g 2 .assigned
  | 7 => inGroup g 4 .assigned
  | _ => .assigned

/-- The kind of an instruction, 16 or 32 bits long by bit 15 of its first halfword (R118).
(DEDUCED: assumption 59.) -/
def kindOf (g : KindCtx) (w : Nat) : Kind := if w.testBit 15 then wordKind g w else halfKind g (w % 65536)

end Sys2Proof.Machine
end

