-- ==== Sys2Proof/Machine/Flags.lean ====
section
/-!
DEFINITION. Machine/Flags.lean: the rounding direction, FTZ and saturation an instruction captures, and the FP flags it accrues
(R122, R142, R165 to R167).
-/
namespace Sys2Proof.Machine

/-- The direction of a dynamic instruction: FCSR.RM; 0b111 there names no direction, and the choice is open (assumption 40). -/
def dynRm (rm : BitVec 3) : Rm := if rm = 7 then rmCode (BitVec.ofNat 3 (Config.dynRm % 5)) else rmCode rm

/-- The environment of an FP instruction of partition `p` that rounds in direction `r` (R166, R167). -/
def State.envOf (s : State) (p : Nat) (r : Rm) : FEnv :=
  ⟨r, s.act (PCTL_NUM_FTZ_IN p) == 1, s.act (PCTL_NUM_FTZ_OUT p) == 1, s.act (PCTL_NUM_SATFP8 p) == 1⟩

/-- The environment of a scalar FP instruction with RM field `rm` (Table 6-9). -/
def State.fEnv (s : State) (h : Hart) (rm : BitVec 3) : FEnv :=
  s.envOf h.part (if rm = 7 then dynRm (s.clu h.part h.clu).rm else rmCode rm)

/-- The environment of a vector FP instruction: FCSR.RM (R142). -/
def State.vEnv (s : State) (h : Hart) : FEnv := s.envOf h.part (dynRm (s.clu h.part h.clu).rm)

/-- Accrues flags into FCSR.FLAGS (Table 6-4). -/
def Cluster.accrue (k : Cluster) (fl : BitVec 5) : Cluster := { k with flags := k.flags ||| fl }

/-- The flags of a list of results. -/
def orFlags (l : List FRes) : BitVec 5 := l.foldl (fun a r => a ||| r.flags) 0

end Sys2Proof.Machine
end

