-- ==== Sys2Proof/Machine/Ops.lean ====
section
/-!
DEFINITION. Machine/Ops.lean: how a cluster issues one instruction: fetch, traps and their return, retirement, and its accesses to
memory and register space (chapters 6 and 13).
-/
namespace Sys2Proof.Machine

/-! ### Addresses (R258, R261, R262, R208) -/

/-- Whether a physical address lies in a stack of this chip. -/
def State.inStack (s : State) (pa : Nat) : Bool :=
  s.isLocal pa && (match s.loc (localPa pa) with | .stack _ => true | _ => false)

/-- Where a checked access goes: its physical address, and whether it is cacheable. -/
structure Place where
  pa : Nat
  cached : Bool
deriving DecidableEq, Repr

/-- Translates an access of a cluster at effective address `ea`, or none for PAGE_FAULT (R258, R261, R262). The virtual address is
the low 56 bits (assumption 42). (DEDUCED: assumption 42.) -/
def State.cluXlate (s : State) (h : Hart) (id : TlbId) (k : Access) (ea : Nat) : Option Place × State :=
  let x := s.clu h.part h.clu
  let va := ea % 2 ^ 56
  if x.tctxEn then
    let r := s.translate h.part id (s.agentCid h.part x.tctxCid.toNat) va
    match r.1 with
    | none => (none, r.2)
    | some e =>
      if e.permits k (!x.mon) then (some ⟨e.phys va, e.c && !e.dev && r.2.inStack (e.phys va)⟩, r.2) else (none, r.2)
  else if x.mon && decide (va < 2 ^ 52) then (some ⟨va, s.inStack va⟩, s)
  else (none, s)

/-- Translates a data access. -/
def State.dataXlate (s : State) (h : Hart) (k : Access) (ea : Nat) : Option Place × State := s.cluXlate h (.l1d h.clu) k ea

/-! ### Accesses at their place -/

/-- How an access ends: with bytes, denied, with an uncorrectable error, or not yet. -/
inductive Got where
  | ok (d : List Byte)
  | denied
  | ue
  | stall
deriving DecidableEq, Repr

/-- Whether a place lies in the register window (Table 12-2). -/
def State.isRegs (s : State) (pl : Place) : Bool := s.isLocal pl.pa && decide (s.loc (localPa pl.pa) = .regs)

/-- The register-space offset of a place in the register window. -/
def regOff (pl : Place) : Nat := localPa pl.pa - 0x3F0000000000

/-- Whether the caches serve the place, or keep the access waiting while a full invalidate runs (R208, R220, R222). -/
def State.useCache (s : State) (h : Hart) (pl : Place) : Bool := pl.cached && (s.l2On h.part || (s.l2Of h.part).full.isSome)

/-- A cluster reads register space (R263, R394). (DEDUCED: assumption 63.) -/
def State.regLoad (s : State) (h : Hart) (pl : Place) (n : Nat) : Got × State :=
  if !s.cluAdmits h (regOff pl) false then (.denied, s)
  else
    let r := s.regRead (.clu h) (regOff pl) n
    match r.1 with
    | some d => (.ok d, r.2)
    | none => (.denied, r.2)

/-- Reads `n` bytes at a place; `excl` is LDAQ's line in E (R212), `strm` the STRM hint. -/
def State.cluLoad (s : State) (h : Hart) (pl : Place) (n : Nat) (excl strm : Bool) : Got × State :=
  if s.isRegs pl then s.regLoad h pl n
  else if s.useCache h pl then
    let r := s.cacheRead h.part h.clu (s.cluReq h.part h.clu) (localPa pl.pa) n excl strm
    match r.1 with
    | none => (.ok r.2.1, r.2.2)
    | some .stall => (.stall, s)
    | some (.denied _) => (.denied, r.2.2)
    | some .ue => (.ue, r.2.2)
  else
    let r := s.physRead (s.cluReq h.part h.clu) false pl.pa n
    match r.1 with
    | .ok d => (.ok d, r.2)
    | .denied _ => (.denied, r.2)
    | .ue _ => (.ue, r.2)

/-- FENCE.DRAIN's wait (R244). -/
def State.cluDrain (s : State) (h : Hart) : State := s.drainClu h.part h.clu

/-- Whether a write of register offset `a` starts work that waits for a FENCE.DRAIN (Table 6-15): an Adit descriptor, an Assay query
or a DMA transfer. -/
def startsWork (a : Nat) : Bool :=
  (List.range 8).any (fun n => decide (a / 8 = (ADIT_ENQ_ADDR n).addr / 8) || decide (a / 8 = (ASY_ENQ_ADDR n).addr / 8) ||
    decide (a / 4 = (DMA_CTL_GO n).addr / 4))

/-- A cluster writes register space that R263 opens to it: a write that starts work waits for its earlier stores (Table 6-15). -/
def State.regStore (s : State) (h : Hart) (pl : Place) (d : List Byte) : State :=
  (if startsWork (regOff pl) then s.cluDrain h else s).regWrite (.clu h) (regOff pl) d

/-- Writes the bytes `d`, which lie within one line, at a place; `detail` is the TRAPDETAIL of a denial, which a line keeps with its last
writer. The result is `ok []`, `denied`, `ue` or `stall`. (DEDUCED: assumptions 63, 67.) -/
def State.cluPut (s : State) (h : Hart) (pl : Place) (ea detail : Nat) (d : List Byte) (strm : Bool) : Got × State :=
  let q := s.cluReq h.part h.clu
  if s.isRegs pl then
    if s.cluAdmits h (regOff pl) true then (.ok [], s.regStore h pl d) else (.denied, s)
  else if s.useCache h pl then
    let r := s.cacheWrite h.part h.clu q (localPa pl.pa) d ⟨q.cid, h.clu, ea - pl.pa % 128, detail⟩ strm
    match r.1 with
    | none => (.ok [], r.2)
    | some .stall => (.stall, s)
    | some (.denied _) => (.denied, r.2)
    | some .ue => (.ue, r.2)
  else
    let r := s.physWrite q pl.pa d
    match r.1 with
    | .denied _ => (.denied, r.2)
    | _ => (.ok [], if s.isLocal pl.pa then r.2.noteStore h.part h.clu (localPa pl.pa) else r.2)

/-- A store at a place: a denial comes back as an abort after it has retired (R128). The result is `ok []`, `ue` or `stall`.
(DESIGN CHOICE: assumption 61.) -/
def State.cluStore (s : State) (h : Hart) (pl : Place) (ea detail : Nat) (d : List Byte) (strm : Bool) : Got × State :=
  let r := s.cluPut h pl ea detail d strm
  match r.1 with
  | .denied => (.ok [], r.2.pendAbort h.part h.clu ea detail)
  | g => (g, r.2)

/-- Where an AMO or CAS at a place is denied before it starts: both permissions are needed (R267), of the register for the write (R263),
and of the granule where its request reaches a controller of this chip: uncached, or for a line the L2 does not hold.
(DEDUCED: assumption 63.) -/
def State.rmwDenied (s : State) (h : Hart) (pl : Place) (n : Nat) : Option State :=
  let q := s.cluReq h.part h.clu
  if s.isRegs pl then (if s.cluAdmits h (regOff pl) true then none else some s)
  else if !s.isLocal pl.pa || (s.useCache h pl && ((s.l2Of h.part).full.isSome || ((s.l2Of h.part).find (localPa pl.pa / 128)).isSome)) then none
  else (s.firstDenied q true true (granules (localPa pl.pa) n)).map (fun a => s.abortAt q a true)

/-- An AMO or CAS at a place (R212): the old bytes, where `f` of them says what is stored, if anything. In an L1D the line is in M also
where nothing changes; at another chip the one request carries the operands `opnd`. (DEDUCED: assumption 63.) -/
def State.cluRmw (s : State) (h : Hart) (pl : Place) (ea n : Nat) (opnd : List Byte) (f : List Byte → Option (List Byte)) : Got × State :=
  match s.rmwDenied h pl n with
  | some t => (.denied, t)
  | none =>
    if !s.isLocal pl.pa then
      let r := s.remoteAsk (s.cluReq h.part h.clu) pl.pa (.rmw n opnd)
      match r.1 with
      | .ok d => (.ok d, r.2)
      | .denied _ => (.denied, r.2)
      | .ue _ => (.ue, r.2)
    else
      let r := s.cluLoad h pl n true false
      match r.1 with
      | .ok d =>
        match (if s.useCache h pl && s.l1dOn h.part h.clu then some ((f d).getD d) else f d) with
        | none => (.ok d, r.2)
        | some d1 =>
          let w := r.2.cluPut h pl ea 3 d1 false
          match w.1 with
          | .ok _ => (.ok d, w.2)
          | g => (g, w.2)
      | g => (g, r.2)

/-! ### Traps (R124 to R129) -/

/-- Cause codes (Table 6-13). -/
def codeReserved : Nat := 1
/-- MALFORMED_OP. -/
def codeMalformed : Nat := 2
/-- PAGE_FAULT. -/
def codePage : Nat := 3
/-- CLAIM_DENIED. -/
def codeClaim : Nat := 4
/-- MISALIGNED. -/
def codeAlign : Nat := 5
/-- PRIV. -/
def codePriv : Nat := 6
/-- TILE_BUSY. -/
def codeTile : Nat := 7
/-- BREAK. -/
def codeBreak : Nat := 8

/-- A trap: cause code, TRAPADDR and TRAPDETAIL. -/
structure Trap where
  code : Nat
  addr : Nat
  detail : Nat
deriving DecidableEq, Repr

/-- An instruction as fetched: its bits as TRAPINST shows them, whether it is 32 bits long, whether only its first halfword came
(R126). -/
structure Fetched where
  bits : Nat
  wide : Bool
  partialOnly : Bool
deriving DecidableEq, Repr

/-- The instruction of word `w` (R118, R126). -/
def fetched (w : Nat) : Fetched := ⟨if w.testBit 15 then w % 2 ^ 32 else w % 2 ^ 16, w.testBit 15, false⟩

/-- TRAPCAUSE (Table 6-4). -/
def trapCause (i : Fetched) (mon imprecise : Bool) (code : Nat) : BitVec 64 :=
  BitVec.ofNat 64 (flagBit 11 i.wide + flagBit 10 i.partialOnly + flagBit 9 imprecise + flagBit 8 mon + code)

/-- A cluster halts after the one instruction of a STEP. -/
def Cluster.stepDone (k : Cluster) : Cluster := { k with halted := k.halted || k.stepping, stepping := false }

/-- Trap entry (R124): the trap registers, PPRIV, INTRAP and TRETPC are written and Hewer goes on in Monitor at TRAPVEC. `next` is the
address of the next instruction. -/
def Cluster.trapEntry (k : Cluster) (i : Fetched) (imprecise : Bool) (t : Trap) (next : BitVec 64) : Cluster :=
  { k with
    trapcause := trapCause i k.mon imprecise t.code
    trappc := k.pc
    trapnext := if t.code = codeMalformed then 0 else next
    trapinst := BitVec.ofNat 64 i.bits
    trapaddr := BitVec.ofNat 64 t.addr
    trapdetail := BitVec.ofNat 64 t.detail
    ppriv := k.mon
    intrap := true
    tretpc := k.pc
    mon := true
    pc := k.trapvec
    abort := if imprecise then none else k.abort }

/-- A trap while INTRAP = 1: the cluster halts, and its partition has a fatal compute fault (R129).
(DEDUCED: assumption 55.) -/
def State.doubleTrap (s : State) (h : Hart) : State :=
  let k := s.clu h.part h.clu
  ((s.setClu h.part h.clu { k with halted := true, stepping := false }).setFlag (CLU_STS_DOUBLE_TRAP h.part h.clu) true).computeFatal
    h.part 1 h.clu

/-- Raises a trap: a double trap under INTRAP, else trap entry with LAST_CAUSE and the trap count (R124, R129, R133).
(DEDUCED: assumption 42.) (DEDUCED: assumption 55.) -/
def State.raiseTrap (s : State) (h : Hart) (i : Fetched) (imprecise : Bool) (t : Trap) (next : BitVec 64) : State :=
  let k := s.clu h.part h.clu
  if k.intrap then s.doubleTrap h
  else
    ((s.setClu h.part h.clu (k.trapEntry i imprecise t next).stepDone).setFld (CLU_STS_LAST_CAUSE h.part h.clu) t.code).countUp
      (CLU_TRAPS_COUNT h.part h.clu)

/-- Takes a trap, or in its place reports a pending abort of an earlier store, as an imprecise CLAIM_DENIED (R128). -/
def State.takeTrap (s : State) (h : Hart) (i : Fetched) (t : Trap) (next : BitVec 64) : State :=
  match (s.clu h.part h.clu).abort with
  | some a => s.raiseTrap h i true ⟨codeClaim, a.addr.toNat, a.detail.toNat⟩ next
  | none => s.raiseTrap h i false t next

/-- TRET: Hewer goes on at TRETPC at the level in PPRIV, and INTRAP clears (Table 6-12). -/
def Cluster.trapReturn (k : Cluster) : Cluster := { k with mon := k.ppriv, intrap := false }

/-! ### Retirement -/

/-- The instruction retires and the next one is at `next` (R133). -/
def Cluster.retire (k : Cluster) (next : BitVec 64) : Cluster :=
  { k with lastPc := k.pc, pc := next, instret := k.instret + 1 }.stepDone

/-- Retires in a state whose cluster still holds the instruction's address. -/
def State.retire (s : State) (h : Hart) (next : BitVec 64) : State :=
  s.setClu h.part h.clu ((s.clu h.part h.clu).retire next)

/-- How an instruction's work ends. -/
inductive Done where
  | retire (s : State)
  | jump (s : State) (pc : BitVec 64)
  | trap (s : State) (t : Trap)
  | wait
  | ue (s : State)
deriving DecidableEq, Repr

/-! ### Fetch (R118, R126, R211, R261) -/

/-- How the fetch of an instruction ends. -/
inductive FetchRes where
  | ok
  | other
  | page (addr : Nat)
  | denied (addr : Nat)
  | wait
deriving DecidableEq, Repr

/-- Fetches one halfword at `ea`, which should be `v`: where memory holds another, the instruction is `other`. An uncorrectable error is a
PAGE_FAULT (R434). -/
def State.fetchHalf (s : State) (h : Hart) (ea v : Nat) : FetchRes × State :=
  let got := fun (d : List Byte) => if natLE d = v % 2 ^ 16 then FetchRes.ok else FetchRes.other
  let r := s.cluXlate h (.l1i h.clu) .fetch ea
  match r.1 with
  | none => (.page ea, r.2)
  | some pl =>
    if r.2.useCache h pl then
      let f := r.2.cacheFetch h.part h.clu (r.2.cluReq h.part h.clu) (localPa pl.pa) 2
      match f.1 with
      | none => (got f.2.1, f.2.2)
      | some .stall => (.wait, s)
      | some (.denied _) => (.denied ea, f.2.2)
      | some .ue => (.page ea, f.2.2)
    else if r.2.isRegs pl then (.page ea, r.2)
    else
      let f := r.2.physRead (r.2.cluReq h.part h.clu) false pl.pa 2
      match f.1 with
      | .ok d => (got d, f.2)
      | .denied _ => (.denied ea, f.2)
      | .ue _ => (.page ea, f.2)

/-- The trap of a failed fetch of the halfword at an address. (DEDUCED: assumption 56.) -/
def fetchTrap : FetchRes → Option Trap
  | .page a => some ⟨codePage, a, 2⟩
  | .denied a => some ⟨codeClaim, a, 2⟩
  | _ => none

/-- Whether a cluster issues instructions: it runs, is not halted, in reset or stalled by WFB, and its partition is up.
(DESIGN CHOICE: assumption 4.) -/
def State.issues (s : State) (h : Hart) : Bool :=
  let k := s.clu h.part h.clu
  k.running && !k.halted && !k.inReset && !k.wfb && !s.flag (PCTL_STS_FAILED h.part) && s.awake h.part

/-- What decides the kind of an encoding on a cluster. -/
def State.kindCtx (s : State) (h : Hart) : KindCtx :=
  let k := s.clu h.part h.clu
  ⟨isaBits s.product.narrow k.isamask, k.sew.toNat, k.mon⟩

/-- The length in bytes of an instruction. -/
def instLen (w : Nat) : BitVec 64 := if w.testBit 15 then 4 else 2

/-- Finishes a fetched instruction `w` by how its work ended. -/
def State.finishInst (s : State) (h : Hart) (w : Nat) (d : Done) : State :=
  match d with
  | .retire t => t.retire h ((s.clu h.part h.clu).pc + instLen w)
  | .jump t a => t.retire h a
  | .trap t c => t.takeTrap h (fetched w) c ((s.clu h.part h.clu).pc + instLen w)
  | .wait => s
  | .ue t => t.cluUe h.part h.clu

/-- Executes the fetched instruction `w`: its kind in the order of R125, a pending abort at a report point (`rep`, R128), its work. -/
def State.runInst (s : State) (h : Hart) (w : Nat) (rep : Bool) (body : State → Done) : State :=
  match kindOf (s.kindCtx h) w with
  | .malformed => s.finishInst h w (.trap s ⟨codeMalformed, 0, 0⟩)
  | .reserved => s.finishInst h w (.trap s ⟨codeReserved, 0, 0⟩)
  | .priv => s.finishInst h w (.trap s ⟨codePriv, 0, 0⟩)
  | .assigned =>
    if rep && (s.clu h.part h.clu).abort.isSome then s.finishInst h w (.trap s ⟨codeClaim, 0, 0⟩)
    else s.finishInst h w (body s)

/-- A failed fetch at the first halfword, of which nothing came: TRAPINST is 0 and the next instruction's address is open (R126).
(DEDUCED: assumption 56.) -/
def State.fetchFail (s : State) (h : Hart) (t : Trap) : State :=
  let r := s.freshBits
  r.2.takeTrap h ⟨0, false, false⟩ t r.1

/-- Fetches the halfwords of `w` at the present instruction address (R118, R126): the result, and whether it is of the second halfword. The
bits that memory holds decide which instruction it is: it is `w` only where they are the bits of `w` (R119, R121).
(DESIGN CHOICE: assumption 58.) -/
def State.fetchInst (s : State) (h : Hart) (w : Nat) : FetchRes × Bool × State :=
  let pc := (s.clu h.part h.clu).pc.toNat
  let a := s.fetchHalf h pc w
  match a.1 with
  | .ok =>
    if w.testBit 15 then
      let b := a.2.fetchHalf h ((pc + 2) % 2 ^ 64) (w / 2 ^ 16)
      (b.1, true, b.2)
    else (.ok, false, a.2)
  | r => (r, false, a.2)

/-- Issues instruction `w`: nothing happens on a cluster that issues none, or whose next instruction is another.
(DESIGN CHOICE: assumption 58.) -/
def State.issue (s : State) (h : Hart) (w : Nat) (rep : Bool) (body : State → Done) : State :=
  if !s.issues h then s
  else
    let f := s.fetchInst h w
    match f.1 with
    | .ok => f.2.2.runInst h w rep body
    | .wait => s
    | r => match fetchTrap r with
      | some t =>
        if f.2.1 then
          f.2.2.takeTrap h ⟨w % 2 ^ 16, true, true⟩ t ((s.clu h.part h.clu).pc + 4)
        else f.2.2.fetchFail h t
      | none => s

/-- An instruction whose whole work is on its own cluster: it changes the cluster by `f`. -/
def State.cluWork (h : Hart) (f : Cluster → Cluster) (s : State) : Done := .retire (s.setClu h.part h.clu (f (s.clu h.part h.clu)))

/-! ### Memory instructions (R125, R148, R183, R266) -/

/-- TRAPDETAIL of a scalar access: UNIT 0 and ACCESS (Table 6-4). (DEDUCED: assumption 42.)
(DEDUCED: assumption 57.) -/
def scalarDetail (acc : Nat) : Nat := acc

/-- One access of a vector or tile instruction: its element index, effective address and length, which lie within one cache line. -/
structure Item where
  idx : Nat
  ea : Nat
  n : Nat
deriving DecidableEq, Repr

/-- An item whose page has been translated. -/
structure Placed where
  it : Item
  pl : Place
deriving DecidableEq, Repr

/-- Translates every item: those that fail, and the places of the others (R148). -/
def State.xlateAll (s : State) (h : Hart) (k : Access) : List Item → List Item × List Placed × State
  | [] => ([], [], s)
  | i :: t =>
    let r := s.dataXlate h k i.ea
    let u := r.2.xlateAll h k t
    match r.1 with
    | none => (i :: u.1, u.2.1, u.2.2)
    | some pl => (u.1, ⟨i, pl⟩ :: u.2.1, u.2.2)

/-- The lowest address of the items (of none, 0). -/
def lowEa (l : List Item) : Nat := (l.map (fun i => i.ea)).foldl min ((l.map (fun i => i.ea)).headD 0)

/-- The lowest element index of the items (of none, 0). -/
def lowIdx (l : List Item) : Nat := (l.map (fun i => i.idx)).foldl min ((l.map (fun i => i.idx)).headD 0)

/-- How a group of accesses ended: the bytes of each item in order, the items denied, or why not. -/
inductive Got2 where
  | ok (d : List (Item × List Byte))
  | denied (l : List Item)
  | ue
  | stall
deriving DecidableEq, Repr

/-- Loads every item. -/
def State.loadAll (s : State) (h : Hart) (strm : Bool) : List Placed → Got2 × State
  | [] => (.ok [], s)
  | x :: t =>
    let r := s.cluLoad h x.pl x.it.n false strm
    match r.1 with
    | .stall => (.stall, r.2)
    | .ue => (.ue, r.2)
    | .denied =>
      let u := r.2.loadAll h strm t
      match u.1 with
      | .ok _ => (.denied [x.it], u.2)
      | .denied l => (.denied (x.it :: l), u.2)
      | g => (g, u.2)
    | .ok d =>
      let u := r.2.loadAll h strm t
      match u.1 with
      | .ok l => (.ok ((x.it, d) :: l), u.2)
      | g => (g, u.2)

/-- Stores every item in order with its bytes; `detail` gives the TRAPDETAIL of an item that is denied. The items denied, or why not. -/
def State.storeAll (s : State) (h : Hart) (strm : Bool) (detail : Item → Nat) : List (Placed × List Byte) → Got2 × State
  | [] => (.denied [], s)
  | (x, d) :: t =>
    let r := s.cluPut h x.pl x.it.ea (detail x.it) d strm
    match r.1 with
    | .ue => (.ue, r.2)
    | .stall => (.stall, r.2)
    | g =>
      let u := r.2.storeAll h strm detail t
      match u.1 with
      | .denied l => (.denied (if g = .denied then x.it :: l else l), u.2)
      | e => (e, u.2)

/-- The abort of an instruction's denied stores comes back: the lowest denied address, and the details of the items (R128, Table 6-13). -/
def State.storesDenied (s : State) (h : Hart) (detail : List Item → Nat) (l : List Item) : State :=
  if l = [] then s else s.pendAbort h.part h.clu (lowEa l) (detail l)

/-- A load of items: all translated before any byte moves; the trap details are given by the failing items (R148, R183). -/
def State.itemLoad (s : State) (h : Hart) (strm : Bool) (items : List Item) (detail : List Item → Nat)
    (k : State → List (Item × List Byte) → Done) : Done :=
  let x := s.xlateAll h .read items
  if x.1 ≠ [] then .trap x.2.2 ⟨codePage, lowEa x.1, detail x.1⟩
  else
    let r := x.2.2.loadAll h strm x.2.1
    match r.1 with
    | .ok l => k r.2 l
    | .denied l => .trap r.2 ⟨codeClaim, lowEa l, detail l⟩
    | .ue => .ue r.2
    | .stall => .wait

/-- A store of items with their bytes. -/
def State.itemStore (s : State) (h : Hart) (strm : Bool) (items : List (Item × List Byte)) (detail : List Item → Nat) : Done :=
  let x := s.xlateAll h .write (items.map (fun i => i.1))
  if x.1 ≠ [] then .trap x.2.2 ⟨codePage, lowEa x.1, detail x.1⟩
  else
    let r := x.2.2.storeAll h strm (fun i => detail [i]) (x.2.1.zip (items.map (fun i => i.2)))
    match r.1 with
    | .denied l => .retire (r.2.storesDenied h detail l)
    | .ue => .ue r.2
    | _ => .wait

end Sys2Proof.Machine
end

