-- ==== Sys2Proof/Machine/HewerFp.lean ====
section
/-!
DEFINITION. Machine/HewerFp.lean: scalar floating point of Hewer (Table 6-10, R122).
-/
namespace Sys2Proof.Machine

/-- A scalar FP result: F[rd] boxed, flags accrued (R122, 6.3). -/
def Cluster.setFRes (k : Cluster) (t : Fmt) (rd : BitVec 5) (r : FRes) : Cluster := (k.setF rd (box t r.bits)).accrue r.flags

/-- An FP-R instruction of code `f6` whose work changes the cluster by `f`, given its environment and format. -/
def State.fpR (s : State) (h : Hart) (f6 : Nat) (a : FArgs) (f : FEnv → Fmt → Cluster → Cluster) : State :=
  s.issue h (encF f6 a) false (fun t => t.cluWork h (f (t.fEnv h a.rm) (fmtOf a.fmt)))

/-- A two-operand FP instruction into F[rd]. -/
def fp2 (a : FArgs) (op : FEnv → Fmt → Nat → Nat → FRes) (g : FEnv) (t : Fmt) (k : Cluster) : Cluster :=
  k.setFRes t a.rd (op g t (k.fOp t a.rs1) (k.fOp t a.rs2))

/-- FADD. -/
def execFadd (h : Hart) (a : FArgs) (s : State) : Host.Outcome State Fault Refusal := .next (s.fpR h 0 a (fp2 a (fun g t => fAdd g t t)))
/-- FSUB. -/
def execFsub (h : Hart) (a : FArgs) (s : State) : Host.Outcome State Fault Refusal := .next (s.fpR h 1 a (fp2 a (fun g t => fSub g t t)))
/-- FMUL. -/
def execFmul (h : Hart) (a : FArgs) (s : State) : Host.Outcome State Fault Refusal := .next (s.fpR h 2 a (fp2 a (fun g t => fMul g t t)))
/-- FDIV. -/
def execFdiv (h : Hart) (a : FArgs) (s : State) : Host.Outcome State Fault Refusal := .next (s.fpR h 3 a (fp2 a fDiv))
/-- FSQRT of F[rs1]. -/
def execFsqrt (h : Hart) (a : FArgs) (s : State) : Host.Outcome State Fault Refusal := .next (s.fpR h 4 a (fp2 a (fun g t x _ => fSqrt g t x)))
/-- FMIN; the result for one NaN operand is open (assumption 10).
(DESIGN CHOICE: assumption 10.) -/
def execFmin (h : Hart) (a : FArgs) (s : State) : Host.Outcome State Fault Refusal :=
  .next (s.fpR h 5 a (fp2 a (fun g t => fMinMax g t Config.fminNumber false)))
/-- FMAX. (DESIGN CHOICE: assumption 10.) -/
def execFmax (h : Hart) (a : FArgs) (s : State) : Host.Outcome State Fault Refusal :=
  .next (s.fpR h 6 a (fp2 a (fun g t => fMinMax g t Config.fminNumber true)))
/-- FSGNJ: F[rs1] with the sign of F[rs2]. -/
def execFsgnj (h : Hart) (a : FArgs) (s : State) : Host.Outcome State Fault Refusal := .next (s.fpR h 7 a (fp2 a (fun _ t x y => ⟨fSgnj t 0 x y, 0⟩)))
/-- FSGNJN: with the opposite sign. -/
def execFsgnjn (h : Hart) (a : FArgs) (s : State) : Host.Outcome State Fault Refusal := .next (s.fpR h 8 a (fp2 a (fun _ t x y => ⟨fSgnj t 1 x y, 0⟩)))
/-- FSGNJX: with the exclusive or of the signs. -/
def execFsgnjx (h : Hart) (a : FArgs) (s : State) : Host.Outcome State Fault Refusal := .next (s.fpR h 9 a (fp2 a (fun _ t x y => ⟨fSgnj t 2 x y, 0⟩)))

/-- An FP compare into X[rd] (R122, R160). -/
def fpCmp (a : FArgs) (op : Nat) (g : FEnv) (t : Fmt) (k : Cluster) : Cluster :=
  let r := fCmp g t op (k.fOp t a.rs1) (k.fOp t a.rs2)
  (k.setX a.rd (if r.1 then 1 else 0)).accrue r.2

/-- FEQ. -/
def execFeq (h : Hart) (a : FArgs) (s : State) : Host.Outcome State Fault Refusal := .next (s.fpR h 10 a (fpCmp a 0))
/-- FLT. -/
def execFlt (h : Hart) (a : FArgs) (s : State) : Host.Outcome State Fault Refusal := .next (s.fpR h 11 a (fpCmp a 1))
/-- FLE. -/
def execFle (h : Hart) (a : FArgs) (s : State) : Host.Outcome State Fault Refusal := .next (s.fpR h 12 a (fpCmp a 2))
/-- FCLASS: X[rd] ← the class of F[rs1], whose coding is open (assumption 11).
(DESIGN CHOICE: assumption 11.) -/
def execFclass (h : Hart) (a : FArgs) (s : State) : Host.Outcome State Fault Refusal :=
  .next (s.fpR h 13 a (fun _ t k => k.setX a.rd (Config.fclassWord t.w (BitVec.ofNat 64 (k.fOp t a.rs1)))))

/-- FCVT.F.F: from the format rs2[1:0] to FMT (Table 6-10, R168). -/
def execFcvtFF (h : Hart) (a : FArgs) (s : State) : Host.Outcome State Fault Refusal :=
  .next (s.fpR h 16 a (fun g t k =>
    let src := fmtOf (a.rs2.extractLsb' 0 2)
    k.setFRes t a.rd (cvtFF g src t (k.fOp src a.rs1))))

/-- The integer type of FCVT: rs2[0] unsigned, rs2[1] 32 bits (assumption 46 for FCVT.X.F).
(DEDUCED: assumption 46.) -/
def cvtSigned (rs2 : BitVec 5) : Bool := !rs2.getLsbD 0
/-- Its width. (DEDUCED: assumption 46.) -/
def cvtWidth (rs2 : BitVec 5) : Nat := if rs2.getLsbD 1 then 32 else 64

/-- FCVT.X.F: X[rd] ← the integer; the upper half of a 32-bit result is open (assumption 46).
(DEDUCED: assumption 46.) -/
def execFcvtXF (h : Hart) (a : FArgs) (s : State) : Host.Outcome State Fault Refusal :=
  .next (s.issue h (encF 17 a) false (fun u =>
    let g := u.fEnv h a.rm
    let t := fmtOf a.fmt
    let r := cvtFI g.rm t (cvtSigned a.rs2) (cvtWidth a.rs2) (t.decode ((u.clu h.part h.clu).fOp t a.rs1))
    let f := u.freshBits
    if a.rs2.getLsbD 1 then
      f.2.cluWork h (fun k => (k.setX a.rd (f.1.extractLsb' 32 32 ++ BitVec.ofNat 32 r.bits)).accrue r.flags)
    else u.cluWork h (fun k => (k.setX a.rd (BitVec.ofNat 64 r.bits)).accrue r.flags)))

/-- FCVT.F.X. -/
def execFcvtFX (h : Hart) (a : FArgs) (s : State) : Host.Outcome State Fault Refusal :=
  .next (s.fpR h 18 a (fun g t k =>
    k.setFRes t a.rd (cvtIF g t (codeInt (cvtSigned a.rs2) (cvtWidth a.rs2) (k.getX a.rs1).toNat))))

/-- FMV.X.F: X[rd] ← the bits of F[rs1]; above a narrower format they are open (assumption 47).
(DEDUCED: assumption 43.) (DESIGN CHOICE: assumption 47.) -/
def execFmvXF (h : Hart) (a : FArgs) (s : State) : Host.Outcome State Fault Refusal :=
  .next (s.issue h (encF 19 a) false (fun u =>
    let t := fmtOf a.fmt
    let v := (u.clu h.part h.clu).fOp t a.rs1
    let f := u.freshBits
    if t.w = 64 then u.cluWork h (fun k => k.setX a.rd (BitVec.ofNat 64 v))
    else f.2.cluWork h (fun k => k.setX a.rd (BitVec.ofNat 64 (f.1.toNat / 2 ^ t.w * 2 ^ t.w + v)))))

/-- FMV.F.X: F[rd] ← the low bits of X[rs1], boxed. -/
def execFmvFX (h : Hart) (a : FArgs) (s : State) : Host.Outcome State Fault Refusal :=
  .next (s.fpR h 20 a (fun _ t k => k.setF a.rd (box t (k.getX a.rs1).toNat)))

/-! ### FP-FMA: one rounding (R122) -/

/-- An FP-FMA instruction: (−1)^np × rs1 × rs2 + (−1)^nc × rs3. -/
def State.fpFma (s : State) (h : Hart) (major neg : Nat) (a : F4Args) (np nc : Bool) : State :=
  s.issue h (encF4 major neg a) false (fun u => u.cluWork h (fun k =>
    let t := fmtOf a.fmt
    k.setFRes t a.rd (fFma (u.fEnv h a.rm) t t np nc (k.fOp t a.rs1) (k.fOp t a.rs2) (k.fOp t a.rs3))))

/-- FMADD: rs1 × rs2 + rs3. -/
def execFmadd (h : Hart) (a : F4Args) (s : State) : Host.Outcome State Fault Refusal := .next (s.fpFma h 13 0 a false false)
/-- FMSUB: rs1 × rs2 − rs3. -/
def execFmsub (h : Hart) (a : F4Args) (s : State) : Host.Outcome State Fault Refusal := .next (s.fpFma h 13 1 a false true)
/-- FNMADD: −(rs1 × rs2) − rs3 (assumption 48). (PRESUMED: assumption 48.) -/
def execFnmadd (h : Hart) (a : F4Args) (s : State) : Host.Outcome State Fault Refusal := .next (s.fpFma h 14 0 a true true)
/-- FNMSUB: −(rs1 × rs2) + rs3 (assumption 48). (PRESUMED: assumption 48.) -/
def execFnmsub (h : Hart) (a : F4Args) (s : State) : Host.Outcome State Fault Refusal := .next (s.fpFma h 14 1 a true false)

end Sys2Proof.Machine
end

