-- ==== Sys2Proof/Machine/HewerInt.lean ====
section
/-!
DEFINITION. Machine/HewerInt.lean: scalar integer arithmetic, branches and jumps of Hewer (Tables 6-8 and 6-10).
-/
namespace Sys2Proof.Machine

/-! ### Integer functions (R122, Table 6-10) -/

/-- 1 or 0. -/
def ofBool64 (b : Bool) : BitVec 64 := if b then 1 else 0

/-- The high 64 bits of an exact product. -/
def mulHigh (a b : Int) : BitVec 64 := BitVec.ofInt 64 (a * b / 2 ^ 64)

/-- DIV: by zero all ones; the minimum by −1 is the minimum. -/
def divS (a b : BitVec 64) : BitVec 64 := if b = 0 then BitVec.allOnes 64 else BitVec.ofInt 64 (a.toInt.tdiv b.toInt)

/-- DIVU: by zero all ones. -/
def divU (a b : BitVec 64) : BitVec 64 := if b = 0 then BitVec.allOnes 64 else BitVec.ofNat 64 (a.toNat / b.toNat)

/-- REM: by zero the dividend; the minimum by −1 is 0. -/
def remS (a b : BitVec 64) : BitVec 64 := if b = 0 then a else BitVec.ofInt 64 (a.toInt.tmod b.toInt)

/-- REMU: by zero the dividend. -/
def remU (a b : BitVec 64) : BitVec 64 := if b = 0 then a else BitVec.ofNat 64 (a.toNat % b.toNat)

/-- The number of set bits among the low `n`. -/
def popUpto (x : Nat) (n : Nat) : Nat := ((List.range n).filter (fun i => x.testBit i)).length

/-- The index of the lowest set bit, or 64. -/
def ctz64 (a : BitVec 64) : Nat := ((List.range 64).find? (fun i => a.getLsbD i)).getD 64

/-- The number of zero bits above the highest set bit, or 64. -/
def clz64 (a : BitVec 64) : Nat := 64 - bitLen a.toNat

/-- The bytes in reverse order. -/
def rev8 (a : BitVec 64) : BitVec 64 := BitVec.ofNat 64 (natLE (bytesLE 8 a.toNat).reverse)

/-- An INT-R instruction of code `f8` that computes `f`. -/
def State.intR (s : State) (h : Hart) (f8 : Nat) (a : RArgs) (f : BitVec 64 → BitVec 64 → BitVec 64) : State :=
  s.issue h (encR 1 f8 a.rd.toNat a.rs1.toNat a.rs2.toNat false false) false
    (State.cluWork h (fun k => k.setX a.rd (f (k.getX a.rs1) (k.getX a.rs2))))

/-- An INT-I instruction of code `f4` that computes `f` of X[rs1] and the immediate, sign-extended. -/
def State.intI (s : State) (h : Hart) (f4 : Nat) (a : IArgs) (f : BitVec 64 → BitVec 64 → BitVec 64) : State :=
  s.issue h (encI 2 f4 a.rd.toNat a.rs1.toNat a.imm.toNat) false
    (State.cluWork h (fun k => k.setX a.rd (f (k.getX a.rs1) (a.imm.signExtend 64))))

/-- The shift amount of an operand, bits [5:0]. -/
def sh6 (b : BitVec 64) : Nat := b.toNat % 64

/-! ### INT-R -/

/-- ADD: x[rd] ← x[rs1] + x[rs2]. -/
def execAdd (h : Hart) (a : RArgs) (s : State) : Host.Outcome State Fault Refusal := .next (s.intR h 0 a (fun x y => x + y))
/-- SUB: difference. -/
def execSub (h : Hart) (a : RArgs) (s : State) : Host.Outcome State Fault Refusal := .next (s.intR h 1 a (fun x y => x - y))
/-- AND: bitwise and. -/
def execAnd (h : Hart) (a : RArgs) (s : State) : Host.Outcome State Fault Refusal := .next (s.intR h 2 a (fun x y => x &&& y))
/-- OR: bitwise or. -/
def execOr (h : Hart) (a : RArgs) (s : State) : Host.Outcome State Fault Refusal := .next (s.intR h 3 a (fun x y => x ||| y))
/-- XOR: bitwise exclusive or. -/
def execXor (h : Hart) (a : RArgs) (s : State) : Host.Outcome State Fault Refusal := .next (s.intR h 4 a (fun x y => x ^^^ y))
/-- SLL: shift left. -/
def execSll (h : Hart) (a : RArgs) (s : State) : Host.Outcome State Fault Refusal := .next (s.intR h 5 a (fun x y => x <<< sh6 y))
/-- SRL: shift right, zeros in. -/
def execSrl (h : Hart) (a : RArgs) (s : State) : Host.Outcome State Fault Refusal := .next (s.intR h 6 a (fun x y => x >>> sh6 y))
/-- SRA: shift right, sign in. -/
def execSra (h : Hart) (a : RArgs) (s : State) : Host.Outcome State Fault Refusal := .next (s.intR h 7 a (fun x y => x.sshiftRight (sh6 y)))
/-- SLT: signed less-than. -/
def execSlt (h : Hart) (a : RArgs) (s : State) : Host.Outcome State Fault Refusal := .next (s.intR h 8 a (fun x y => ofBool64 (x.slt y)))
/-- SLTU: unsigned less-than. -/
def execSltu (h : Hart) (a : RArgs) (s : State) : Host.Outcome State Fault Refusal := .next (s.intR h 9 a (fun x y => ofBool64 (x.ult y)))
/-- MIN: signed minimum. -/
def execMin (h : Hart) (a : RArgs) (s : State) : Host.Outcome State Fault Refusal := .next (s.intR h 10 a (fun x y => if x.slt y then x else y))
/-- MAX: signed maximum. -/
def execMax (h : Hart) (a : RArgs) (s : State) : Host.Outcome State Fault Refusal := .next (s.intR h 11 a (fun x y => if x.slt y then y else x))
/-- MINU: unsigned minimum. -/
def execMinu (h : Hart) (a : RArgs) (s : State) : Host.Outcome State Fault Refusal := .next (s.intR h 12 a (fun x y => if x.ult y then x else y))
/-- MAXU: unsigned maximum. -/
def execMaxu (h : Hart) (a : RArgs) (s : State) : Host.Outcome State Fault Refusal := .next (s.intR h 13 a (fun x y => if x.ult y then y else x))
/-- MUL: low 64 bits of the product. -/
def execMul (h : Hart) (a : RArgs) (s : State) : Host.Outcome State Fault Refusal := .next (s.intR h 16 a (fun x y => x * y))
/-- MULH: high 64 bits, signed. -/
def execMulh (h : Hart) (a : RArgs) (s : State) : Host.Outcome State Fault Refusal := .next (s.intR h 17 a (fun x y => mulHigh x.toInt y.toInt))
/-- MULHU: high 64 bits, unsigned. -/
def execMulhu (h : Hart) (a : RArgs) (s : State) : Host.Outcome State Fault Refusal := .next (s.intR h 18 a (fun x y => mulHigh x.toNat y.toNat))
/-- MULHSU: high 64 bits, rs1 signed, rs2 unsigned. (PRESUMED: assumption 53.) -/
def execMulhsu (h : Hart) (a : RArgs) (s : State) : Host.Outcome State Fault Refusal := .next (s.intR h 19 a (fun x y => mulHigh x.toInt y.toNat))
/-- DIV: signed quotient. (PRESUMED: assumption 53.) -/
def execDiv (h : Hart) (a : RArgs) (s : State) : Host.Outcome State Fault Refusal := .next (s.intR h 20 a (fun x y => divS x y))
/-- DIVU: unsigned quotient. -/
def execDivu (h : Hart) (a : RArgs) (s : State) : Host.Outcome State Fault Refusal := .next (s.intR h 21 a (fun x y => divU x y))
/-- REM: signed remainder. (PRESUMED: assumption 53.) -/
def execRem (h : Hart) (a : RArgs) (s : State) : Host.Outcome State Fault Refusal := .next (s.intR h 22 a (fun x y => remS x y))
/-- REMU: unsigned remainder. -/
def execRemu (h : Hart) (a : RArgs) (s : State) : Host.Outcome State Fault Refusal := .next (s.intR h 23 a (fun x y => remU x y))
/-- CLZ: leading zero bits of X[rs1]; rs2 is MBZ. -/
def execClz (h : Hart) (a : RArgs) (s : State) : Host.Outcome State Fault Refusal := .next (s.intR h 32 a (fun x _ => BitVec.ofNat 64 (clz64 x)))
/-- CTZ: trailing zero bits of X[rs1]; rs2 is MBZ. -/
def execCtz (h : Hart) (a : RArgs) (s : State) : Host.Outcome State Fault Refusal := .next (s.intR h 33 a (fun x _ => BitVec.ofNat 64 (ctz64 x)))
/-- POPC: set bits of X[rs1]; rs2 is MBZ. -/
def execPopc (h : Hart) (a : RArgs) (s : State) : Host.Outcome State Fault Refusal := .next (s.intR h 34 a (fun x _ => BitVec.ofNat 64 (popUpto x.toNat 64)))
/-- REV8: X[rs1] with its bytes reversed; rs2 is MBZ. -/
def execRev8 (h : Hart) (a : RArgs) (s : State) : Host.Outcome State Fault Refusal := .next (s.intR h 35 a (fun x _ => rev8 x))

/-! ### INT-I, LUI and AUIPC -/

/-- ADDI. -/
def execAddi (h : Hart) (a : IArgs) (s : State) : Host.Outcome State Fault Refusal := .next (s.intI h 0 a (fun x y => x + y))
/-- ANDI. -/
def execAndi (h : Hart) (a : IArgs) (s : State) : Host.Outcome State Fault Refusal := .next (s.intI h 1 a (fun x y => x &&& y))
/-- ORI. -/
def execOri (h : Hart) (a : IArgs) (s : State) : Host.Outcome State Fault Refusal := .next (s.intI h 2 a (fun x y => x ||| y))
/-- XORI. -/
def execXori (h : Hart) (a : IArgs) (s : State) : Host.Outcome State Fault Refusal := .next (s.intI h 3 a (fun x y => x ^^^ y))
/-- SLTI. -/
def execSlti (h : Hart) (a : IArgs) (s : State) : Host.Outcome State Fault Refusal := .next (s.intI h 4 a (fun x y => ofBool64 (x.slt y)))
/-- SLTIU. -/
def execSltiu (h : Hart) (a : IArgs) (s : State) : Host.Outcome State Fault Refusal := .next (s.intI h 5 a (fun x y => ofBool64 (x.ult y)))
/-- SLLI. -/
def execSlli (h : Hart) (a : IArgs) (s : State) : Host.Outcome State Fault Refusal := .next (s.intI h 6 a (fun x y => x <<< sh6 y))
/-- SRLI. -/
def execSrli (h : Hart) (a : IArgs) (s : State) : Host.Outcome State Fault Refusal := .next (s.intI h 7 a (fun x y => x >>> sh6 y))
/-- SRAI. -/
def execSrai (h : Hart) (a : IArgs) (s : State) : Host.Outcome State Fault Refusal := .next (s.intI h 8 a (fun x y => x.sshiftRight (sh6 y)))

/-- LUI: rd ← sext(imm21) << 12 (Table 6-8). -/
def execLui (h : Hart) (a : UArgs) (s : State) : Host.Outcome State Fault Refusal :=
  .next (s.issue h (encU 3 a) false (State.cluWork h (fun k => k.setX a.rd (a.imm.signExtend 64 <<< 12))))

/-- AUIPC: the same, plus the instruction address. -/
def execAuipc (h : Hart) (a : UArgs) (s : State) : Host.Outcome State Fault Refusal :=
  .next (s.issue h (encU 4 a) false (State.cluWork h (fun k => k.setX a.rd (k.pc + a.imm.signExtend 64 <<< 12))))

/-! ### Branches and jumps -/

/-- The work of a branch: taken, to the offset in halfwords from its own address. -/
def State.branchWork (h : Hart) (rs1 rs2 : BitVec 5) (off : BitVec 64) (f : BitVec 64 → BitVec 64 → Bool) (s : State) : Done :=
  let k := s.clu h.part h.clu
  if f (k.getX rs1) (k.getX rs2) then .jump s (k.pc + off <<< 1) else .retire s

/-- A BRANCH of code `c` on condition `f`. -/
def State.branch (s : State) (h : Hart) (c : Nat) (a : BArgs) (f : BitVec 64 → BitVec 64 → Bool) : State :=
  s.issue h (encB c a) false (State.branchWork h a.rs1 a.rs2 (a.imm.signExtend 64) f)

/-- BEQ. -/
def execBeq (h : Hart) (a : BArgs) (s : State) : Host.Outcome State Fault Refusal := .next (s.branch h 0 a (fun x y => x == y))
/-- BNE. -/
def execBne (h : Hart) (a : BArgs) (s : State) : Host.Outcome State Fault Refusal := .next (s.branch h 1 a (fun x y => x != y))
/-- BLT. -/
def execBlt (h : Hart) (a : BArgs) (s : State) : Host.Outcome State Fault Refusal := .next (s.branch h 2 a (fun x y => x.slt y))
/-- BGE. -/
def execBge (h : Hart) (a : BArgs) (s : State) : Host.Outcome State Fault Refusal := .next (s.branch h 3 a (fun x y => !x.slt y))
/-- BLTU. -/
def execBltu (h : Hart) (a : BArgs) (s : State) : Host.Outcome State Fault Refusal := .next (s.branch h 4 a (fun x y => x.ult y))
/-- BGEU. -/
def execBgeu (h : Hart) (a : BArgs) (s : State) : Host.Outcome State Fault Refusal := .next (s.branch h 5 a (fun x y => !x.ult y))

/-- JAL: rd ← the address after it; jump by imm21 halfwords (Table 6-8). -/
def execJal (h : Hart) (a : UArgs) (s : State) : Host.Outcome State Fault Refusal :=
  .next (s.issue h (encU 8 a) false (fun t =>
    let k := t.clu h.part h.clu
    .jump (t.setClu h.part h.clu (k.setX a.rd (k.pc + 4))) (k.pc + a.imm.signExtend 64 <<< 1)))

/-- JALR: rd ← the address after it; jump to X[rs1] + imm12. A target with bit 0 = 1 is MISALIGNED (Table 6-13).
(DEDUCED: assumption 57.) -/
def execJalr (h : Hart) (a : IArgs) (s : State) : Host.Outcome State Fault Refusal :=
  .next (s.issue h (encI 9 0 a.rd.toNat a.rs1.toNat a.imm.toNat) false (fun t =>
    let k := t.clu h.part h.clu
    let tgt := k.getX a.rs1 + a.imm.signExtend 64
    if tgt.getLsbD 0 then .trap t ⟨codeAlign, tgt.toNat, 2⟩
    else .jump (t.setClu h.part h.clu (k.setX a.rd (k.pc + 4))) tgt))

end Sys2Proof.Machine
end

