-- ==== Sys2Proof/Machine/HewerMem.lean ====
section
/-!
DEFINITION. Machine/HewerMem.lean: scalar loads, stores, atomics and fences of Hewer (Tables 6-10, 6-11 and 6-15).
-/
namespace Sys2Proof.Machine

/-! ### Scalar accesses (R125, R128, R266) -/

/-- The work of a scalar load of `n` bytes at `ea`: alignment, translation, claims, then `k` of the bytes.
(DEDUCED: assumption 57.) -/
def State.scalarLoad (s : State) (h : Hart) (ea n : Nat) (excl : Bool) (k : State → Nat → Done) : Done :=
  if ea % n ≠ 0 then .trap s ⟨codeAlign, ea, 0⟩
  else
    let x := s.dataXlate h .read ea
    match x.1 with
    | none => .trap x.2 ⟨codePage, ea, 0⟩
    | some pl =>
      let r := x.2.cluLoad h pl n excl false
      match r.1 with
      | .ok d => k r.2 (natLE d)
      | .denied => .trap r.2 ⟨codeClaim, ea, 0⟩
      | .ue => .ue r.2
      | .stall => .wait

/-- The work of a scalar store of the low `n` bytes of `v` at `ea`. (DEDUCED: assumption 57.) -/
def State.scalarStore (s : State) (h : Hart) (ea n v : Nat) : Done :=
  if ea % n ≠ 0 then .trap s ⟨codeAlign, ea, 1⟩
  else
    let x := s.dataXlate h .write ea
    match x.1 with
    | none => .trap x.2 ⟨codePage, ea, 1⟩
    | some pl =>
      let r := x.2.cluStore h pl ea 1 (bytesLE n v) false
      match r.1 with
      | .ok _ => .retire r.2
      | .ue => .ue r.2
      | _ => .wait

/-- The effective address of a base register and an immediate. -/
def Cluster.ea (k : Cluster) (rs1 : BitVec 5) (imm : BitVec 12) : Nat := (k.getX rs1 + imm.signExtend 64).toNat

/-- The value of a loaded integer of `n` bytes, sign-extended where `sg`. -/
def loadExt (sg : Bool) (n v : Nat) : BitVec 64 :=
  if sg then BitVec.ofInt 64 (codeInt true (8 * n) v) else BitVec.ofNat 64 v

/-- The work of an integer load into X[rd]. -/
def State.loadX (h : Hart) (rd rs1 : BitVec 5) (imm : BitVec 12) (n : Nat) (sg : Bool) (s : State) : Done :=
  s.scalarLoad h ((s.clu h.part h.clu).ea rs1 imm) n false (fun t v => t.cluWork h (fun k => k.setX rd (loadExt sg n v)))

/-- The work of an FP load into F[rd]: a binary32 value is boxed (6.3). -/
def State.loadF (h : Hart) (rd rs1 : BitVec 5) (imm : BitVec 12) (t : Fmt) (s : State) : Done :=
  s.scalarLoad h ((s.clu h.part h.clu).ea rs1 imm) (t.w / 8) false (fun u v => u.cluWork h (fun k => k.setF rd (box t v)))

/-- The work of a store of X[rs2]. -/
def State.storeX (h : Hart) (rs2 rs1 : BitVec 5) (imm : BitVec 12) (n : Nat) (s : State) : Done :=
  let k := s.clu h.part h.clu
  s.scalarStore h (k.ea rs1 imm) n (k.getX rs2).toNat

/-- The work of a store of the low bits of F[rs2]. -/
def State.storeF (h : Hart) (rs2 rs1 : BitVec 5) (imm : BitVec 12) (n : Nat) (s : State) : Done :=
  let k := s.clu h.part h.clu
  s.scalarStore h (k.ea rs1 imm) n (k.getF rs2).toNat

/-! ### LOAD and STORE (Table 6-10) -/

/-- LB: 1 byte, sign-extended. (PRESUMED: assumption 53.) -/
def execLb (h : Hart) (a : IArgs) (s : State) : Host.Outcome State Fault Refusal :=
  .next (s.issue h (encI 5 0 a.rd.toNat a.rs1.toNat a.imm.toNat) false (State.loadX h a.rd a.rs1 a.imm 1 true))
/-- LH: 2 bytes, sign-extended. (PRESUMED: assumption 53.) -/
def execLh (h : Hart) (a : IArgs) (s : State) : Host.Outcome State Fault Refusal :=
  .next (s.issue h (encI 5 1 a.rd.toNat a.rs1.toNat a.imm.toNat) false (State.loadX h a.rd a.rs1 a.imm 2 true))
/-- LW: 4 bytes, sign-extended. (PRESUMED: assumption 53.) -/
def execLw (h : Hart) (a : IArgs) (s : State) : Host.Outcome State Fault Refusal :=
  .next (s.issue h (encI 5 2 a.rd.toNat a.rs1.toNat a.imm.toNat) false (State.loadX h a.rd a.rs1 a.imm 4 true))
/-- LD: 8 bytes, sign-extended. -/
def execLd (h : Hart) (a : IArgs) (s : State) : Host.Outcome State Fault Refusal :=
  .next (s.issue h (encI 5 3 a.rd.toNat a.rs1.toNat a.imm.toNat) false (State.loadX h a.rd a.rs1 a.imm 8 true))
/-- LBU: 1 byte, zero-extended. -/
def execLbu (h : Hart) (a : IArgs) (s : State) : Host.Outcome State Fault Refusal :=
  .next (s.issue h (encI 5 4 a.rd.toNat a.rs1.toNat a.imm.toNat) false (State.loadX h a.rd a.rs1 a.imm 1 false))
/-- LHU: 2 bytes, zero-extended. -/
def execLhu (h : Hart) (a : IArgs) (s : State) : Host.Outcome State Fault Refusal :=
  .next (s.issue h (encI 5 5 a.rd.toNat a.rs1.toNat a.imm.toNat) false (State.loadX h a.rd a.rs1 a.imm 2 false))
/-- LWU: 4 bytes, zero-extended. -/
def execLwu (h : Hart) (a : IArgs) (s : State) : Host.Outcome State Fault Refusal :=
  .next (s.issue h (encI 5 6 a.rd.toNat a.rs1.toNat a.imm.toNat) false (State.loadX h a.rd a.rs1 a.imm 4 false))
/-- FLW. -/
def execFlw (h : Hart) (a : IArgs) (s : State) : Host.Outcome State Fault Refusal :=
  .next (s.issue h (encI 5 8 a.rd.toNat a.rs1.toNat a.imm.toNat) false (State.loadF h a.rd a.rs1 a.imm fmtS))
/-- FLD. -/
def execFld (h : Hart) (a : IArgs) (s : State) : Host.Outcome State Fault Refusal :=
  .next (s.issue h (encI 5 9 a.rd.toNat a.rs1.toNat a.imm.toNat) false (State.loadF h a.rd a.rs1 a.imm fmtD))
/-- SB. -/
def execSb (h : Hart) (a : SArgs) (s : State) : Host.Outcome State Fault Refusal :=
  .next (s.issue h (encS 0 a) false (State.storeX h a.rs2 a.rs1 a.imm 1))
/-- SH. -/
def execSh (h : Hart) (a : SArgs) (s : State) : Host.Outcome State Fault Refusal :=
  .next (s.issue h (encS 1 a) false (State.storeX h a.rs2 a.rs1 a.imm 2))
/-- SW. -/
def execSw (h : Hart) (a : SArgs) (s : State) : Host.Outcome State Fault Refusal :=
  .next (s.issue h (encS 2 a) false (State.storeX h a.rs2 a.rs1 a.imm 4))
/-- SD. -/
def execSd (h : Hart) (a : SArgs) (s : State) : Host.Outcome State Fault Refusal :=
  .next (s.issue h (encS 3 a) false (State.storeX h a.rs2 a.rs1 a.imm 8))
/-- FSW: the low 32 bits of F[rs2] as they stand (assumption 43). (DEDUCED: assumption 43.) -/
def execFsw (h : Hart) (a : SArgs) (s : State) : Host.Outcome State Fault Refusal :=
  .next (s.issue h (encS 8 a) false (State.storeF h a.rs2 a.rs1 a.imm 4))
/-- FSD: the low 64 bits of F[rs2] as they stand (assumption 43). (DEDUCED: assumption 43.) -/
def execFsd (h : Hart) (a : SArgs) (s : State) : Host.Outcome State Fault Refusal :=
  .next (s.issue h (encS 9 a) false (State.storeF h a.rs2 a.rs1 a.imm 8))

/-! ### ATOMIC (Table 6-11, R212) -/

/-- The word of an ATOMIC instruction of OP `op`. -/
def encAtom (op : Nat) (a : AtomArgs) : Nat := encR 10 (op * 16 + a.sz.toNat) a.rd.toNat a.rs1.toNat a.rs2.toNat a.aq a.rl

/-- The work that writes `n` bytes of value `v` to X[rd]: above a value shorter than 8 bytes the bits are open (assumption 44).
(DESIGN CHOICE: assumption 44.) -/
def State.setLow (s : State) (h : Hart) (rd : BitVec 5) (n v : Nat) : Done :=
  if n = 8 then s.cluWork h (fun k => k.setX rd (BitVec.ofNat 64 v))
  else
    let f := s.freshBits
    f.2.cluWork h (fun k => k.setX rd (BitVec.ofNat 64 (f.1.toNat / 2 ^ (8 * n) * 2 ^ (8 * n) + v)))

/-- LDAQ: rd ← [rs1]. -/
def execLdaq (h : Hart) (a : AtomArgs) (s : State) : Host.Outcome State Fault Refusal :=
  .next (s.issue h (encAtom 0 a) false (fun t =>
    t.scalarLoad h ((t.clu h.part h.clu).getX a.rs1).toNat (2 ^ a.sz.toNat) true (fun u v =>
      u.setLow h a.rd (2 ^ a.sz.toNat) v)))

/-- STRL: [rs1] ← rs2, a report point (R128). -/
def execStrl (h : Hart) (a : AtomArgs) (s : State) : Host.Outcome State Fault Refusal :=
  .next (s.issue h (encAtom 1 a) true (fun t =>
    t.scalarStore h ((t.clu h.part h.clu).getX a.rs1).toNat (2 ^ a.sz.toNat) ((t.clu h.part h.clu).getX a.rs2).toNat))

/-- The work of an AMO or CAS on `n` bytes at X[rs1]: `f` gives what is stored for the old value; rd ← the old
value. Its operands are X[rs2] and, for CAS, X[rd]. -/
def State.rmwWork (h : Hart) (a : AtomArgs) (f : Cluster → Nat → Nat → Option Nat) (s : State) : Done :=
  let k := s.clu h.part h.clu
  let n := 2 ^ a.sz.toNat
  let ea := (k.getX a.rs1).toNat
  if ea % n ≠ 0 then .trap s ⟨codeAlign, ea, 3⟩
  else
    let x := s.dataXlate h .rmw ea
    match x.1 with
    | none => .trap x.2 ⟨codePage, ea, 3⟩
    | some pl =>
      let r := x.2.cluRmw h pl ea n (bytesLE n (k.getX a.rs2).toNat ++ bytesLE n (k.getX a.rd).toNat)
        (fun d => (f k (8 * n) (natLE d)).map (bytesLE n))
      match r.1 with
      | .ok d => r.2.setLow h a.rd n (natLE d)
      | .denied => .trap r.2 ⟨codeClaim, ea, 3⟩
      | .ue => .ue r.2
      | .stall => .wait

/-- An AMO of OP `op`: the new value is `f` of width, old value and operand; with RL it is a report point (R128). -/
def State.amo (s : State) (h : Hart) (op : Nat) (a : AtomArgs) (f : Nat → Nat → Nat → Nat) : State :=
  s.issue h (encAtom op a) a.rl (State.rmwWork h a (fun k w old => some (f w old ((k.getX a.rs2).toNat % 2 ^ w))))

/-- AMOSWAP. -/
def execAmoswap (h : Hart) (a : AtomArgs) (s : State) : Host.Outcome State Fault Refusal := .next (s.amo h 2 a (fun _ _ y => y))
/-- AMOADD. -/
def execAmoadd (h : Hart) (a : AtomArgs) (s : State) : Host.Outcome State Fault Refusal := .next (s.amo h 3 a (fun w x y => (x + y) % 2 ^ w))
/-- AMOAND. -/
def execAmoand (h : Hart) (a : AtomArgs) (s : State) : Host.Outcome State Fault Refusal := .next (s.amo h 4 a (fun _ x y => x &&& y))
/-- AMOOR. -/
def execAmoor (h : Hart) (a : AtomArgs) (s : State) : Host.Outcome State Fault Refusal := .next (s.amo h 5 a (fun _ x y => x ||| y))
/-- AMOXOR. -/
def execAmoxor (h : Hart) (a : AtomArgs) (s : State) : Host.Outcome State Fault Refusal := .next (s.amo h 6 a (fun _ x y => x ^^^ y))
/-- AMOMAX. -/
def execAmomax (h : Hart) (a : AtomArgs) (s : State) : Host.Outcome State Fault Refusal := .next (s.amo h 7 a (fun w x y => if codeInt true w x < codeInt true w y then y else x))
/-- AMOMIN. -/
def execAmomin (h : Hart) (a : AtomArgs) (s : State) : Host.Outcome State Fault Refusal := .next (s.amo h 8 a (fun w x y => if codeInt true w y < codeInt true w x then y else x))
/-- AMOMAXU. -/
def execAmomaxu (h : Hart) (a : AtomArgs) (s : State) : Host.Outcome State Fault Refusal := .next (s.amo h 9 a (fun _ x y => max x y))
/-- AMOMINU. -/
def execAmominu (h : Hart) (a : AtomArgs) (s : State) : Host.Outcome State Fault Refusal := .next (s.amo h 10 a (fun _ x y => min x y))

/-- CAS: if [rs1] = X[rd] then [rs1] ← rs2; rd ← the old value. -/
def execCas (h : Hart) (a : AtomArgs) (s : State) : Host.Outcome State Fault Refusal :=
  .next (s.issue h (encAtom 11 a) a.rl (State.rmwWork h a (fun k w old =>
    if old = (k.getX a.rd).toNat % 2 ^ w then some ((k.getX a.rs2).toNat % 2 ^ w) else none)))

/-! ### Fences (Table 6-15): accesses are performed in program order, so an ordering fence only retires -/

/-- A fence of FORM `form` with work `f`: a report point (R128).
(DESIGN CHOICE: assumption 61.) -/
def State.fence (s : State) (h : Hart) (form : Nat) (f : State → State) : State :=
  s.issue h (encR 10 (192 + form) 0 0 0 false false) true (fun t => .retire (f t))

/-- FENCE.RW.RW. -/
def execFenceRwRw (h : Hart) (s : State) : Host.Outcome State Fault Refusal := .next (s.fence h 0 (fun t => t))
/-- FENCE.R.RW. -/
def execFenceRRw (h : Hart) (s : State) : Host.Outcome State Fault Refusal := .next (s.fence h 1 (fun t => t))
/-- FENCE.RW.W. -/
def execFenceRwW (h : Hart) (s : State) : Host.Outcome State Fault Refusal := .next (s.fence h 2 (fun t => t))
/-- FENCE.W.W. -/
def execFenceWW (h : Hart) (s : State) : Host.Outcome State Fault Refusal := .next (s.fence h 3 (fun t => t))
/-- FENCE.DRAIN: the cluster's earlier stores leave the write-combining buffers (R244). -/
def execFenceDrain (h : Hart) (s : State) : Host.Outcome State Fault Refusal := .next (s.fence h 4 (fun t => t.cluDrain h))

/-- Invalidates the whole L1I of a cluster (R211). -/
def State.l1iClear (s : State) (h : Hart) : State :=
  ((s.clu h.part h.clu).l1i.map (fun x => x.line)).foldl (fun t l => t.recallI h.part h.clu l) s

/-- FENCE.I (R211). -/
def execFenceI (h : Hart) (s : State) : Host.Outcome State Fault Refusal := .next (s.fence h 5 (fun t => t.l1iClear h))

end Sys2Proof.Machine
end

