-- ==== Sys2Proof/Machine/VecBase.lean ====
section
/-!
DEFINITION. Machine/VecBase.lean: elements, masks, Z0, the element-wise work of long-vector instructions, and VSETVL (7.2, 7.3).
-/
namespace Sys2Proof.Machine

/-! ### Elements (R138) -/

/-- Element `i` of width `w` of a register's value. -/
def elemOf (x w i : Nat) : Nat := x / 2 ^ (w * i) % 2 ^ w

/-- A register's value with element `i` of width `w` replaced. -/
def withElem (x w i v : Nat) : Nat := putBits x (w * i) w v

/-- The width of a SEW code. -/
def sewBits (sew : BitVec 2) : Nat := 2 ^ (3 + sew.toNat)

/-- VLMAX at the present SEW (R136). -/
def State.vlmax (s : State) (k : Cluster) : Nat := s.vlen / sewBits k.sew

/-- How many elements an instruction governs: VL, within the register (assumption 50).
(DEDUCED: assumption 50.) -/
def State.vlNow (s : State) (k : Cluster) : Nat := min k.vl (s.vlmax k)

/-- Whether element `i` is active: below `n`, and its mask bit is 1 where MASKED (R139). -/
def Cluster.activeAt (k : Cluster) (n : Nat) (masked : Bool) (mask : BitVec 3) (i : Nat) : Bool :=
  decide (i < n) && (!masked || (k.getM mask).getLsbD i)

/-- The active elements below `n`, ascending. -/
def Cluster.actives (k : Cluster) (n : Nat) (masked : Bool) (mask : BitVec 3) : List Nat :=
  (List.range n).filter (fun i => k.activeAt n masked mask i)

/-- A V source with its Z0 modifier: element `i`, or element 0 at every position (R140). -/
def Cluster.vSrc (k : Cluster) (r : BitVec 5) (z0 : Bool) (w i : Nat) : Nat := elemOf (k.getV r).toNat w (if z0 then 0 else i)

/-- The FP format of VTYPE's SEW and ALT (Table 7-2). -/
def sewFmt (sew : BitVec 2) (alt : Bool) : Fmt :=
  match sew.toNat with
  | 0 => if alt then fmtE5 else fmtE4
  | 1 => if alt then fmtBf else fmtH
  | 2 => fmtS
  | _ => fmtD

/-- Writes elements of width `w` to V[r]: the others keep their values (R139). -/
def Cluster.writeElems (k : Cluster) (r : BitVec 5) (w : Nat) (l : List (Nat × Nat)) : Cluster :=
  k.setV r (BitVec.ofNat 8192 (l.foldl (fun x e => withElem x w e.1 e.2) (k.getV r).toNat))

/-- Keeps a value within a mask register: VLENB bits (R135). -/
def State.maskBits (s : State) (x : Nat) : BitVec 1024 := BitVec.ofNat 1024 (x % 2 ^ (s.vlen / 8))

/-- A number with exactly the listed bits set. -/
def bitsSet (l : List Nat) : Nat := l.foldl (fun x i => x ||| 2 ^ i) 0

/-! ### Element-wise work -/

/-- What an element-wise instruction computes at one element: from the old destination, vs1, vs2 and the index, a code and flags. -/
abbrev ElemFn := Nat → Nat → Nat → Nat → FRes

/-- The work of an element-wise V instruction of element width `w` on `n` elements (R139, R140). -/
def vecWork (a : VArgs) (w n : Nat) (f : ElemFn) (k : Cluster) : Cluster :=
  let rs := (k.actives n a.masked a.mask).map (fun i =>
    (i, f (k.vSrc a.vd false w i) (k.vSrc a.vs1 a.z0a w i) (k.vSrc a.vs2 a.z0b w i) i))
  (k.writeElems a.vd w (rs.map (fun e => (e.1, e.2.bits)))).accrue (orFlags (rs.map (fun e => e.2)))

/-- A LV-ARITH instruction of code `f5`: integer at SEW, or FP where its function uses the environment and format (R142). -/
def State.lvArith (s : State) (h : Hart) (f5 : Nat) (a : VArgs) (f : FEnv → Fmt → Nat → ElemFn) : State :=
  s.issue h (encV 18 f5 a) false (fun t =>
    t.cluWork h (fun k =>
      vecWork a (sewBits k.sew) (t.vlNow k) (f (t.vEnv h) (sewFmt k.sew k.alt) (sewBits k.sew)) k))

/-- An exact result without flags. -/
def plain (v : Nat) : FRes := ⟨v, 0⟩

/-! ### VSETVL (R136) -/

/-- VSETVL's work: VTYPE, then VL, then rd. -/
def State.vsetWork (s : State) (rd rs1 : BitVec 5) (sew : BitVec 2) (alt : Bool) (k : Cluster) : Cluster :=
  let m := s.vlen / sewBits sew
  let n := if rs1 = 0 then m else min (k.getX rs1).toNat m
  ({ k with sew := sew, alt := alt, vl := n }).setX rd (BitVec.ofNat 64 n)

/-- VSETVL. -/
def execVsetvl (h : Hart) (a : VsetArgs) (s : State) : Host.Outcome State Fault Refusal :=
  .next (s.issue h (encVset a) false (fun t => t.cluWork h (t.vsetWork a.rd a.rs1 a.sew a.alt)))

end Sys2Proof.Machine
end

