-- ==== Sys2Proof/Machine/HewerCompact.lean ====
section
/-!
DEFINITION. Machine/HewerCompact.lean: the 16-bit forms, each with the work of its 32-bit equivalent (Table 6-5, R119, R120).
-/
namespace Sys2Proof.Machine

/-- The register X(2 + value) of a 3-bit field (R119). -/
def xPrime (b : BitVec 3) : BitVec 5 := b.setWidth 5 + 2

/-- A halfword of group `cg`. -/
def halfOf (cg lo : Nat) : Nat := cg * 4096 + lo

/-- C.MV: ADD rd, X0, rs. -/
def execCMv (h : Hart) (rd rs : BitVec 5) (s : State) : Host.Outcome State Fault Refusal :=
  .next (s.issue h (halfOf 0 (rd.toNat * 128 + rs.toNat * 4)) false (State.cluWork h (fun k => k.setX rd (k.getX 0 + k.getX rs))))

/-- C.MVF: FSGNJ.D rd, rs, rs. -/
def execCMvf (h : Hart) (rd rs : BitVec 5) (s : State) : Host.Outcome State Fault Refusal :=
  .next (s.issue h (halfOf 0 (rd.toNat * 128 + rs.toNat * 4 + 1)) false
    (State.cluWork h (fp2 ⟨rd, rs, rs, 0, 0⟩ (fun _ t x y => ⟨fSgnj t 0 x y, 0⟩) (s.fEnv h 0) fmtD)))

/-- C.BREAK: BREAK 0. -/
def execCBreak (h : Hart) (s : State) : Host.Outcome State Fault Refusal :=
  .next (s.issue h (halfOf 0 3) false (fun t => .trap t ⟨codeBreak, 0, 0⟩))

/-- C.ADDI: ADDI rd, rd, uimm6. -/
def execCAddi (h : Hart) (rd : BitVec 5) (imm : BitVec 6) (s : State) : Host.Outcome State Fault Refusal :=
  .next (s.issue h (halfOf 1 (rd.toNat * 128 + imm.toNat * 2)) false (State.cluWork h (fun k => k.setX rd (k.getX rd + imm.setWidth 64))))

/-- C.SUBI: ADDI rd, rd, −uimm6. -/
def execCSubi (h : Hart) (rd : BitVec 5) (imm : BitVec 6) (s : State) : Host.Outcome State Fault Refusal :=
  .next (s.issue h (halfOf 1 (rd.toNat * 128 + imm.toNat * 2 + 1)) false
    (State.cluWork h (fun k => k.setX rd (k.getX rd - imm.setWidth 64))))

/-- An offset in 8-byte units. -/
def off8s {w : Nat} (off : BitVec w) : BitVec 12 := BitVec.ofNat 12 (8 * off.toNat)

/-- C.LD: LD rd, 8 × off4 (b′). -/
def execCLd (h : Hart) (b : BitVec 3) (r : BitVec 5) (off : BitVec 4) (s : State) : Host.Outcome State Fault Refusal :=
  .next (s.issue h (halfOf 2 (b.toNat * 512 + r.toNat * 16 + off.toNat)) false (State.loadX h r (xPrime b) (off8s off) 8 true))

/-- C.SD: SD rs, 8 × off4 (b′). -/
def execCSd (h : Hart) (b : BitVec 3) (r : BitVec 5) (off : BitVec 4) (s : State) : Host.Outcome State Fault Refusal :=
  .next (s.issue h (halfOf 3 (b.toNat * 512 + r.toNat * 16 + off.toNat)) false (State.storeX h r (xPrime b) (off8s off) 8))

/-- C.FLD: FLD f, 8 × off3 (b′). -/
def execCFld (h : Hart) (b : BitVec 3) (f : BitVec 5) (off : BitVec 3) (s : State) : Host.Outcome State Fault Refusal :=
  .next (s.issue h (halfOf 4 (b.toNat * 512 + f.toNat * 16 + off.toNat * 2)) false (State.loadF h f (xPrime b) (off8s off) fmtD))

/-- C.FSD: FSD f, 8 × off3 (b′). -/
def execCFsd (h : Hart) (b : BitVec 3) (f : BitVec 5) (off : BitVec 3) (s : State) : Host.Outcome State Fault Refusal :=
  .next (s.issue h (halfOf 4 (b.toNat * 512 + f.toNat * 16 + off.toNat * 2 + 1)) false (State.storeF h f (xPrime b) (off8s off) 8))

/-- C.B: JAL X0, off12. -/
def execCB (h : Hart) (off : BitVec 12) (s : State) : Host.Outcome State Fault Refusal :=
  .next (s.issue h (halfOf 5 off.toNat) false (fun t => .jump t ((t.clu h.part h.clu).pc + off.signExtend 64 <<< 1)))

/-- C.BZ: BEQ r′, X0, off8. -/
def execCBz (h : Hart) (r : BitVec 3) (off : BitVec 8) (s : State) : Host.Outcome State Fault Refusal :=
  .next (s.issue h (halfOf 6 (r.toNat * 256 + off.toNat)) false
    (State.branchWork h (xPrime r) 0 (off.signExtend 64) (fun x y => x == y)))

/-- C.BNZ: BNE r′, X0, off8. -/
def execCBnz (h : Hart) (r : BitVec 3) (off : BitVec 8) (s : State) : Host.Outcome State Fault Refusal :=
  .next (s.issue h (halfOf 6 (2048 + r.toNat * 256 + off.toNat)) false
    (State.branchWork h (xPrime r) 0 (off.signExtend 64) (fun x y => x != y)))

/-- C.VSETVL: VSETVL rd, rs, SEW with ALT = 0. -/
def execCVsetvl (h : Hart) (rd rs : BitVec 5) (sew : BitVec 2) (s : State) : Host.Outcome State Fault Refusal :=
  .next (s.issue h (halfOf 7 (rd.toNat * 128 + rs.toNat * 4 + sew.toNat)) false (fun t => t.cluWork h (t.vsetWork rd rs sew false)))

end Sys2Proof.Machine
end

