-- ==== Sys2Proof/Machine/HewerSys.lean ====
section
/-!
DEFINITION. Machine/HewerSys.lean: control registers, traps and the SYSTEM group of Hewer (Table 6-12).
-/
namespace Sys2Proof.Machine

/-! ### CSR reads (Tables 6-3, 6-4, 6-14, 7-2, 9-3, 13-3) -/

/-- TTYPE. -/
def Cluster.ttype (k : Cluster) : Nat :=
  k.lfmt.toNat * 4096 + flagBit 11 k.lvalid + flagBit 10 k.lsc + flagBit 6 k.tsc + k.ksteps.toNat * 16 + k.tfmt.toNat

/-- ISAVER: LEVEL 1 and the groups present under ISAMASK (R130). -/
def State.isaver (s : State) (k : Cluster) : Nat := 0x10000 + isaBits s.product.narrow k.isamask

/-- TIME: the timestamp of a TCLK edge at most 20 ns before the read; which one is open (Table 6-3).
(DESIGN CHOICE: assumption 45.) -/
def State.timeCsr (s : State) : BitVec 64 × State :=
  let r := s.fresh
  (s.beat.ts - BitVec.ofNat 64 (r.1 % 25), r.2)

/-- CYCLE: the PCLK cycles of the partition since cluster reset (Table 6-3), as the ticks that the model has seen hold them.
(DESIGN CHOICE: assumption 45.) -/
def State.cycleCsr (s : State) (h : Hart) : BitVec 64 :=
  BitVec.ofNat 64 ((s.pclkOf h.part - (s.clu h.part h.clu).cycle0) / pclkUnit)

/-- The value of CSR `n`. (DESIGN CHOICE: assumption 45.) -/
def State.csrRead (s : State) (h : Hart) (n : Nat) : BitVec 64 × State :=
  let k := s.clu h.part h.clu
  match n with
  | 0x001 => (BitVec.ofNat 64 (k.rm.toNat * 32 + k.flags.toNat), s)
  | 0x010 => (BitVec.ofNat 64 k.vl, s)
  | 0x011 => (BitVec.ofNat 64 (flagBit 2 k.alt + k.sew.toNat), s)
  | 0x020 => (BitVec.ofNat 64 k.ttype, s)
  | 0x021 => (k.strideA, s)
  | 0x022 => (k.strideC, s)
  | 0x023 => (BitVec.ofNat 64 k.tcount, s)
  | 0x400 => (s.cycleCsr h, s)
  | 0x401 => s.timeCsr
  | 0x402 => (BitVec.ofNat 64 (s.fld BEAT_COUNT_COUNT), s)
  | 0x403 => (k.instret, s)
  | 0x404 => (BitVec.ofNat 64 (s.isaver k), s)
  | 0x405 => (BitVec.ofNat 64 (h.part.val + h.clu.val * 256), s)
  | 0x410 => (BitVec.ofNat 64 (s.vlen / 8), s)
  | 0x800 => (BitVec.ofNat 64 (flagBit 1 k.intrap + flagBit 0 k.ppriv), s)
  | 0x801 => (k.trapvec, s)
  | 0x802 => (k.tretpc, s)
  | 0x803 => (k.mscratch, s)
  | 0x804 => (k.isamask.setWidth 64, s)
  | 0x810 => (BitVec.ofNat 64 (flagBit 12 k.tctxEn + s.agentCid h.part k.tctxCid.toNat), s)
  | 0xC00 => (k.trapcause, s)
  | 0xC01 => (k.trappc, s)
  | 0xC02 => (k.trapnext, s)
  | 0xC03 => (k.trapinst, s)
  | 0xC04 => (k.trapaddr, s)
  | 0xC05 => (k.trapdetail, s)
  | _ => (0, s)

/-! ### CSR writes -/

/-- VLMAX at a SEW code (R136). -/
def State.vlmaxAt (s : State) (sew : BitVec 2) : Nat := s.vlen / 2 ^ (3 + sew.toNat)

/-- The format codes of Table 9-2. -/
def tileFmtOk (f : Nat) : Bool := decide (f < 7) || f == 11 || f == 12

/-- A write of TTYPE: an unlisted FMT stores 0, and SC stands only with D4, E4M3 or E5M2 (R173). -/
def Cluster.writeTtype (k : Cluster) (v : BitVec 64) : Cluster :=
  let f := if tileFmtOk (v.toNat % 16) then v.toNat % 16 else 0
  { k with tfmt := BitVec.ofNat 4 f, ksteps := v.extractLsb' 4 2, tsc := v.getLsbD 6 && blockCode f }

/-- The STRIDE field of TSTRIDE_A and TSTRIDE_C, bits [39:6]. -/
def strideOf (v : BitVec 64) : BitVec 64 := v &&& 0xFFFFFFFFC0

/-- A write of a CSR that can be written (Tables 6-4, 6-14, 7-2, 9-3, 13-3). Bits outside a register's field are dropped before the value is
held to a limit: a value of VL counts by its bits [10:0], of TCOUNT by its bits [20:0].
(DEDUCED: assumption 54.) -/
def State.csrSet (s : State) (h : Hart) (n : Nat) (v : BitVec 64) (k : Cluster) : Cluster :=
  match n with
  | 0x001 => { k with rm := if rmBad (bitsOf v.toNat 5 3) then 0 else v.extractLsb' 5 3, flags := v.extractLsb' 0 5 }
  | 0x010 => { k with vl := min (v.toNat % 2048) (s.vlmaxAt k.sew) }
  | 0x011 => { k with sew := v.extractLsb' 0 2, alt := v.getLsbD 2 && decide (v.toNat % 4 < 2) }
  | 0x020 => k.writeTtype v
  | 0x021 => { k with strideA := strideOf v }
  | 0x022 => { k with strideC := strideOf v }
  | 0x023 => { k with tcount := min (v.toNat % 2 ^ 21) (2 ^ 20) }
  | 0x800 => { k with intrap := v.getLsbD 1, ppriv := v.getLsbD 0 }
  | 0x801 => { k with trapvec := v &&& ~~~1 }
  | 0x802 => { k with tretpc := v &&& ~~~1 }
  | 0x803 => { k with mscratch := v }
  | 0x804 => { k with isamask := v.setWidth 16 ||| 0x83 }
  | 0x810 =>
    if s.flag (PCTL_TENANT_BIND_EN h.part) then { k with tctxEn := v.getLsbD 12 }
    else { k with tctxEn := v.getLsbD 12, tctxCid := v.setWidth 12 }
  | _ => k

/-- A CSR instruction of FUNCT4 `f4`: rd ← the old value; `f` of the old value and X[rs1] is written, if anything (R116). -/
def State.csrInst (s : State) (h : Hart) (f4 : Nat) (a : CsrArgs) (f : BitVec 64 → BitVec 64 → Option (BitVec 64)) : State :=
  s.issue h (encI 11 f4 a.rd.toNat a.rs1.toNat a.csr.toNat) false (fun t =>
    let r := t.csrRead h a.csr.toNat
    r.2.cluWork h (fun k => match f r.1 (k.getX a.rs1) with
      | some v => (t.csrSet h a.csr.toNat v k).setX a.rd r.1
      | none => k.setX a.rd r.1))

/-- CSRR. -/
def execCsrr (h : Hart) (a : CsrArgs) (s : State) : Host.Outcome State Fault Refusal := .next (s.csrInst h 0 a (fun _ _ => none))
/-- CSRW. -/
def execCsrw (h : Hart) (a : CsrArgs) (s : State) : Host.Outcome State Fault Refusal := .next (s.csrInst h 1 a (fun _ x => some x))
/-- CSRS: sets the bits of X[rs1]; with rs1 = X0 no write occurs. -/
def execCsrs (h : Hart) (a : CsrArgs) (s : State) : Host.Outcome State Fault Refusal :=
  .next (s.csrInst h 2 a (fun o x => if a.rs1 = 0 then none else some (o ||| x)))
/-- CSRC: clears them. -/
def execCsrc (h : Hart) (a : CsrArgs) (s : State) : Host.Outcome State Fault Refusal :=
  .next (s.csrInst h 3 a (fun o x => if a.rs1 = 0 then none else some (o &&& ~~~x)))

/-! ### BREAK, TRET, WFB -/

/-- BREAK: traps BREAK (Table 6-12). -/
def execBreak (h : Hart) (imm : BitVec 12) (s : State) : Host.Outcome State Fault Refusal :=
  .next (s.issue h (encI 11 4 0 0 imm.toNat) false (fun t => .trap t ⟨codeBreak, 0, 0⟩))

/-- TRET: resumes at TRETPC at the level in PPRIV and clears INTRAP; a report point. -/
def execTret (h : Hart) (s : State) : Host.Outcome State Fault Refusal :=
  .next (s.issue h (encI 11 5 0 0 0) true (fun t =>
    let k := t.clu h.part h.clu
    .jump (t.setClu h.part h.clu k.trapReturn) k.tretpc))

/-- WFB: the cluster issues nothing until the next beat boundary; a report point.
(DEDUCED: assumption 62.) -/
def execWfb (h : Hart) (s : State) : Host.Outcome State Fault Refusal :=
  .next (s.issue h (encI 11 6 0 0 0) true (State.cluWork h (fun k => { k with wfb := true })))

/-! ### Unassigned encodings and returning aborts (R123, R128) -/

/-- RESERVED_OP: a cluster executes a reserved encoding and traps for emulation. A word of another kind is no such command and
does nothing. (DESIGN CHOICE: assumption 58.) -/
def execReservedOp (h : Hart) (w : BitVec 32) (s : State) : Host.Outcome State Fault Refusal :=
  .next (if kindOf (s.kindCtx h) w.toNat = .reserved then s.issue h w.toNat false (fun t => .retire t) else s)

/-- MALFORMED_OP: a cluster executes a malformed encoding and traps. A word of another kind does nothing.
(DESIGN CHOICE: assumption 58.) -/
def execMalformedOp (h : Hart) (w : BitVec 32) (s : State) : Host.Outcome State Fault Refusal :=
  .next (if kindOf (s.kindCtx h) w.toNat = .malformed then s.issue h w.toNat false (fun t => .retire t) else s)

/-- STORE_ABORT_RETURN: the abort of a retired store at `addr` is held until it is reported (R128). -/
def execStoreAbortReturn (h : Hart) (addr : BitVec 56) (s : State) : Host.Outcome State Fault Refusal := .next (s.pendAbort h.part h.clu addr.toNat 1)

end Sys2Proof.Machine
end

