-- ==== Sys2Proof/Machine/VecArith.lean ====
section
/-!
DEFINITION. Machine/VecArith.lean: LV-ARITH, LV-CVT and LV-WIDE (Tables 7-3, 7-5 and 7-6).
-/
namespace Sys2Proof.Machine

/-- An integer function of two sources, on `w` bits. -/
def intElem (f : Nat → Nat → Nat → Nat) (w : Nat) : ElemFn := fun _ x y _ => plain (f w x y % 2 ^ w)

/-- The low bits of an integer. -/
def loInt (w : Nat) (i : Int) : Nat := intCode w i

/-- Signed order of two codes. -/
def sLess (w x y : Nat) : Bool := decide (codeInt true w x < codeInt true w y)

/-- A LV-ARITH integer instruction; it ignores ALT (R142). -/
def State.lvInt (s : State) (h : Hart) (f5 : Nat) (a : VArgs) (f : Nat → Nat → Nat → Nat) : State :=
  s.lvArith h f5 a (fun _ _ w => intElem f w)

/-! ### Integer (Table 7-3) -/

/-- VADD. -/
def execVadd (h : Hart) (a : VArgs) (s : State) : Host.Outcome State Fault Refusal := .next (s.lvInt h 0 a (fun _ x y => x + y))
/-- VSUB. -/
def execVsub (h : Hart) (a : VArgs) (s : State) : Host.Outcome State Fault Refusal := .next (s.lvInt h 1 a (fun w x y => x + (2 ^ w - y)))
/-- VMUL. -/
def execVmul (h : Hart) (a : VArgs) (s : State) : Host.Outcome State Fault Refusal := .next (s.lvInt h 2 a (fun _ x y => x * y))
/-- VMULH: the high half of the signed product. -/
def execVmulh (h : Hart) (a : VArgs) (s : State) : Host.Outcome State Fault Refusal := .next (s.lvInt h 3 a (fun w x y => loInt w (codeInt true w x * codeInt true w y / 2 ^ w)))
/-- VAND. -/
def execVand (h : Hart) (a : VArgs) (s : State) : Host.Outcome State Fault Refusal := .next (s.lvInt h 4 a (fun _ x y => x &&& y))
/-- VOR. -/
def execVor (h : Hart) (a : VArgs) (s : State) : Host.Outcome State Fault Refusal := .next (s.lvInt h 5 a (fun _ x y => x ||| y))
/-- VXOR. -/
def execVxor (h : Hart) (a : VArgs) (s : State) : Host.Outcome State Fault Refusal := .next (s.lvInt h 6 a (fun _ x y => x ^^^ y))
/-- VSLL: by the low log2(SEW) bits of vs2. -/
def execVsll (h : Hart) (a : VArgs) (s : State) : Host.Outcome State Fault Refusal := .next (s.lvInt h 7 a (fun w x y => x * 2 ^ (y % w)))
/-- VSRL. -/
def execVsrl (h : Hart) (a : VArgs) (s : State) : Host.Outcome State Fault Refusal := .next (s.lvInt h 8 a (fun w x y => x / 2 ^ (y % w)))
/-- VSRA. -/
def execVsra (h : Hart) (a : VArgs) (s : State) : Host.Outcome State Fault Refusal := .next (s.lvInt h 9 a (fun w x y => loInt w (codeInt true w x / 2 ^ (y % w))))
/-- VMIN. -/
def execVmin (h : Hart) (a : VArgs) (s : State) : Host.Outcome State Fault Refusal := .next (s.lvInt h 10 a (fun w x y => if sLess w x y then x else y))
/-- VMAX. -/
def execVmax (h : Hart) (a : VArgs) (s : State) : Host.Outcome State Fault Refusal := .next (s.lvInt h 11 a (fun w x y => if sLess w x y then y else x))
/-- VMINU. -/
def execVminu (h : Hart) (a : VArgs) (s : State) : Host.Outcome State Fault Refusal := .next (s.lvInt h 12 a (fun _ x y => min x y))
/-- VMAXU. -/
def execVmaxu (h : Hart) (a : VArgs) (s : State) : Host.Outcome State Fault Refusal := .next (s.lvInt h 13 a (fun _ x y => max x y))
/-- VMACC: vd ← vd + vs1 × vs2. -/
def execVmacc (h : Hart) (a : VArgs) (s : State) : Host.Outcome State Fault Refusal :=
  .next (s.lvArith h 14 a (fun _ _ w d x y _ => plain ((d + x * y) % 2 ^ w)))
/-- VMV: vd ← vs1. -/
def execVmv (h : Hart) (a : VArgs) (s : State) : Host.Outcome State Fault Refusal := .next (s.lvArith h 15 a (fun _ _ _ _ x _ _ => plain x))

/-! ### Floating point -/

/-- VFADD. -/
def execVfadd (h : Hart) (a : VArgs) (s : State) : Host.Outcome State Fault Refusal :=
  .next (s.lvArith h 16 a (fun g t _ _ x y _ => fAdd g t t x y))
/-- VFSUB. -/
def execVfsub (h : Hart) (a : VArgs) (s : State) : Host.Outcome State Fault Refusal :=
  .next (s.lvArith h 17 a (fun g t _ _ x y _ => fSub g t t x y))
/-- VFMUL. -/
def execVfmul (h : Hart) (a : VArgs) (s : State) : Host.Outcome State Fault Refusal :=
  .next (s.lvArith h 18 a (fun g t _ _ x y _ => fMul g t t x y))
/-- VFDIV. -/
def execVfdiv (h : Hart) (a : VArgs) (s : State) : Host.Outcome State Fault Refusal :=
  .next (s.lvArith h 19 a (fun g t _ _ x y _ => fDiv g t x y))
/-- VFSQRT of vs1. -/
def execVfsqrt (h : Hart) (a : VArgs) (s : State) : Host.Outcome State Fault Refusal :=
  .next (s.lvArith h 20 a (fun g t _ _ x _ _ => fSqrt g t x))
/-- VFMIN: minimumNumber. -/
def execVfmin (h : Hart) (a : VArgs) (s : State) : Host.Outcome State Fault Refusal :=
  .next (s.lvArith h 21 a (fun g t _ _ x y _ => fMinMax g t true false x y))
/-- VFMAX: maximumNumber. -/
def execVfmax (h : Hart) (a : VArgs) (s : State) : Host.Outcome State Fault Refusal :=
  .next (s.lvArith h 22 a (fun g t _ _ x y _ => fMinMax g t true true x y))
/-- VFMACC: vd + vs1 × vs2, one rounding. -/
def execVfmacc (h : Hart) (a : VArgs) (s : State) : Host.Outcome State Fault Refusal :=
  .next (s.lvArith h 23 a (fun g t _ d x y _ => fFma g t t false false x y d))
/-- VFNMSAC: vd − vs1 × vs2, one rounding. -/
def execVfnmsac (h : Hart) (a : VArgs) (s : State) : Host.Outcome State Fault Refusal :=
  .next (s.lvArith h 24 a (fun g t _ d x y _ => fFma g t t true false x y d))
/-- VFSGNJ. -/
def execVfsgnj (h : Hart) (a : VArgs) (s : State) : Host.Outcome State Fault Refusal :=
  .next (s.lvArith h 25 a (fun _ t _ _ x y _ => plain (fSgnj t 0 x y)))
/-- VFSGNJN. -/
def execVfsgnjn (h : Hart) (a : VArgs) (s : State) : Host.Outcome State Fault Refusal :=
  .next (s.lvArith h 26 a (fun _ t _ _ x y _ => plain (fSgnj t 1 x y)))

/-- VID: vd[i] ← i, in SEW bits. (DEDUCED: assumption 64.) -/
def execVid (h : Hart) (a : VArgs) (s : State) : Host.Outcome State Fault Refusal := .next (s.lvArith h 27 a (fun _ _ w _ _ _ i => plain (i % 2 ^ w)))

/-! ### LV-CVT (R144, Tables 7-5 and 8-6) -/

/-- The floating-point format of a code of Table 7-5. -/
def cvtFmt (c : Nat) : Option Fmt :=
  match c with
  | 0 => some fmtD
  | 1 => some fmtS
  | 2 => some fmtH
  | 3 => some fmtBf
  | 4 => some fmtE4
  | 5 => some fmtE5
  | 6 => some fmtD4
  | _ => none

/-- The width of a code of Table 7-5. -/
def cvtBits (c : Nat) : Nat :=
  match cvtFmt c with
  | some t => t.w
  | none => match c with
    | 8 => 64
    | 9 => 32
    | 10 => 16
    | 11 => 8
    | _ => 4

/-- Converts one element: `sc` is the scale byte of its block under SCALED. -/
def cvtElem (g : FEnv) (src dst : Nat) (sc : Option Nat) (c : Nat) : FRes :=
  match cvtFmt src, cvtFmt dst with
  | none, none => plain (cvtII (cvtBits dst) (codeInt true (cvtBits src) c))
  | some t, none => cvtFI g.rm t true (cvtBits dst) (match sc with | some b => if blockCode src then scaledVal t b c else t.decode c | none => t.decode c)
  | st, some t =>
    let v := match st with
      | some u => (match sc with | some b => if blockCode src then scaledVal u b c else u.decode c | none => u.decode c)
      | none => let i := codeInt true (cvtBits src) c; FVal.fin (decide (i < 0)) i.natAbs 0
    match sc with
    | some b => if blockCode dst then scaledEncode g t b v else encodeVal t (g.satFor t) g.rm v
    | none => encodeVal t (g.satFor t) g.rm v

/-- LV-CVT's work: ne elements, element i from the source width to the destination width; under SCALED the scale of element i is
byte i / 32 of V[vs1 + 1]. (DEDUCED: assumption 64.) -/
def State.cvtWork (s : State) (h : Hart) (a : CvtArgs) (k : Cluster) : Cluster :=
  let sw := cvtBits a.src.toNat
  let dw := cvtBits a.dst.toNat
  let ne := min k.vl (s.vlen / max sw dw)
  let g := s.vEnv h
  let rs := (k.actives ne a.masked a.mask).map (fun i =>
    (i, cvtElem g a.src.toNat a.dst.toNat
      (if a.scaled then some (elemOf (k.getV (a.vs1 + 1)).toNat 8 (i / 32)) else none) (k.vSrc a.vs1 a.z0a sw i)))
  (k.writeElems a.vd dw (rs.map (fun e => (e.1, e.2.bits)))).accrue (orFlags (rs.map (fun e => e.2)))

/-- LV_CVT. -/
def execLvCvt (h : Hart) (a : CvtArgs) (s : State) : Host.Outcome State Fault Refusal :=
  .next (s.issue h (encCvt a) false (fun t => t.cluWork h (t.cvtWork h a)))

/-! ### LV-WIDE (R145, Table 7-6) -/

/-- The format one step wider. -/
def wideFmt (t : Fmt) : Fmt := if t.w = 8 then fmtH else if t.w = 16 then fmtS else fmtD

/-- LV-WIDE's work: result i, of 2 × SEW bits, in the pair V[vd], V[vd + 1]. `f` takes the prior result, the sources and the
width. -/
def State.wideWork (s : State) (a : VArgs) (f : Nat → Nat → Nat → Nat → FRes) (k : Cluster) : Cluster :=
  let w := sewBits k.sew
  let m := s.vlmax k / 2
  let old := fun i => if i < m then elemOf (k.getV a.vd).toNat (2 * w) i else elemOf (k.getV (a.vd + 1)).toNat (2 * w) (i - m)
  let rs := (k.actives (s.vlNow k) a.masked a.mask).map (fun i => (i, f (old i) (k.vSrc a.vs1 a.z0a w i) (k.vSrc a.vs2 a.z0b w i) w))
  let lo := (rs.filter (fun e => decide (e.1 < m))).map (fun e => (e.1, e.2.bits))
  let hi := (rs.filter (fun e => decide (m ≤ e.1))).map (fun e => (e.1 - m, e.2.bits))
  ((k.writeElems a.vd (2 * w) lo).writeElems (a.vd + 1) (2 * w) hi).accrue (orFlags (rs.map (fun e => e.2)))

/-- A LV-WIDE integer instruction, signed. -/
def State.wideInt (s : State) (h : Hart) (f5 : Nat) (a : VArgs) (f : Int → Int → Int → Int) : State :=
  s.issue h (encV 25 f5 a) false (fun t => t.cluWork h (t.wideWork a (fun d x y w =>
    plain (intCode (2 * w) (f (codeInt true (2 * w) d) (codeInt true w x) (codeInt true w y))))))

/-- A LV-WIDE FP instruction: `f` takes the environment, the source and result formats, the prior result and the sources. -/
def State.wideFp (s : State) (h : Hart) (f5 : Nat) (a : VArgs) (f : FEnv → Fmt → Fmt → Nat → Nat → Nat → FRes) : State :=
  s.issue h (encV 25 f5 a) false (fun t => t.cluWork h (fun k =>
    let st := sewFmt k.sew k.alt
    t.wideWork a (fun d x y _ => f (t.vEnv h) st (wideFmt st) d x y) k))

/-- VWADD. -/
def execVwadd (h : Hart) (a : VArgs) (s : State) : Host.Outcome State Fault Refusal := .next (s.wideInt h 0 a (fun _ x y => x + y))
/-- VWSUB. -/
def execVwsub (h : Hart) (a : VArgs) (s : State) : Host.Outcome State Fault Refusal := .next (s.wideInt h 1 a (fun _ x y => x - y))
/-- VWMUL. -/
def execVwmul (h : Hart) (a : VArgs) (s : State) : Host.Outcome State Fault Refusal := .next (s.wideInt h 2 a (fun _ x y => x * y))
/-- VWMACC: the product added to the pair. -/
def execVwmacc (h : Hart) (a : VArgs) (s : State) : Host.Outcome State Fault Refusal := .next (s.wideInt h 3 a (fun d x y => d + x * y))
/-- VFWADD. -/
def execVfwadd (h : Hart) (a : VArgs) (s : State) : Host.Outcome State Fault Refusal := .next (s.wideFp h 4 a (fun g st t _ x y => fAdd g st t x y))
/-- VFWSUB. -/
def execVfwsub (h : Hart) (a : VArgs) (s : State) : Host.Outcome State Fault Refusal := .next (s.wideFp h 5 a (fun g st t _ x y => fSub g st t x y))
/-- VFWMUL. -/
def execVfwmul (h : Hart) (a : VArgs) (s : State) : Host.Outcome State Fault Refusal := .next (s.wideFp h 6 a (fun g st t _ x y => fMul g st t x y))
/-- VFWMACC: the product added to the pair with one rounding. -/
def execVfwmacc (h : Hart) (a : VArgs) (s : State) : Host.Outcome State Fault Refusal :=
  .next (s.wideFp h 7 a (fun g st t d x y => fFma g st t false false x y d))

end Sys2Proof.Machine
end

