-- ==== Sys2Proof/Machine/VecMem.lean ====
section
/-!
DEFINITION. Machine/VecMem.lean: LV-MEM (Table 7-7, R146 to R149).
-/
namespace Sys2Proof.Machine

/-- TRAPDETAIL of vector faults: the lowest faulting element, UNIT and ACCESS (Table 6-4). -/
def vecDetail (unit acc : Nat) (l : List Item) : Nat := lowIdx l % 65536 * 2 ^ 32 + unit * 4 + acc

/-- The items that are not aligned to `n` bytes. -/
def crooked (n : Nat) (l : List Item) : List Item := l.filter (fun i => decide (i.ea % n ≠ 0))

/-- The effective address of an offset from a base, which may be negative, wrapping at 2^64. -/
def wrapAddr (base : BitVec 64) (off : Int) : Nat := (base + BitVec.ofInt 64 off).toNat

/-- The value of loaded elements at their indexes. -/
def loadedElems (l : List (Item × List Byte)) : List (Nat × Nat) := l.map (fun e => (e.1.idx, natLE e.2))

/-- The elements of a vector access: active indexes with their addresses (Table 7-7). -/
def State.lvItems (s : State) (k : Cluster) (a : LvMemArgs) (addr : Nat → Nat) : List Item :=
  (k.actives (s.vlNow k) a.masked a.mask).map (fun i => ⟨i, addr i, sewBits k.sew / 8⟩)

/-- The work of a vector load of the given elements (R146, R148): MISALIGNED first, then translation, then claims. -/
def State.lvLoadWork (s : State) (h : Hart) (a : LvMemArgs) (items : List Item) (f : State → List (Nat × Nat) → Done) : Done :=
  let bad := crooked (sewBits (s.clu h.part h.clu).sew / 8) items
  if bad ≠ [] then .trap s ⟨codeAlign, lowEa bad, vecDetail 2 0 bad⟩
  else s.itemLoad h a.strm items (vecDetail 2 0) (fun t l => f t (loadedElems l))

/-- The work of a vector store of the given elements of V[vd]. -/
def State.lvStoreWork (s : State) (h : Hart) (a : LvMemArgs) (items : List Item) : Done :=
  let k := s.clu h.part h.clu
  let w := sewBits k.sew
  let bad := crooked (w / 8) items
  if bad ≠ [] then .trap s ⟨codeAlign, lowEa bad, vecDetail 2 1 bad⟩
  else s.itemStore h a.strm (items.map (fun i => (i, bytesLE (w / 8) (elemOf (k.getV a.vd).toNat w i.idx)))) (vecDetail 2 1)

/-- A load that writes its elements to V[vd]. -/
def State.lvLoad (s : State) (h : Hart) (f5 : Nat) (a : LvMemArgs) (addr : Cluster → Nat → Nat) : State :=
  s.issue h (encLvMem f5 a) false (fun t =>
    let k := t.clu h.part h.clu
    t.lvLoadWork h a (t.lvItems k a (addr k)) (fun u l => u.cluWork h (fun c => c.writeElems a.vd (sewBits k.sew) l)))

/-- A store of elements of V[vd]. -/
def State.lvStore (s : State) (h : Hart) (f5 : Nat) (a : LvMemArgs) (addr : Cluster → Nat → Nat) : State :=
  s.issue h (encLvMem f5 a) false (fun t =>
    let k := t.clu h.part h.clu
    t.lvStoreWork h a (t.lvItems k a (addr k)))

/-- Unit stride: X[base] + i × SEW/8. -/
def unitAddr (a : LvMemArgs) (k : Cluster) (i : Nat) : Nat := wrapAddr (k.getX a.base) ((i * (sewBits k.sew / 8) : Nat) : Int)

/-- Strided: X[base] + i × X[stride]. -/
def strideAddr (a : LvMemArgs) (k : Cluster) (i : Nat) : Nat := wrapAddr (k.getX a.base) ((i : Int) * (k.getX a.idx).toInt)

/-- Indexed: X[base] + element i of V[index]. -/
def indexAddr (a : LvMemArgs) (k : Cluster) (i : Nat) : Nat :=
  wrapAddr (k.getX a.base) ((elemOf (k.getV a.idx).toNat (sewBits k.sew) i : Nat) : Int)

/-- VLD. -/
def execVld (h : Hart) (a : LvMemArgs) (s : State) : Host.Outcome State Fault Refusal := .next (s.lvLoad h 0 a (unitAddr a))
/-- VST. -/
def execVst (h : Hart) (a : LvMemArgs) (s : State) : Host.Outcome State Fault Refusal := .next (s.lvStore h 4 a (unitAddr a))

/-- VLDS: with stride 0 the element is read once and written to every active element (R147). -/
def execVlds (h : Hart) (a : LvMemArgs) (s : State) : Host.Outcome State Fault Refusal :=
  .next (s.issue h (encLvMem 1 a) false (fun t =>
    let k := t.clu h.part h.clu
    let items := t.lvItems k a (strideAddr a k)
    if k.getX a.idx = 0 then
      t.lvLoadWork h a (items.take 1) (fun u l => u.cluWork h (fun c =>
        c.writeElems a.vd (sewBits k.sew) (items.map (fun i => (i.idx, (l.map (fun e => e.2)).headD 0)))))
    else t.lvLoadWork h a items (fun u l => u.cluWork h (fun c => c.writeElems a.vd (sewBits k.sew) l))))

/-- VSTS; elements at one address are stored in index order (R131, R147). -/
def execVsts (h : Hart) (a : LvMemArgs) (s : State) : Host.Outcome State Fault Refusal := .next (s.lvStore h 5 a (strideAddr a))
/-- VLDX. -/
def execVldx (h : Hart) (a : LvMemArgs) (s : State) : Host.Outcome State Fault Refusal := .next (s.lvLoad h 2 a (indexAddr a))
/-- VSTX. -/
def execVstx (h : Hart) (a : LvMemArgs) (s : State) : Host.Outcome State Fault Refusal := .next (s.lvStore h 6 a (indexAddr a))

/-! ### VLDFF (R149) -/

/-- Translates items up to the first that fails: the places, its index if any. -/
def State.xlateUpto (s : State) (h : Hart) : List Item → List Placed × Option Nat × State
  | [] => ([], none, s)
  | i :: t =>
    let r := s.dataXlate h .read i.ea
    match r.1 with
    | none => ([], some i.idx, r.2)
    | some pl =>
      let u := r.2.xlateUpto h t
      (⟨i, pl⟩ :: u.1, u.2.1, u.2.2)

/-- M[MASK] after VLDFF stopped at `f`: bits from `f` up cleared; below `f` set, or as they were where MASKED. -/
def ffMask (m : Nat) (masked : Bool) (f : Nat) : Nat := if masked then m % 2 ^ f else 2 ^ f - 1

/-- VLDFF. (DEDUCED: assumption 64.) -/
def execVldff (h : Hart) (a : LvMemArgs) (s : State) : Host.Outcome State Fault Refusal :=
  .next (s.issue h (encLvMem 3 a) false (fun t =>
    let k := t.clu h.part h.clu
    let n := t.vlNow k
    let w := sewBits k.sew
    let items := t.lvItems k a (unitAddr a k)
    let first := items.take 1
    let bad := crooked (w / 8) first
    if n = 0 then .retire t
    else if bad ≠ [] then .trap t ⟨codeAlign, lowEa bad, vecDetail 2 0 bad⟩
    else
      let x := t.xlateUpto h items
      if x.1 = [] ∧ first ≠ [] then .trap x.2.2 ⟨codePage, lowEa first, vecDetail 2 0 first⟩
      else
        let r := x.2.2.loadAll h a.strm x.1
        match r.1 with
        | .ok l => r.2.cluWork h (fun c =>
            (c.writeElems a.vd w (loadedElems l)).setM a.mask
              (r.2.maskBits (ffMask (k.getM a.mask).toNat a.masked (x.2.1.getD n))))
        | .denied l => .trap r.2 ⟨codeClaim, lowEa l, vecDetail 2 0 l⟩
        | .ue => .ue r.2
        | .stall => .wait))

/-! ### VLDM and VSTM -/

/-- The 8-byte pieces of a mask register's image (VLENB / 8 bytes). -/
def State.maskItems (s : State) (base : BitVec 64) : List Item :=
  (List.range (s.vlen / 512)).map (fun i => ⟨i, wrapAddr base ((8 * i : Nat) : Int), 8⟩)

/-- TRAPDETAIL of a mask load or store: it has no elements, and ELEMENT is open (assumption 51).
(DESIGN CHOICE: assumption 51.) -/
def maskDetail (free acc : Nat) (_ : List Item) : Nat := free % 65536 * 2 ^ 32 + 2 * 4 + acc

/-- VLDM: M[vd[2:0]] from memory; it ignores VL. -/
def execVldm (h : Hart) (a : LvMemArgs) (s : State) : Host.Outcome State Fault Refusal :=
  .next (s.issue h (encLvMem 8 a) false (fun t =>
    let f := t.fresh
    let items := t.maskItems ((t.clu h.part h.clu).getX a.base)
    if crooked 8 items ≠ [] then .trap f.2 ⟨codeAlign, lowEa items, maskDetail f.1 0 items⟩
    else f.2.itemLoad h a.strm items (maskDetail f.1 0) (fun u l => u.cluWork h (fun c =>
      c.setM (a.vd.extractLsb' 0 3) (u.maskBits (natLE (l.flatMap (fun e => e.2))))))))

/-- VSTM: M[vd[2:0]] to memory. -/
def execVstm (h : Hart) (a : LvMemArgs) (s : State) : Host.Outcome State Fault Refusal :=
  .next (s.issue h (encLvMem 9 a) false (fun t =>
    let k := t.clu h.part h.clu
    let f := t.fresh
    let items := t.maskItems (k.getX a.base)
    if crooked 8 items ≠ [] then .trap f.2 ⟨codeAlign, lowEa items, maskDetail f.1 1 items⟩
    else f.2.itemStore h a.strm
      (items.map (fun i => (i, bytesLE 8 (elemOf (k.getM (a.vd.extractLsb' 0 3)).toNat 64 i.idx)))) (maskDetail f.1 1)))

end Sys2Proof.Machine
end

