-- ==== Sys2Proof/Machine/VecRed.lean ====
section
/-!
DEFINITION. Machine/VecRed.lean: LV-RED, the tree and ordered reductions (Table 7-8, R150 to R152).
-/
namespace Sys2Proof.Machine

/-- A reduction's work: `res` takes the active elements and element 0 of vs2 and gives the result and its width; the rest of vd is
unchanged (R150, R152). -/
def State.redWork (s : State) (a : VArgs) (res : Nat → List Nat → Nat → FRes × Nat) (k : Cluster) : Cluster :=
  let w := sewBits k.sew
  let xs := (k.actives (s.vlNow k) a.masked a.mask).map (fun i => k.vSrc a.vs1 a.z0a w i)
  let r := res w xs (elemOf (k.getV a.vs2).toNat w 0)
  (k.writeElems a.vd r.2 [(0, r.1.bits)]).accrue r.1.flags

/-- op(s, reduce_tree(a, n)), or s where no element is active (R150). -/
def treeRed {α : Type} (op : α → α → α) (st : α) (xs : List α) : α := if xs.isEmpty then st else op st (reduceTree op st xs)

/-- An integer tree reduction at SEW. -/
def State.redInt (s : State) (h : Hart) (f5 : Nat) (a : VArgs) (op : Nat → Nat → Nat → Nat) : State :=
  s.issue h (encV 21 f5 a) false (fun t => t.cluWork h (t.redWork a (fun w xs st => (plain (treeRed (op w) st xs), w))))

/-- VREDSUM: below 32 bits, elements are sign-extended and summed in 32 bits. -/
def execVredsum (h : Hart) (a : VArgs) (s : State) : Host.Outcome State Fault Refusal :=
  .next (s.issue h (encV 21 0 a) false (fun t => t.cluWork h (t.redWork a (fun w xs st =>
    let aw := max w 32
    let ext := fun x => intCode aw (codeInt true w x)
    (plain (treeRed (fun x y => (x + y) % 2 ^ aw) (ext st) (xs.map ext)), aw)))))

/-- VREDMAX. -/
def execVredmax (h : Hart) (a : VArgs) (s : State) : Host.Outcome State Fault Refusal :=
  .next (s.redInt h 1 a (fun w x y => if codeInt true w x < codeInt true w y then y else x))
/-- VREDMIN. -/
def execVredmin (h : Hart) (a : VArgs) (s : State) : Host.Outcome State Fault Refusal :=
  .next (s.redInt h 2 a (fun w x y => if codeInt true w y < codeInt true w x then y else x))
/-- VREDMAXU. -/
def execVredmaxu (h : Hart) (a : VArgs) (s : State) : Host.Outcome State Fault Refusal := .next (s.redInt h 3 a (fun _ x y => max x y))
/-- VREDMINU. -/
def execVredminu (h : Hart) (a : VArgs) (s : State) : Host.Outcome State Fault Refusal := .next (s.redInt h 4 a (fun _ x y => min x y))
/-- VREDAND. -/
def execVredand (h : Hart) (a : VArgs) (s : State) : Host.Outcome State Fault Refusal := .next (s.redInt h 5 a (fun _ x y => x &&& y))
/-- VREDOR. -/
def execVredor (h : Hart) (a : VArgs) (s : State) : Host.Outcome State Fault Refusal := .next (s.redInt h 6 a (fun _ x y => x ||| y))
/-- VREDXOR. -/
def execVredxor (h : Hart) (a : VArgs) (s : State) : Host.Outcome State Fault Refusal := .next (s.redInt h 7 a (fun _ x y => x ^^^ y))

/-- An operation on results, which keeps the flags of both sides. -/
def fOp2 (op : Nat → Nat → FRes) (x y : FRes) : FRes :=
  let r := op x.bits y.bits
  ⟨r.bits, x.flags ||| y.flags ||| r.flags⟩

/-- The accumulation format of FP sums: binary32 below 32 bits (R152). -/
def accFmt (t : Fmt) : Fmt := if t.w < 32 then fmtS else t

/-- An operand as it stands: a signaling NaN is invalid (R160). -/
def asIs (t : Fmt) (x : Nat) : FRes := ⟨x, if (t.decode x).isSig then flNV else 0⟩

/-- An element exactly in the accumulation format. -/
def toAcc (g : FEnv) (t : Fmt) (x : Nat) : FRes := if t.w < 32 then cvtFF g t fmtS x else asIs t x

/-- A sum that met a NaN, and a NaN start with no active element, is the default NaN (R152, R160). (DEDUCED: assumption 64.) -/
def nanSum (t : Fmt) (r : FRes) : FRes := if (t.decode r.bits).isNan then { r with bits := t.nan } else r

/-- An FP sum, by `sum` over the converted elements and start. -/
def State.redSum (s : State) (h : Hart) (f5 : Nat) (a : VArgs) (sum : (FRes → FRes → FRes) → FRes → List FRes → FRes) : State :=
  s.issue h (encV 21 f5 a) false (fun t => t.cluWork h (fun k =>
    let g := t.vEnv h
    let ft := sewFmt k.sew k.alt
    let acc := accFmt ft
    t.redWork a (fun _ xs st => (nanSum acc (sum (fOp2 (fAdd g acc acc)) (toAcc g ft st) (xs.map (toAcc g ft))), acc.w)) k))

/-- VFREDSUM: the tree (R150, R152). -/
def execVfredsum (h : Hart) (a : VArgs) (s : State) : Host.Outcome State Fault Refusal := .next (s.redSum h 16 a treeRed)
/-- VREDOSUM: in ascending order, rounding at each step (R151). -/
def execVredosum (h : Hart) (a : VArgs) (s : State) : Host.Outcome State Fault Refusal := .next (s.redSum h 19 a (fun op st xs => xs.foldl op st))

/-- An FP reduction by minimumNumber or maximumNumber. -/
def State.redMm (s : State) (h : Hart) (f5 : Nat) (a : VArgs) (mx : Bool) : State :=
  s.issue h (encV 21 f5 a) false (fun t => t.cluWork h (fun k =>
    let g := t.vEnv h
    let ft := sewFmt k.sew k.alt
    t.redWork a (fun w xs st => (nanSum ft (treeRed (fOp2 (fMinMax g ft true mx)) (asIs ft st) (xs.map (asIs ft))), w)) k))

/-- VFREDMAX. -/
def execVfredmax (h : Hart) (a : VArgs) (s : State) : Host.Outcome State Fault Refusal := .next (s.redMm h 17 a true)
/-- VFREDMIN. -/
def execVfredmin (h : Hart) (a : VArgs) (s : State) : Host.Outcome State Fault Refusal := .next (s.redMm h 18 a false)

end Sys2Proof.Machine
end

