-- ==== Sys2Proof/Machine/Ridge.lean ====
section
/-!
DEFINITION. Machine/Ridge.lean: the tile engine: lanes, accumulation, the TILE and TILE-MEM groups and their faults (chapter 9).
-/
namespace Sys2Proof.Machine

/-! ### Formats (Table 9-2) -/

/-- The element width of an FMT code. -/
def tileBits (f : Nat) : Nat := cvtBits f

/-- The lane depth D. -/
def laneDepth (f : Nat) : Nat := 1024 / tileBits f

/-- The accumulator format: binary64 for binary64, else binary32 (R177). -/
def accOf (f : Nat) : Fmt := if f = 0 then fmtD else fmtS

/-- The exact value of element code `c` under FTZ_IN, with its block scale where there is one (R175, R176). -/
def tileVal (ftz : Bool) (f : Nat) (sc : Option Nat) (c : Nat) : FVal :=
  match cvtFmt f with
  | some t => (match sc with | some b => scaledVal t b (t.ftz ftz c) | none => t.decode (t.ftz ftz c))
  | none => let i := codeInt true (tileBits f) c; .fin (decide (i < 0)) i.natAbs 0

/-- What a tile instruction captures at dispatch: FMT, SC, KSTEPS, FTZ_IN and FTZ_OUT (R185). -/
structure TileEnv where
  fmt : Nat
  sc : Bool
  steps : Nat
  ftzIn : Bool
  ftzOut : Bool
deriving DecidableEq, Repr

/-- The settings in force. -/
def State.tileEnv (s : State) (h : Hart) : TileEnv :=
  let k := s.clu h.part h.clu
  ⟨k.tfmt.toNat, k.tsc, k.ksteps.toNat + 1, s.act (PCTL_NUM_FTZ_IN h.part) == 1, s.act (PCTL_NUM_FTZ_OUT h.part) == 1⟩

/-- A row of elements with its scale bytes. -/
structure TRow where
  data : Nat
  scales : Nat
deriving DecidableEq, Repr

/-- Element `i` of a row as a value. -/
def TileEnv.elem (e : TileEnv) (x : TRow) (i : Nat) : FVal :=
  tileVal e.ftzIn e.fmt (if e.sc then some (elemOf x.scales 8 (i / 32)) else none) (elemOf x.data (tileBits e.fmt) i)

/-! ### Lanes (R174 to R176) -/

/-- The exact sum of one group's products, from a starting sum. -/
def groupSum (xs ys : List FVal) (z : ESum) : ESum := (xs.zip ys).foldl (fun a e => a.addProd e.1 e.2) z

/-- One lane's result for a streamed row: KSTEPS groups of D products, each summed exactly with acc and rounded once (R175). -/
def TileEnv.dot (e : TileEnv) (a b : List FVal) : Nat → Nat → Nat
  | 0, acc => acc
  | n + 1, acc =>
    let d := laneDepth e.fmt
    let z := groupSum (a.take d) (b.take d) (ESum.zero.add ((accOf e.fmt).decode acc))
    e.dot (a.drop d) (b.drop d) n (z.round (accOf e.fmt) e.ftzOut)

/-- The first K elements of a row. -/
def TileEnv.elems (e : TileEnv) (x : TRow) : List FVal := (List.range (e.steps * laneDepth e.fmt)).map (e.elem x)

/-- Lane `j` of a cluster. -/
def Cluster.lane (k : Cluster) (j : Nat) : TRow :=
  ⟨(Tbl.get (fun _ => (0 : BitVec 4096)) k.lanes j).toNat, (Tbl.get (fun _ => unitScales) k.laneSc j).toNat⟩

/-- The results of a streamed row in the 32 lanes, from their start values. -/
def Cluster.stream (k : Cluster) (e : TileEnv) (x : TRow) (start : Nat → Nat) : List Nat :=
  let a := e.elems x
  (List.range 32).map (fun j => e.dot a (e.elems (k.lane j)) e.steps (start j))

/-- Lanes ← tile `tb` and its companion; FMT and SC are recorded (R174). -/
def Cluster.fillLanes (k : Cluster) (e : TileEnv) (tb : BitVec 3) : Cluster :=
  let k1 := (List.range 32).foldl (fun c j => { c with
    lanes := Tbl.set (fun _ => 0) c.lanes j (k.getRow tb j), laneSc := Tbl.set (fun _ => unitScales) c.laneSc j (k.getScale tb j) }) k
  { k1 with lfmt := BitVec.ofNat 4 e.fmt, lvalid := true, lsc := e.sc }

/-- A row of a tile as elements and scales. -/
def Cluster.tileRow (k : Cluster) (t : BitVec 3) (r : Nat) : TRow := ⟨(k.getRow t r).toNat, (k.getScale t r).toNat⟩

/-- A result row: 32 accumulator elements in the low bits, the rest of the row as it was (R171, R178). -/
def resultRow (w old : Nat) (l : List Nat) : BitVec 4096 :=
  BitVec.ofNat 4096 ((List.range 32).foldl (fun x j => withElem x w j (l.getD j 0)) old)

/-- TFILL's work: lanes ← TB, then result row r of TD ← row r of TA, from 0 or from result row r of TD (R178). -/
def Cluster.fill (k : Cluster) (e : TileEnv) (a : TArgs) (accum : Bool) : Cluster :=
  let td := a.rd.extractLsb' 0 3
  let w := (accOf e.fmt).w
  let k1 := k.fillLanes e a.tb
  (List.range 32).foldl (fun c r =>
    let old := (c.getRow td r).toNat
    c.setRow td r (resultRow w old (k1.stream e (c.tileRow a.ta r) (fun j => if accum then elemOf old w j else 0)))) k1

/-! ### TILE without memory (Table 9-4) -/

/-- A TILE instruction whose work is on its own cluster. -/
def State.tileWork (s : State) (h : Hart) (f5 : Nat) (a : TArgs) (f : TileEnv → Cluster → Cluster) : State :=
  s.issue h (encT 23 f5 a) false (fun t => t.cluWork h (f (t.tileEnv h)))

/-- TZERO: rows of TD ← 0, companion bytes ← 0x7F. -/
def execTzero (h : Hart) (a : TArgs) (s : State) : Host.Outcome State Fault Refusal :=
  .next (s.tileWork h 0 a (fun _ k =>
    (List.range 32).foldl (fun c r => (c.setRow (a.rd.extractLsb' 0 3) r 0).setScale (a.rd.extractLsb' 0 3) r unitScales) k))

/-- TFILL. -/
def execTfill (h : Hart) (a : TArgs) (s : State) : Host.Outcome State Fault Refusal := .next (s.tileWork h 1 a (fun e k => k.fill e a false))
/-- TFILLA. -/
def execTfilla (h : Hart) (a : TArgs) (s : State) : Host.Outcome State Fault Refusal := .next (s.tileWork h 2 a (fun e k => k.fill e a true))
/-- TLANES. -/
def execTlanes (h : Hart) (a : TArgs) (s : State) : Host.Outcome State Fault Refusal := .next (s.tileWork h 3 a (fun e k => k.fillLanes e a.tb))

/-- The accumulator element of row `i` and column `j` of a tile. -/
def Cluster.accElem (k : Cluster) (t : BitVec 3) (w i j : Nat) : Nat := elemOf (k.getRow t i).toNat w j

/-- A reduction's environment: to nearest even, with the FTZ control (R166, R180). -/
def TileEnv.env (e : TileEnv) : FEnv := ⟨.rne, e.ftzIn, e.ftzOut, false⟩

/-- A reduction of TA into elements 0 to 31 of V[vd]; `rows` sums along rows (R180). -/
def tileReduce (a : TArgs) (rows : Bool) (op : FEnv → Fmt → Nat → Nat → FRes) (e : TileEnv) (k : Cluster) : Cluster :=
  let t := accOf e.fmt
  let red := fun i => reduceTree (fun x y => (op e.env t x y).bits) 0
    ((List.range 32).map (fun j => if rows then k.accElem a.ta t.w i j else k.accElem a.ta t.w j i))
  k.writeElems a.rd t.w ((List.range 32).map (fun i => (i, red i)))

/-- TREDROW. -/
def execTredrow (h : Hart) (a : TArgs) (s : State) : Host.Outcome State Fault Refusal :=
  .next (s.tileWork h 8 a (tileReduce a true (fun g t => fAdd g t t)))
/-- TREDCOL. -/
def execTredcol (h : Hart) (a : TArgs) (s : State) : Host.Outcome State Fault Refusal :=
  .next (s.tileWork h 9 a (tileReduce a false (fun g t => fAdd g t t)))
/-- TREDROWMAX: maximumNumber. -/
def execTredrowmax (h : Hart) (a : TArgs) (s : State) : Host.Outcome State Fault Refusal :=
  .next (s.tileWork h 10 a (tileReduce a true (fun g t => fMinMax g t true true)))
/-- TREDCOLMAX. -/
def execTredcolmax (h : Hart) (a : TArgs) (s : State) : Host.Outcome State Fault Refusal :=
  .next (s.tileWork h 11 a (tileReduce a false (fun g t => fMinMax g t true true)))

/-- TMOVTV: V[vd] bits [4095:0] ← row X[rs1][4:0] of TA; the bits above stay (R181). -/
def execTmovtv (h : Hart) (a : TArgs) (s : State) : Host.Outcome State Fault Refusal :=
  .next (s.tileWork h 12 a (fun _ k =>
    k.setV a.rd ((k.getV a.rd).extractLsb' 4096 4096 ++ k.getRow a.ta ((k.getX a.rs1).toNat % 32))))

/-- TMOVVT: row X[rs1][4:0] of TD ← V[rs2] bits [4095:0]. -/
def execTmovvt (h : Hart) (a : TArgs) (s : State) : Host.Outcome State Fault Refusal :=
  .next (s.tileWork h 13 a (fun _ k =>
    k.setRow (a.rd.extractLsb' 0 3) ((k.getX a.rs1).toNat % 32) ((k.getV a.rs2).extractLsb' 0 4096)))

/-- TLTOT: rows and companion of TD ← the lane columns and their scales. -/
def execTltot (h : Hart) (a : TArgs) (s : State) : Host.Outcome State Fault Refusal :=
  .next (s.tileWork h 14 a (fun _ k =>
    (List.range 32).foldl (fun c j => (c.setRow (a.rd.extractLsb' 0 3) j (Tbl.get (fun _ => 0) k.lanes j)).setScale
      (a.rd.extractLsb' 0 3) j (Tbl.get (fun _ => unitScales) k.laneSc j)) k))

/-! ### Rows in memory -/

/-- The pieces of `n` bytes at `ea`, each within one cache line, with element index `idx` of the first byte and one more per byte
where `step`. -/
def linePieces (idx : Nat) (step : Bool) : Nat → Nat → Nat → List Item
  | 0, _, _ => []
  | _, _, 0 => []
  | fuel + 1, ea, n =>
    let m := min n (128 - ea % 128)
    ⟨idx, ea, m⟩ :: linePieces (if step then idx + m else idx) step fuel ((ea + m) % 2 ^ 64) (n - m)

/-- The item with the lowest address. -/
def lowItem (l : List Item) : Item := l.foldl (fun a i => if i.ea < a.ea then i else a) (l.headD ⟨0, 0, 0⟩)

/-- TRAPDETAIL of a tile load or store: the tile, the row of the lowest faulting byte, and its offset in elements (R183). An item's
index is 512 × row + byte offset. -/
def tileDetail (t : BitVec 3) (w acc : Nat) (l : List Item) : Nat :=
  let i := (lowItem l).idx
  let el := if w = 4 then i % 512 * 2 else i % 512 / (w / 8)
  el % 65536 * 2 ^ 32 + t.toNat * 2 ^ 21 + i / 512 * 2 ^ 16 + 3 * 4 + acc

/-- The rows of a tile access as items: row r at X[rs1] + r × X[rs2], `n` bytes each. -/
def tileItems (a : TArgs) (n : Nat) (k : Cluster) : List Item :=
  (List.range 32).flatMap (fun r =>
    linePieces (512 * r) true (n / 128 + 2) (wrapAddr (k.getX a.rs1) ((r : Int) * (k.getX a.rs2).toInt)) n)

/-- The rows whose address is not a multiple of `n`. -/
def crookedRows (a : TArgs) (n : Nat) (k : Cluster) : List Item :=
  ((List.range 32).map (fun r => (⟨512 * r, wrapAddr (k.getX a.rs1) ((r : Int) * (k.getX a.rs2).toInt), n⟩ : Item))).filter
    (fun i => decide (i.ea % n ≠ 0))

/-- A load of 32 rows of `n` bytes aligned to `al`; `f` writes row r with its bytes as a number (R182, R183). -/
def State.tileLoad (s : State) (h : Hart) (f5 n al : Nat) (a : TArgs) (f : Cluster → Nat → Nat → Cluster) : State :=
  s.issue h (encT 24 f5 a) false (fun t =>
    let k := t.clu h.part h.clu
    let det := tileDetail (a.rd.extractLsb' 0 3) (tileBits k.tfmt.toNat) 0
    let bad := crookedRows a al k
    if bad ≠ [] then .trap t ⟨codeAlign, lowEa bad, det bad⟩
    else t.itemLoad h false (tileItems a n k) det (fun u l => u.cluWork h (fun c =>
      (List.range 32).foldl (fun c r => f c r (natLE ((l.filter (fun e => decide (e.1.idx / 512 = r))).flatMap (fun e => e.2)))) c)))

/-- A store of 32 rows of `n` bytes; `f` gives row r as a number. The tile is named by TA (Table 9-5). -/
def State.tileStore (s : State) (h : Hart) (f5 n al : Nat) (a : TArgs) (f : Cluster → Nat → Nat) : State :=
  s.issue h (encT 24 f5 a) false (fun t =>
    let k := t.clu h.part h.clu
    let det := tileDetail a.ta (tileBits k.tfmt.toNat) 1
    let bad := crookedRows a al k
    if bad ≠ [] then .trap t ⟨codeAlign, lowEa bad, det bad⟩
    else t.itemStore h false
      ((tileItems a n k).map (fun i => (i, bytesLE i.n (f k (i.idx / 512) / 2 ^ (8 * (i.idx % 512)))))) det)

/-- TLD. -/
def execTld (h : Hart) (a : TArgs) (s : State) : Host.Outcome State Fault Refusal :=
  .next (s.tileLoad h 0 512 64 a (fun c r x => c.setRow (a.rd.extractLsb' 0 3) r (BitVec.ofNat 4096 x)))
/-- TST. (DEDUCED: assumption 65.) -/
def execTst (h : Hart) (a : TArgs) (s : State) : Host.Outcome State Fault Refusal :=
  .next (s.tileStore h 1 512 64 a (fun c r => (c.getRow a.ta r).toNat))
/-- TLDS: the companion. -/
def execTlds (h : Hart) (a : TArgs) (s : State) : Host.Outcome State Fault Refusal :=
  .next (s.tileLoad h 2 32 32 a (fun c r x => c.setScale (a.rd.extractLsb' 0 3) r (BitVec.ofNat 256 x)))
/-- TSTS: the companion. (DEDUCED: assumption 65.) -/
def execTsts (h : Hart) (a : TArgs) (s : State) : Host.Outcome State Fault Refusal :=
  .next (s.tileStore h 3 32 32 a (fun c r => (c.getScale a.ta r).toNat))

/-! ### TSTREAM and TSTREAMA (R179, R184, R188) -/

/-- TRAPDETAIL of a stream fault: the row index, bits [15:0] in ELEMENT and [20:16] in TILE_ROW; UNIT 3. -/
def streamDetail (r acc : Nat) : Nat := r % 65536 * 2 ^ 32 + r / 65536 % 32 * 2 ^ 16 + 3 * 4 + acc

/-- Bytes of one A row, without its scales. -/
def TileEnv.aBytes (e : TileEnv) : Nat := e.steps * laneDepth e.fmt * tileBits e.fmt / 8

/-- Scale bytes of one A row. -/
def TileEnv.aScales (e : TileEnv) : Nat := if e.sc then e.steps * laneDepth e.fmt / 32 else 0

/-- The items of A row `r`. -/
def aItems (k : Cluster) (e : TileEnv) (a : TArgs) (r : Nat) : List Item :=
  linePieces r false 8 (wrapAddr (k.getX a.rs1) ((r : Int) * k.strideA.toNat)) (e.aBytes + e.aScales)

/-- The items of C row `r`. -/
def cItems (k : Cluster) (e : TileEnv) (a : TArgs) (r : Nat) : List Item :=
  linePieces r false 4 (wrapAddr (k.getX a.rs2) ((r : Int) * k.strideC.toNat)) (4 * (accOf e.fmt).w)

/-- The TILE_BUSY condition: lanes not loaded, or loaded in another format or scale setting (R188). -/
def Cluster.tileBusy (k : Cluster) (e : TileEnv) : Bool := !k.lvalid || k.lfmt.toNat != e.fmt || k.lsc != e.sc

/-- Translates the rows from `r` on, `n` of them: faults with their ACCESS, and the places of A and C row by row.
(DEDUCED: assumption 65.) -/
def State.streamXlate (s : State) (h : Hart) (k : Cluster) (e : TileEnv) (a : TArgs) (accum : Bool) :
    Nat → Nat → List (Item × Nat) × List (List Placed × List Placed) × State
  | 0, _ => ([], [], s)
  | n + 1, r =>
    let x := s.xlateAll h .read (aItems k e a r)
    let y := x.2.2.xlateAll h (if accum then .rmw else .write) (cItems k e a r)
    let z := y.2.2.streamXlate h k e a accum n (r + 1)
    (x.1.map (fun i => (i, 0)) ++ y.1.map (fun i => (i, 1)) ++ z.1, (x.2.1, y.2.1) :: z.2.1, z.2.2)

/-- Whether a store at a place of this chip would be denied where it arrives: at its controller, or at the fill of its line (R184, R268).
What another chip denies its answer tells (R277). -/
def State.storeDenied (s : State) (h : Hart) (x : Placed) : Bool :=
  let a := localPa x.pl.pa
  let q := s.cluReq h.part h.clu
  if s.isRegs x.pl then !s.cluAdmits h (regOff x.pl) true
  else if !s.isLocal x.pl.pa then false
  else if s.useCache h x.pl then ((s.l2Of h.part).find (a / 128)).isNone && (s.roleOffAt a || !s.claimed q a true false)
  else s.roleOffAt a || !s.claimed q a false true

/-- A denial ends the stream at row `r`: it is held as an imprecise CLAIM_DENIED (R184, R128).
(DEDUCED: assumption 65.) -/
def State.streamDenied (s : State) (h : Hart) (i : Item) (acc : Nat) : State :=
  s.pendAbort h.part h.clu i.ea (streamDetail i.idx acc)

/-- Writes the pieces of one C row, those at another chip first: the items denied, after which nothing more of the row is written (R184). -/
def State.streamStore (s : State) (h : Hart) (d : List (Placed × List Byte)) : Got2 × State :=
  let det := fun (i : Item) => streamDetail i.idx 1
  let w := s.storeAll h false det (d.filter (fun x => !s.isLocal x.1.pl.pa))
  if w.1 = .denied [] then w.2.storeAll h false det (d.filter (fun x => s.isLocal x.1.pl.pa)) else w

/-- Streams the placed rows: A row (and C row) read, results written; a denial stops it. -/
def State.streamRows (s : State) (h : Hart) (k : Cluster) (e : TileEnv) (accum : Bool) : List (List Placed × List Placed) → Got × State
  | [] => (.ok [], s)
  | (pa, pc) :: t =>
    let ra := s.loadAll h false pa
    match ra.1 with
    | .stall => (.stall, ra.2)
    | .ue => (.ue, ra.2)
    | .denied l => (.ok [], ra.2.streamDenied h (lowItem l) 0)
    | .ok la =>
      let rc := if accum then ra.2.loadAll h false pc else (.ok [], ra.2)
      match rc.1 with
      | .stall => (.stall, rc.2)
      | .ue => (.ue, rc.2)
      | .denied l => (.ok [], rc.2.streamDenied h (lowItem l) 0)
      | .ok lc =>
        let w := (accOf e.fmt).w
        let abytes := la.flatMap (fun x => x.2)
        let old := natLE (lc.flatMap (fun x => x.2))
        let row : TRow := ⟨natLE (abytes.take e.aBytes), natLE (abytes.drop e.aBytes)⟩
        let out := (List.range 32).foldl (fun x j => withElem x w j ((k.stream e row (fun j => if accum then elemOf old w j else 0)).getD j 0)) 0
        match pc.find? (fun x => rc.2.storeDenied h x) with
        | some x => (.ok [], (rc.2.abortAt (rc.2.cluReq h.part h.clu) (localPa x.pl.pa) true).streamDenied h x.it 1)
        | none =>
          let base := (pc.map (fun x => x.it.ea)).headD 0
          let d := pc.map (fun x => (x, bytesLE x.it.n (out / 2 ^ (8 * ((x.it.ea + 2 ^ 64 - base) % 2 ^ 64)))))
          let w2 := rc.2.streamStore h d
          match w2.1 with
          | .denied [] => w2.2.streamRows h k e accum t
          | .denied l => (.ok [], w2.2.streamDenied h (lowItem l) 1)
          | .ue => (.ue, w2.2)
          | _ => (.stall, w2.2)

/-- The work of TSTREAM and TSTREAMA: alignment, every page, TILE_BUSY, then the rows (R125, R184, R188).
(DEDUCED: assumption 65.) -/
def State.streamWork (h : Hart) (a : TArgs) (accum : Bool) (s : State) : Done :=
  let k := s.clu h.part h.clu
  let e := s.tileEnv h
  let bad := ([k.getX a.rs1, k.getX a.rs2].zip [0, 1]).filter (fun x => decide (x.1.toNat % 64 ≠ 0))
  let low := bad.foldl (fun (m : Nat × Nat) x => if x.1.toNat < m.1 then (x.1.toNat, x.2) else m) (2 ^ 64, 0)
  if k.tcount ≠ 0 ∧ bad ≠ [] then .trap s ⟨codeAlign, low.1, streamDetail 0 low.2⟩
  else
    let x := s.streamXlate h k e a accum k.tcount 0
    if x.1 ≠ [] then
      let f := x.1.foldl (fun m i => if i.1.ea < m.1.ea then i else m) (x.1.headD (⟨0, 0, 0⟩, 0))
      .trap x.2.2 ⟨codePage, f.1.ea, streamDetail f.1.idx f.2⟩
    else if k.tileBusy e then .trap x.2.2 ⟨codeTile, 0, 3 * 4⟩
    else
      let r := x.2.2.streamRows h k e accum x.2.1
      match r.1 with
      | .ok _ => .retire r.2
      | .ue => .ue r.2
      | _ => .wait

/-- TSTREAM. -/
def execTstream (h : Hart) (a : TArgs) (s : State) : Host.Outcome State Fault Refusal :=
  .next (s.issue h (encT 23 4 a) false (State.streamWork h a false))
/-- TSTREAMA. -/
def execTstreama (h : Hart) (a : TArgs) (s : State) : Host.Outcome State Fault Refusal :=
  .next (s.issue h (encT 23 5 a) false (State.streamWork h a true))

end Sys2Proof.Machine
end

