-- ==== Sys2Proof/Machine/Short.lean ====
section
/-!
DEFINITION. Machine/Short.lean: the short-vector unit (Table 7-9, R153).
-/
namespace Sys2Proof.Machine

/-! ### SV-ARITH (R153, Table 7-9) -/

/-- A short-vector source with its Z0 modifier. -/
def Cluster.sSrc (k : Cluster) (r : BitVec 5) (z0 : Bool) (w i : Nat) : Nat := elemOf (k.getS r).toNat w (if z0 then 0 else i)

/-- Writes the whole of S[r] from its elements in order. -/
def Cluster.writeS (k : Cluster) (r : BitVec 5) (w : Nat) (l : List Nat) : Cluster :=
  k.setS r (BitVec.ofNat 256 ((List.range l.length).foldl (fun x i => withElem x w i (l.getD i 0)) 0))

/-- The work of a short-vector instruction: `f` of the old destination, ss1, ss2 at each element. -/
def svWork (a : SvArgs) (w : Nat) (f : Nat → Nat → Nat → FRes) (k : Cluster) : Cluster :=
  let rs := (List.range (256 / w)).map (fun i => f (k.sSrc a.sd false w i) (k.sSrc a.ss1 a.z0a w i) (k.sSrc a.ss2 a.z0b w i))
  (k.writeS a.sd w (rs.map (fun r => r.bits))).accrue (orFlags rs)

/-- The width of an EFMT code. -/
def efmtBits (e : BitVec 4) : Nat :=
  match e.toNat with
  | 0 => 64
  | 1 => 32
  | 2 => 16
  | 3 => 16
  | 4 => 8
  | 5 => 8
  | 8 => 64
  | 9 => 32
  | 10 => 16
  | _ => 8

/-- The FP format of an EFMT code. -/
def efmtFmt (e : BitVec 4) : Fmt :=
  match e.toNat with
  | 0 => fmtD
  | 1 => fmtS
  | 2 => fmtH
  | 3 => fmtBf
  | 4 => fmtE4
  | _ => fmtE5

/-- An integer short-vector instruction: `f` of the width, old destination and sources. -/
def State.svInt (s : State) (h : Hart) (f5 : Nat) (a : SvArgs) (f : Nat → Nat → Nat → Nat → Nat) : State :=
  s.issue h (encSv f5 a) false (fun t => t.cluWork h (svWork a (efmtBits a.efmt) (fun d x y =>
    ⟨f (efmtBits a.efmt) d x y % 2 ^ efmtBits a.efmt, 0⟩)))

/-- An FP short-vector instruction. -/
def State.svFp (s : State) (h : Hart) (f5 : Nat) (a : SvArgs) (f : FEnv → Fmt → Nat → Nat → Nat → FRes) : State :=
  s.issue h (encSv f5 a) false (fun t => t.cluWork h (svWork a (efmtBits a.efmt) (f (t.vEnv h) (efmtFmt a.efmt))))

/-- All ones where true. -/
def maskElem (w : Nat) (b : Bool) : Nat := if b then 2 ^ w - 1 else 0

/-- SADD. -/
def execSadd (h : Hart) (a : SvArgs) (s : State) : Host.Outcome State Fault Refusal :=
  .next (s.svInt h 0 a (fun _ _ x y => x + y))
/-- SSUB. -/
def execSsub (h : Hart) (a : SvArgs) (s : State) : Host.Outcome State Fault Refusal :=
  .next (s.svInt h 1 a (fun w _ x y => x + (2 ^ w - y)))
/-- SMUL. -/
def execSmul (h : Hart) (a : SvArgs) (s : State) : Host.Outcome State Fault Refusal :=
  .next (s.svInt h 2 a (fun _ _ x y => x * y))
/-- SAND. -/
def execSand (h : Hart) (a : SvArgs) (s : State) : Host.Outcome State Fault Refusal :=
  .next (s.svInt h 3 a (fun _ _ x y => x &&& y))
/-- SOR. -/
def execSor (h : Hart) (a : SvArgs) (s : State) : Host.Outcome State Fault Refusal :=
  .next (s.svInt h 4 a (fun _ _ x y => x ||| y))
/-- SXOR. -/
def execSxor (h : Hart) (a : SvArgs) (s : State) : Host.Outcome State Fault Refusal :=
  .next (s.svInt h 5 a (fun _ _ x y => x ^^^ y))
/-- SMIN, signed (assumption 52). (DEDUCED: assumption 52.) -/
def execSmin (h : Hart) (a : SvArgs) (s : State) : Host.Outcome State Fault Refusal :=
  .next (s.svInt h 6 a (fun w _ x y => if codeInt true w x < codeInt true w y then x else y))
/-- SMAX, signed (assumption 52). (DEDUCED: assumption 52.) -/
def execSmax (h : Hart) (a : SvArgs) (s : State) : Host.Outcome State Fault Refusal :=
  .next (s.svInt h 7 a (fun w _ x y => if codeInt true w x < codeInt true w y then y else x))
/-- SCMPEQ: all ones where equal. -/
def execScmpeq (h : Hart) (a : SvArgs) (s : State) : Host.Outcome State Fault Refusal :=
  .next (s.svInt h 8 a (fun w _ x y => maskElem w (x == y)))
/-- SCMPLT, signed (assumption 52). (DEDUCED: assumption 52.) -/
def execScmplt (h : Hart) (a : SvArgs) (s : State) : Host.Outcome State Fault Refusal :=
  .next (s.svInt h 9 a (fun w _ x y => maskElem w (decide (codeInt true w x < codeInt true w y))))
/-- SSEL: sd ← (sd AND ss1) OR (NOT sd AND ss2). -/
def execSsel (h : Hart) (a : SvArgs) (s : State) : Host.Outcome State Fault Refusal :=
  .next (s.svInt h 10 a (fun _ d x y => (d &&& x) ||| (y ^^^ (d &&& y))))
/-- SFADD. -/
def execSfadd (h : Hart) (a : SvArgs) (s : State) : Host.Outcome State Fault Refusal :=
  .next (s.svFp h 16 a (fun g t _ x y => fAdd g t t x y))
/-- SFSUB. -/
def execSfsub (h : Hart) (a : SvArgs) (s : State) : Host.Outcome State Fault Refusal :=
  .next (s.svFp h 17 a (fun g t _ x y => fSub g t t x y))
/-- SFMUL. -/
def execSfmul (h : Hart) (a : SvArgs) (s : State) : Host.Outcome State Fault Refusal :=
  .next (s.svFp h 18 a (fun g t _ x y => fMul g t t x y))
/-- SFDIV. -/
def execSfdiv (h : Hart) (a : SvArgs) (s : State) : Host.Outcome State Fault Refusal :=
  .next (s.svFp h 19 a (fun g t _ x y => fDiv g t x y))
/-- SFMACC: sd + ss1 × ss2, one rounding. -/
def execSfmacc (h : Hart) (a : SvArgs) (s : State) : Host.Outcome State Fault Refusal :=
  .next (s.svFp h 20 a (fun g t d x y => fFma g t t false false x y d))
/-- SFMIN; the result for one NaN operand is open (assumption 10).
(DESIGN CHOICE: assumption 10.) -/
def execSfmin (h : Hart) (a : SvArgs) (s : State) : Host.Outcome State Fault Refusal :=
  .next (s.svFp h 21 a (fun g t _ x y => fMinMax g t Config.sfminNumber false x y))
/-- SFMAX. (DESIGN CHOICE: assumption 10.) -/
def execSfmax (h : Hart) (a : SvArgs) (s : State) : Host.Outcome State Fault Refusal :=
  .next (s.svFp h 22 a (fun g t _ x y => fMinMax g t Config.sfminNumber true x y))

/-- An FP compare into all ones or zero. -/
def svCmp (op : Nat) (g : FEnv) (t : Fmt) (_ x y : Nat) : FRes :=
  let r := fCmp g t op x y
  ⟨maskElem t.w r.1, r.2⟩

/-- SFCMPEQ. -/
def execSfcmpeq (h : Hart) (a : SvArgs) (s : State) : Host.Outcome State Fault Refusal := .next (s.svFp h 23 a (svCmp 0))
/-- SFCMPLT. -/
def execSfcmplt (h : Hart) (a : SvArgs) (s : State) : Host.Outcome State Fault Refusal := .next (s.svFp h 24 a (svCmp 1))
/-- SFCMPLE. -/
def execSfcmple (h : Hart) (a : SvArgs) (s : State) : Host.Outcome State Fault Refusal := .next (s.svFp h 25 a (svCmp 2))

/-! ### SV-MEM (R153): the address is aligned to the element width, and ELEMENT counts elements of EFMT -/

/-- The element accesses of SLD and SST. (DEDUCED: assumption 66.) -/
def svItems (a : SvMemArgs) (n : Nat) (k : Cluster) : List Item :=
  let nb := efmtBits a.efmt / 8
  (List.range n).map (fun i => ⟨i, wrapAddr (k.getX a.base + k.getX a.off) ((i * nb : Nat) : Int), nb⟩)

/-- A load of `n` elements; `f` makes the elements of S[sd] of those loaded. -/
def State.svLoad (s : State) (h : Hart) (f5 n : Nat) (a : SvMemArgs) (f : List Nat → List Nat) : State :=
  s.issue h (encSvMem f5 a) false (fun t =>
    let items := svItems a n (t.clu h.part h.clu)
    let bad := crooked (efmtBits a.efmt / 8) items
    if bad ≠ [] then .trap t ⟨codeAlign, lowEa bad, vecDetail 1 0 bad⟩
    else t.itemLoad h a.strm items (vecDetail 1 0) (fun u l => u.cluWork h (fun c =>
      c.writeS a.sd (efmtBits a.efmt) (f ((loadedElems l).map (fun e => e.2))))))

/-- SLD: 32 bytes at X[base] + X[off]. -/
def execSld (h : Hart) (a : SvMemArgs) (s : State) : Host.Outcome State Fault Refusal :=
  .next (s.svLoad h 0 (256 / efmtBits a.efmt) a (fun l => l))

/-- SST. -/
def execSst (h : Hart) (a : SvMemArgs) (s : State) : Host.Outcome State Fault Refusal :=
  .next (s.issue h (encSvMem 1 a) false (fun t =>
    let k := t.clu h.part h.clu
    let w := efmtBits a.efmt
    let items := svItems a (256 / w) k
    let bad := crooked (w / 8) items
    if bad ≠ [] then .trap t ⟨codeAlign, lowEa bad, vecDetail 1 1 bad⟩
    else t.itemStore h a.strm (items.map (fun i => (i, bytesLE (w / 8) (elemOf (k.getS a.sd).toNat w i.idx)))) (vecDetail 1 1)))

/-- SLDB: one element read once and written to every element. -/
def execSldb (h : Hart) (a : SvMemArgs) (s : State) : Host.Outcome State Fault Refusal :=
  .next (s.svLoad h 2 1 a (fun l => List.replicate (256 / efmtBits a.efmt) (l.headD 0)))

end Sys2Proof.Machine
end

