-- ==== Sys2Proof/Machine/VecMask.lean ====
section
/-!
DEFINITION. Machine/VecMask.lean: LV-MASK (Table 7-4).
-/
namespace Sys2Proof.Machine

/-! ### Compares (R143) -/

/-- A compare's work: bit i of M[vd[2:0]] is the result at active element i, and every other bit is 0. -/
def State.cmpWork (s : State) (a : VArgs) (f : Nat → Nat → Nat → Bool × BitVec 5) (k : Cluster) : Cluster :=
  let w := sewBits k.sew
  let rs := (k.actives (s.vlNow k) a.masked a.mask).map (fun i => (i, f w (k.vSrc a.vs1 a.z0a w i) (k.vSrc a.vs2 a.z0b w i)))
  let on := (rs.filter (fun e => e.2.1)).map (fun e => e.1)
  (k.setM (a.vd.extractLsb' 0 3) (s.maskBits (bitsSet on))).accrue (rs.foldl (fun x e => x ||| e.2.2) 0)

/-- An integer compare. -/
def State.cmpInt (s : State) (h : Hart) (f5 : Nat) (a : VArgs) (f : Nat → Nat → Nat → Bool) : State :=
  s.issue h (encV 20 f5 a) false (fun t => t.cluWork h (t.cmpWork a (fun w x y => (f w x y, 0))))

/-- An FP compare of kind `op`. -/
def State.cmpFp (s : State) (h : Hart) (f5 : Nat) (a : VArgs) (op : Nat) : State :=
  s.issue h (encV 20 f5 a) false (fun t => t.cluWork h (fun k =>
    t.cmpWork a (fun _ x y => fCmp (t.vEnv h) (sewFmt k.sew k.alt) op x y) k))

/-- VMSEQ. -/
def execVmseq (h : Hart) (a : VArgs) (s : State) : Host.Outcome State Fault Refusal := .next (s.cmpInt h 0 a (fun _ x y => x == y))
/-- VMSNE. -/
def execVmsne (h : Hart) (a : VArgs) (s : State) : Host.Outcome State Fault Refusal := .next (s.cmpInt h 1 a (fun _ x y => x != y))
/-- VMSLT. -/
def execVmslt (h : Hart) (a : VArgs) (s : State) : Host.Outcome State Fault Refusal := .next (s.cmpInt h 2 a (fun w x y => decide (codeInt true w x < codeInt true w y)))
/-- VMSLTU. -/
def execVmsltu (h : Hart) (a : VArgs) (s : State) : Host.Outcome State Fault Refusal := .next (s.cmpInt h 3 a (fun _ x y => decide (x < y)))
/-- VMSLE. -/
def execVmsle (h : Hart) (a : VArgs) (s : State) : Host.Outcome State Fault Refusal := .next (s.cmpInt h 4 a (fun w x y => decide (codeInt true w x ≤ codeInt true w y)))
/-- VMSLEU. -/
def execVmsleu (h : Hart) (a : VArgs) (s : State) : Host.Outcome State Fault Refusal := .next (s.cmpInt h 5 a (fun _ x y => decide (x ≤ y)))
/-- VMFEQ. -/
def execVmfeq (h : Hart) (a : VArgs) (s : State) : Host.Outcome State Fault Refusal := .next (s.cmpFp h 6 a 0)
/-- VMFLT. -/
def execVmflt (h : Hart) (a : VArgs) (s : State) : Host.Outcome State Fault Refusal := .next (s.cmpFp h 7 a 1)
/-- VMFLE. -/
def execVmfle (h : Hart) (a : VArgs) (s : State) : Host.Outcome State Fault Refusal := .next (s.cmpFp h 8 a 2)
/-- VMFUN: true if either operand is NaN. -/
def execVmfun (h : Hart) (a : VArgs) (s : State) : Host.Outcome State Fault Refusal := .next (s.cmpFp h 9 a 3)

/-! ### Mask logicals, VMSET, VMPOP, VMFIRST (R143, Table 7-4) -/

/-- Keeps the bits below VL. -/
def State.belowVl (s : State) (k : Cluster) (x : Nat) : BitVec 1024 := s.maskBits (x % 2 ^ s.vlNow k)

/-- A mask logical of code `f5`. -/
def State.maskOp (s : State) (h : Hart) (f5 : Nat) (a : VArgs) (f : Nat → Nat → Nat) : State :=
  s.issue h (encV 20 f5 a) false (fun t => t.cluWork h (fun k =>
    k.setM (a.vd.extractLsb' 0 3)
      (t.belowVl k (f (k.getM (a.vs1.extractLsb' 0 3)).toNat (k.getM (a.vs2.extractLsb' 0 3)).toNat))))

/-- VMAND. -/
def execVmand (h : Hart) (a : VArgs) (s : State) : Host.Outcome State Fault Refusal := .next (s.maskOp h 16 a (fun x y => x &&& y))
/-- VMOR. -/
def execVmor (h : Hart) (a : VArgs) (s : State) : Host.Outcome State Fault Refusal := .next (s.maskOp h 17 a (fun x y => x ||| y))
/-- VMXOR. -/
def execVmxor (h : Hart) (a : VArgs) (s : State) : Host.Outcome State Fault Refusal := .next (s.maskOp h 18 a (fun x y => x ^^^ y))
/-- VMANDN: M[vs1] AND NOT M[vs2]. -/
def execVmandn (h : Hart) (a : VArgs) (s : State) : Host.Outcome State Fault Refusal := .next (s.maskOp h 19 a (fun x y => x ^^^ (x &&& y)))
/-- VMSET: the bits below VL. -/
def execVmset (h : Hart) (a : VArgs) (s : State) : Host.Outcome State Fault Refusal := .next (s.maskOp h 20 a (fun _ _ => 2 ^ 1024 - 1))

/-- An instruction that writes X[W[9:5]] from the bits of M[vs1] below VL. -/
def State.maskX (s : State) (h : Hart) (f5 : Nat) (a : VArgs) (f : List Nat → BitVec 64) : State :=
  s.issue h (encV 20 f5 a) false (fun t => t.cluWork h (fun k =>
    k.setX a.vd (f ((List.range (t.vlNow k)).filter (fun i => (k.getM (a.vs1.extractLsb' 0 3)).getLsbD i)))))

/-- VMPOP: how many bits are set. -/
def execVmpop (h : Hart) (a : VArgs) (s : State) : Host.Outcome State Fault Refusal := .next (s.maskX h 24 a (fun l => BitVec.ofNat 64 l.length))
/-- VMFIRST: the lowest set index, or all ones if none. -/
def execVmfirst (h : Hart) (a : VArgs) (s : State) : Host.Outcome State Fault Refusal :=
  .next (s.maskX h 25 a (fun l => match l with | [] => BitVec.allOnes 64 | i :: _ => BitVec.ofNat 64 i))

end Sys2Proof.Machine
end

