-- ==== Sys2Proof/Machine/Dispatch.lean ====
section
/-!
DEFINITION. Machine/Dispatch.lean: one arm per command, each a direct call of its meaning.
-/
namespace Sys2Proof.Machine

/-- The effect of a command on everything but the queue. -/
def exec (i : Instr) (s : State) : Host.Outcome State Fault Refusal :=
  match i with
  | .registerWrite m off data => Sys2Proof.Machine.execRegisterWrite m off data s
  | .pairLowRead m off => Sys2Proof.Machine.execPairLowRead m off s
  | .admissionDescriptor qd qdp => Sys2Proof.Machine.execAdmissionDescriptor qd qdp s
  | .acceptRecord slot tc desc ts => Sys2Proof.Machine.execAcceptRecord slot tc desc ts s
  | .retirementRecord beat used => Sys2Proof.Machine.execRetirementRecord beat used s
  | .classTableArrival img => Sys2Proof.Machine.execClassTableArrival img s
  | .boundaryIndication => Sys2Proof.Machine.execBoundaryIndication s
  | .swapEdge => Sys2Proof.Machine.execSwapEdge s
  | .commit slot be v cid => Sys2Proof.Machine.execCommit slot be v cid s
  | .watermarkEvaluation w => Sys2Proof.Machine.execWatermarkEvaluation w s
  | .watermarkIrqEnable w => Sys2Proof.Machine.execWatermarkIrqEnable w s
  | .snap mask => Sys2Proof.Machine.execSnap mask s
  | .clear mask => Sys2Proof.Machine.execClear mask s
  | .winClear mask => Sys2Proof.Machine.execWinClear mask s
  | .pllLock => Sys2Proof.Machine.execPllLock s
  | .oclkTrimComplete => Sys2Proof.Machine.execOclkTrimComplete s
  | .stretchEvent p depth => Sys2Proof.Machine.execStretchEvent p depth s
  | .droopRecovery p => Sys2Proof.Machine.execDroopRecovery p s
  | .droopCounterClear p => Sys2Proof.Machine.execDroopCounterClear p s
  | .refEdgeTimeout => Sys2Proof.Machine.execRefEdgeTimeout s
  | .refFrequencyWindow edges present => Sys2Proof.Machine.execRefFrequencyWindow edges present s
  | .relockComplete => Sys2Proof.Machine.execRelockComplete s
  | .beatBoundary => Sys2Proof.Machine.execBeatBoundary s
  | .syncEdge t => Sys2Proof.Machine.execSyncEdge t s
  | .syncMiss => Sys2Proof.Machine.execSyncMiss s
  | .reacq => Sys2Proof.Machine.execReacq s
  | .tsLoad => Sys2Proof.Machine.execTsLoad s
  | .putHeader p hdr => Sys2Proof.Machine.execPutHeader p hdr s
  | .putComplete p f a => Sys2Proof.Machine.execPutComplete p f a s
  | .putAcknowledgement p slot kind => Sys2Proof.Machine.execPutAcknowledgement p slot kind s
  | .negativeAcknowledgement p slot kind => Sys2Proof.Machine.execNegativeAcknowledgement p slot kind s
  | .frameTake p => Sys2Proof.Machine.execFrameTake p s
  | .ingressIntake p => Sys2Proof.Machine.execIngressIntake p s
  | .resultWrite p a => Sys2Proof.Machine.execResultWrite p a s
  | .foCmd p => Sys2Proof.Machine.execFoCmd p s
  | .failoverCopyComplete p => Sys2Proof.Machine.execFailoverCopyComplete p s
  | .reservedOp h w => Sys2Proof.Machine.execReservedOp h w s
  | .malformedOp h w => Sys2Proof.Machine.execMalformedOp h w s
  | .storeAbortReturn h addr => Sys2Proof.Machine.execStoreAbortReturn h addr s
  | .add h a => Sys2Proof.Machine.execAdd h a s
  | .sub h a => Sys2Proof.Machine.execSub h a s
  | .and h a => Sys2Proof.Machine.execAnd h a s
  | .or h a => Sys2Proof.Machine.execOr h a s
  | .xor h a => Sys2Proof.Machine.execXor h a s
  | .sll h a => Sys2Proof.Machine.execSll h a s
  | .srl h a => Sys2Proof.Machine.execSrl h a s
  | .sra h a => Sys2Proof.Machine.execSra h a s
  | .slt h a => Sys2Proof.Machine.execSlt h a s
  | .sltu h a => Sys2Proof.Machine.execSltu h a s
  | .min h a => Sys2Proof.Machine.execMin h a s
  | .max h a => Sys2Proof.Machine.execMax h a s
  | .minu h a => Sys2Proof.Machine.execMinu h a s
  | .maxu h a => Sys2Proof.Machine.execMaxu h a s
  | .mul h a => Sys2Proof.Machine.execMul h a s
  | .mulh h a => Sys2Proof.Machine.execMulh h a s
  | .mulhu h a => Sys2Proof.Machine.execMulhu h a s
  | .mulhsu h a => Sys2Proof.Machine.execMulhsu h a s
  | .div h a => Sys2Proof.Machine.execDiv h a s
  | .divu h a => Sys2Proof.Machine.execDivu h a s
  | .rem h a => Sys2Proof.Machine.execRem h a s
  | .remu h a => Sys2Proof.Machine.execRemu h a s
  | .clz h a => Sys2Proof.Machine.execClz h a s
  | .ctz h a => Sys2Proof.Machine.execCtz h a s
  | .popc h a => Sys2Proof.Machine.execPopc h a s
  | .rev8 h a => Sys2Proof.Machine.execRev8 h a s
  | .addi h a => Sys2Proof.Machine.execAddi h a s
  | .andi h a => Sys2Proof.Machine.execAndi h a s
  | .ori h a => Sys2Proof.Machine.execOri h a s
  | .xori h a => Sys2Proof.Machine.execXori h a s
  | .slti h a => Sys2Proof.Machine.execSlti h a s
  | .sltiu h a => Sys2Proof.Machine.execSltiu h a s
  | .slli h a => Sys2Proof.Machine.execSlli h a s
  | .srli h a => Sys2Proof.Machine.execSrli h a s
  | .srai h a => Sys2Proof.Machine.execSrai h a s
  | .lui h a => Sys2Proof.Machine.execLui h a s
  | .auipc h a => Sys2Proof.Machine.execAuipc h a s
  | .lb h a => Sys2Proof.Machine.execLb h a s
  | .lh h a => Sys2Proof.Machine.execLh h a s
  | .lw h a => Sys2Proof.Machine.execLw h a s
  | .ld h a => Sys2Proof.Machine.execLd h a s
  | .lbu h a => Sys2Proof.Machine.execLbu h a s
  | .lhu h a => Sys2Proof.Machine.execLhu h a s
  | .lwu h a => Sys2Proof.Machine.execLwu h a s
  | .flw h a => Sys2Proof.Machine.execFlw h a s
  | .fld h a => Sys2Proof.Machine.execFld h a s
  | .sb h a => Sys2Proof.Machine.execSb h a s
  | .sh h a => Sys2Proof.Machine.execSh h a s
  | .sw h a => Sys2Proof.Machine.execSw h a s
  | .sd h a => Sys2Proof.Machine.execSd h a s
  | .fsw h a => Sys2Proof.Machine.execFsw h a s
  | .fsd h a => Sys2Proof.Machine.execFsd h a s
  | .beq h a => Sys2Proof.Machine.execBeq h a s
  | .bne h a => Sys2Proof.Machine.execBne h a s
  | .blt h a => Sys2Proof.Machine.execBlt h a s
  | .bge h a => Sys2Proof.Machine.execBge h a s
  | .bltu h a => Sys2Proof.Machine.execBltu h a s
  | .bgeu h a => Sys2Proof.Machine.execBgeu h a s
  | .jal h a => Sys2Proof.Machine.execJal h a s
  | .jalr h a => Sys2Proof.Machine.execJalr h a s
  | .ldaq h a => Sys2Proof.Machine.execLdaq h a s
  | .strl h a => Sys2Proof.Machine.execStrl h a s
  | .amoswap h a => Sys2Proof.Machine.execAmoswap h a s
  | .amoadd h a => Sys2Proof.Machine.execAmoadd h a s
  | .amoand h a => Sys2Proof.Machine.execAmoand h a s
  | .amoor h a => Sys2Proof.Machine.execAmoor h a s
  | .amoxor h a => Sys2Proof.Machine.execAmoxor h a s
  | .amomax h a => Sys2Proof.Machine.execAmomax h a s
  | .amomin h a => Sys2Proof.Machine.execAmomin h a s
  | .amomaxu h a => Sys2Proof.Machine.execAmomaxu h a s
  | .amominu h a => Sys2Proof.Machine.execAmominu h a s
  | .cas h a => Sys2Proof.Machine.execCas h a s
  | .fenceRwRw h => Sys2Proof.Machine.execFenceRwRw h s
  | .fenceRRw h => Sys2Proof.Machine.execFenceRRw h s
  | .fenceRwW h => Sys2Proof.Machine.execFenceRwW h s
  | .fenceWW h => Sys2Proof.Machine.execFenceWW h s
  | .fenceDrain h => Sys2Proof.Machine.execFenceDrain h s
  | .fenceI h => Sys2Proof.Machine.execFenceI h s
  | .csrr h a => Sys2Proof.Machine.execCsrr h a s
  | .csrw h a => Sys2Proof.Machine.execCsrw h a s
  | .csrs h a => Sys2Proof.Machine.execCsrs h a s
  | .csrc h a => Sys2Proof.Machine.execCsrc h a s
  | .break h imm => Sys2Proof.Machine.execBreak h imm s
  | .tret h => Sys2Proof.Machine.execTret h s
  | .wfb h => Sys2Proof.Machine.execWfb h s
  | .fadd h a => Sys2Proof.Machine.execFadd h a s
  | .fsub h a => Sys2Proof.Machine.execFsub h a s
  | .fmul h a => Sys2Proof.Machine.execFmul h a s
  | .fdiv h a => Sys2Proof.Machine.execFdiv h a s
  | .fsqrt h a => Sys2Proof.Machine.execFsqrt h a s
  | .fmin h a => Sys2Proof.Machine.execFmin h a s
  | .fmax h a => Sys2Proof.Machine.execFmax h a s
  | .fsgnj h a => Sys2Proof.Machine.execFsgnj h a s
  | .fsgnjn h a => Sys2Proof.Machine.execFsgnjn h a s
  | .fsgnjx h a => Sys2Proof.Machine.execFsgnjx h a s
  | .feq h a => Sys2Proof.Machine.execFeq h a s
  | .flt h a => Sys2Proof.Machine.execFlt h a s
  | .fle h a => Sys2Proof.Machine.execFle h a s
  | .fclass h a => Sys2Proof.Machine.execFclass h a s
  | .fcvtFF h a => Sys2Proof.Machine.execFcvtFF h a s
  | .fcvtXF h a => Sys2Proof.Machine.execFcvtXF h a s
  | .fcvtFX h a => Sys2Proof.Machine.execFcvtFX h a s
  | .fmvXF h a => Sys2Proof.Machine.execFmvXF h a s
  | .fmvFX h a => Sys2Proof.Machine.execFmvFX h a s
  | .fmadd h a => Sys2Proof.Machine.execFmadd h a s
  | .fmsub h a => Sys2Proof.Machine.execFmsub h a s
  | .fnmadd h a => Sys2Proof.Machine.execFnmadd h a s
  | .fnmsub h a => Sys2Proof.Machine.execFnmsub h a s
  | .cMv h rd rs => Sys2Proof.Machine.execCMv h rd rs s
  | .cMvf h rd rs => Sys2Proof.Machine.execCMvf h rd rs s
  | .cBreak h => Sys2Proof.Machine.execCBreak h s
  | .cAddi h rd imm => Sys2Proof.Machine.execCAddi h rd imm s
  | .cSubi h rd imm => Sys2Proof.Machine.execCSubi h rd imm s
  | .cLd h b r off => Sys2Proof.Machine.execCLd h b r off s
  | .cSd h b r off => Sys2Proof.Machine.execCSd h b r off s
  | .cFld h b f off => Sys2Proof.Machine.execCFld h b f off s
  | .cFsd h b f off => Sys2Proof.Machine.execCFsd h b f off s
  | .cB h off => Sys2Proof.Machine.execCB h off s
  | .cBz h r off => Sys2Proof.Machine.execCBz h r off s
  | .cBnz h r off => Sys2Proof.Machine.execCBnz h r off s
  | .cVsetvl h rd rs sew => Sys2Proof.Machine.execCVsetvl h rd rs sew s
  | .vadd h a => Sys2Proof.Machine.execVadd h a s
  | .vsub h a => Sys2Proof.Machine.execVsub h a s
  | .vmul h a => Sys2Proof.Machine.execVmul h a s
  | .vmulh h a => Sys2Proof.Machine.execVmulh h a s
  | .vand h a => Sys2Proof.Machine.execVand h a s
  | .vor h a => Sys2Proof.Machine.execVor h a s
  | .vxor h a => Sys2Proof.Machine.execVxor h a s
  | .vsll h a => Sys2Proof.Machine.execVsll h a s
  | .vsrl h a => Sys2Proof.Machine.execVsrl h a s
  | .vsra h a => Sys2Proof.Machine.execVsra h a s
  | .vmin h a => Sys2Proof.Machine.execVmin h a s
  | .vmax h a => Sys2Proof.Machine.execVmax h a s
  | .vminu h a => Sys2Proof.Machine.execVminu h a s
  | .vmaxu h a => Sys2Proof.Machine.execVmaxu h a s
  | .vmacc h a => Sys2Proof.Machine.execVmacc h a s
  | .vmv h a => Sys2Proof.Machine.execVmv h a s
  | .vfadd h a => Sys2Proof.Machine.execVfadd h a s
  | .vfsub h a => Sys2Proof.Machine.execVfsub h a s
  | .vfmul h a => Sys2Proof.Machine.execVfmul h a s
  | .vfdiv h a => Sys2Proof.Machine.execVfdiv h a s
  | .vfsqrt h a => Sys2Proof.Machine.execVfsqrt h a s
  | .vfmin h a => Sys2Proof.Machine.execVfmin h a s
  | .vfmax h a => Sys2Proof.Machine.execVfmax h a s
  | .vfmacc h a => Sys2Proof.Machine.execVfmacc h a s
  | .vfnmsac h a => Sys2Proof.Machine.execVfnmsac h a s
  | .vfsgnj h a => Sys2Proof.Machine.execVfsgnj h a s
  | .vfsgnjn h a => Sys2Proof.Machine.execVfsgnjn h a s
  | .vid h a => Sys2Proof.Machine.execVid h a s
  | .vmseq h a => Sys2Proof.Machine.execVmseq h a s
  | .vmsne h a => Sys2Proof.Machine.execVmsne h a s
  | .vmslt h a => Sys2Proof.Machine.execVmslt h a s
  | .vmsltu h a => Sys2Proof.Machine.execVmsltu h a s
  | .vmsle h a => Sys2Proof.Machine.execVmsle h a s
  | .vmsleu h a => Sys2Proof.Machine.execVmsleu h a s
  | .vmfeq h a => Sys2Proof.Machine.execVmfeq h a s
  | .vmflt h a => Sys2Proof.Machine.execVmflt h a s
  | .vmfle h a => Sys2Proof.Machine.execVmfle h a s
  | .vmfun h a => Sys2Proof.Machine.execVmfun h a s
  | .vmand h a => Sys2Proof.Machine.execVmand h a s
  | .vmor h a => Sys2Proof.Machine.execVmor h a s
  | .vmxor h a => Sys2Proof.Machine.execVmxor h a s
  | .vmandn h a => Sys2Proof.Machine.execVmandn h a s
  | .vmset h a => Sys2Proof.Machine.execVmset h a s
  | .vmpop h a => Sys2Proof.Machine.execVmpop h a s
  | .vmfirst h a => Sys2Proof.Machine.execVmfirst h a s
  | .vsetvl h a => Sys2Proof.Machine.execVsetvl h a s
  | .lvCvt h a => Sys2Proof.Machine.execLvCvt h a s
  | .vwadd h a => Sys2Proof.Machine.execVwadd h a s
  | .vwsub h a => Sys2Proof.Machine.execVwsub h a s
  | .vwmul h a => Sys2Proof.Machine.execVwmul h a s
  | .vwmacc h a => Sys2Proof.Machine.execVwmacc h a s
  | .vfwadd h a => Sys2Proof.Machine.execVfwadd h a s
  | .vfwsub h a => Sys2Proof.Machine.execVfwsub h a s
  | .vfwmul h a => Sys2Proof.Machine.execVfwmul h a s
  | .vfwmacc h a => Sys2Proof.Machine.execVfwmacc h a s
  | .vld h a => Sys2Proof.Machine.execVld h a s
  | .vst h a => Sys2Proof.Machine.execVst h a s
  | .vlds h a => Sys2Proof.Machine.execVlds h a s
  | .vsts h a => Sys2Proof.Machine.execVsts h a s
  | .vldx h a => Sys2Proof.Machine.execVldx h a s
  | .vstx h a => Sys2Proof.Machine.execVstx h a s
  | .vldff h a => Sys2Proof.Machine.execVldff h a s
  | .vldm h a => Sys2Proof.Machine.execVldm h a s
  | .vstm h a => Sys2Proof.Machine.execVstm h a s
  | .vredsum h a => Sys2Proof.Machine.execVredsum h a s
  | .vredmax h a => Sys2Proof.Machine.execVredmax h a s
  | .vredmin h a => Sys2Proof.Machine.execVredmin h a s
  | .vredmaxu h a => Sys2Proof.Machine.execVredmaxu h a s
  | .vredminu h a => Sys2Proof.Machine.execVredminu h a s
  | .vredand h a => Sys2Proof.Machine.execVredand h a s
  | .vredor h a => Sys2Proof.Machine.execVredor h a s
  | .vredxor h a => Sys2Proof.Machine.execVredxor h a s
  | .vfredsum h a => Sys2Proof.Machine.execVfredsum h a s
  | .vfredmax h a => Sys2Proof.Machine.execVfredmax h a s
  | .vfredmin h a => Sys2Proof.Machine.execVfredmin h a s
  | .vredosum h a => Sys2Proof.Machine.execVredosum h a s
  | .sadd h a => Sys2Proof.Machine.execSadd h a s
  | .ssub h a => Sys2Proof.Machine.execSsub h a s
  | .smul h a => Sys2Proof.Machine.execSmul h a s
  | .sand h a => Sys2Proof.Machine.execSand h a s
  | .sor h a => Sys2Proof.Machine.execSor h a s
  | .sxor h a => Sys2Proof.Machine.execSxor h a s
  | .smin h a => Sys2Proof.Machine.execSmin h a s
  | .smax h a => Sys2Proof.Machine.execSmax h a s
  | .scmpeq h a => Sys2Proof.Machine.execScmpeq h a s
  | .scmplt h a => Sys2Proof.Machine.execScmplt h a s
  | .ssel h a => Sys2Proof.Machine.execSsel h a s
  | .sfadd h a => Sys2Proof.Machine.execSfadd h a s
  | .sfsub h a => Sys2Proof.Machine.execSfsub h a s
  | .sfmul h a => Sys2Proof.Machine.execSfmul h a s
  | .sfdiv h a => Sys2Proof.Machine.execSfdiv h a s
  | .sfmacc h a => Sys2Proof.Machine.execSfmacc h a s
  | .sfmin h a => Sys2Proof.Machine.execSfmin h a s
  | .sfmax h a => Sys2Proof.Machine.execSfmax h a s
  | .sfcmpeq h a => Sys2Proof.Machine.execSfcmpeq h a s
  | .sfcmplt h a => Sys2Proof.Machine.execSfcmplt h a s
  | .sfcmple h a => Sys2Proof.Machine.execSfcmple h a s
  | .sld h a => Sys2Proof.Machine.execSld h a s
  | .sst h a => Sys2Proof.Machine.execSst h a s
  | .sldb h a => Sys2Proof.Machine.execSldb h a s
  | .tzero h a => Sys2Proof.Machine.execTzero h a s
  | .tfill h a => Sys2Proof.Machine.execTfill h a s
  | .tfilla h a => Sys2Proof.Machine.execTfilla h a s
  | .tlanes h a => Sys2Proof.Machine.execTlanes h a s
  | .tstream h a => Sys2Proof.Machine.execTstream h a s
  | .tstreama h a => Sys2Proof.Machine.execTstreama h a s
  | .tredrow h a => Sys2Proof.Machine.execTredrow h a s
  | .tredcol h a => Sys2Proof.Machine.execTredcol h a s
  | .tredrowmax h a => Sys2Proof.Machine.execTredrowmax h a s
  | .tredcolmax h a => Sys2Proof.Machine.execTredcolmax h a s
  | .tmovtv h a => Sys2Proof.Machine.execTmovtv h a s
  | .tmovvt h a => Sys2Proof.Machine.execTmovvt h a s
  | .tltot h a => Sys2Proof.Machine.execTltot h a s
  | .tld h a => Sys2Proof.Machine.execTld h a s
  | .tst h a => Sys2Proof.Machine.execTst h a s
  | .tlds h a => Sys2Proof.Machine.execTlds h a s
  | .tsts h a => Sys2Proof.Machine.execTsts h a s
  | .aditEnq p va => Sys2Proof.Machine.execAditEnq p va s
  | .aditDescriptorStart p => Sys2Proof.Machine.execAditDescriptorStart p s
  | .aditStreamBlock p => Sys2Proof.Machine.execAditStreamBlock p s
  | .aditCompletion p => Sys2Proof.Machine.execAditCompletion p s
  | .aditAbort p => Sys2Proof.Machine.execAditAbort p s
  | .ownershipRequest h pa => Sys2Proof.Machine.execOwnershipRequest h pa s
  | .l1FillRequest h pa instr => Sys2Proof.Machine.execL1FillRequest h pa instr s
  | .bankGrant p bank => Sys2Proof.Machine.execBankGrant p bank s
  | .recall h pa inv => Sys2Proof.Machine.execRecall h pa inv s
  | .victimWriteback h pa => Sys2Proof.Machine.execVictimWriteback h pa s
  | .clean p c => Sys2Proof.Machine.execClean p c s
  | .cleanInv p c => Sys2Proof.Machine.execCleanInv p c s
  | .inv p c => Sys2Proof.Machine.execInv p c s
  | .maintenanceDone p c => Sys2Proof.Machine.execMaintenanceDone p c s
  | .flushAll p => Sys2Proof.Machine.execFlushAll p s
  | .invAll p => Sys2Proof.Machine.execInvAll p s
  | .l1dInvAll h => Sys2Proof.Machine.execL1dInvAll h s
  | .fullInvalidateDone p => Sys2Proof.Machine.execFullInvalidateDone p s
  | .l1dEnableWrite h v => Sys2Proof.Machine.execL1dEnableWrite h v s
  | .l2EnableWrite p v => Sys2Proof.Machine.execL2EnableWrite p v s
  | .l2WayoffWrite p mask => Sys2Proof.Machine.execL2WayoffWrite p mask s
  | .wayoffDone p => Sys2Proof.Machine.execWayoffDone p s
  | .stackRead q pa n => Sys2Proof.Machine.execStackRead q pa n s
  | .bulkRead q pa n => Sys2Proof.Machine.execBulkRead q pa n s
  | .stackWrite q pa data => Sys2Proof.Machine.execStackWrite q pa data s
  | .wcbAgeExpiry k g => Sys2Proof.Machine.execWcbAgeExpiry k g s
  | .wcbEntryFreed k g => Sys2Proof.Machine.execWcbEntryFreed k g s
  | .drainRequest k g => Sys2Proof.Machine.execDrainRequest k g s
  | .wcbDrain p => Sys2Proof.Machine.execWcbDrain p s
  | .scrubRead k g => Sys2Proof.Machine.execScrubRead k g s
  | .refresh k => Sys2Proof.Machine.execRefresh k s
  | .sensorSample k a => Sys2Proof.Machine.execSensorSample k a s
  | .sensorFail k n => Sys2Proof.Machine.execSensorFail k n s
  | .selfRefreshEntry k => Sys2Proof.Machine.execSelfRefreshEntry k s
  | .selfRefreshExit k => Sys2Proof.Machine.execSelfRefreshExit k s
  | .farRequest q pa op => Sys2Proof.Machine.execFarRequest q pa op s
  | .cxlDown => Sys2Proof.Machine.execCxlDown s
  | .pageWalk p cid va => Sys2Proof.Machine.execPageWalk p cid va s
  | .clmEntryWrite v => Sys2Proof.Machine.execClmEntryWrite v s
  | .claimUpdateDone => Sys2Proof.Machine.execClaimUpdateDone s
  | .page w0 w1 w2 w3 => Sys2Proof.Machine.execPage w0 w1 w2 w3 s
  | .range w0 w1 w2 w3 => Sys2Proof.Machine.execRange w0 w1 w2 w3 s
  | .cid w0 w1 w2 w3 => Sys2Proof.Machine.execCid w0 w1 w2 w3 s
  | .all w0 w1 w2 w3 => Sys2Proof.Machine.execAll w0 w1 w2 w3 s
  | .sync w0 w1 w2 w3 => Sys2Proof.Machine.execSync w0 w1 w2 w3 s
  | .inwin w0 w1 w2 w3 => Sys2Proof.Machine.execInwin w0 w1 w2 w3 s
  | .mmuCommandComplete => Sys2Proof.Machine.execMmuCommandComplete s
  | .remoteRequest src cid pa op => Sys2Proof.Machine.execRemoteRequest src cid pa op s
  | .traversePacket k => Sys2Proof.Machine.execTraversePacket k s
  | .tokenRequest tgt vc stop => Sys2Proof.Machine.execTokenRequest tgt vc stop s
  | .tokenGrant tgt vc => Sys2Proof.Machine.execTokenGrant tgt vc s
  | .tokenReturn tgt vc stop => Sys2Proof.Machine.execTokenReturn tgt vc stop s
  | .frameTokenGrant p => Sys2Proof.Machine.execFrameTokenGrant p s
  | .dataFlit port f => Sys2Proof.Machine.execDataFlit port f s
  | .ack port seq => Sys2Proof.Machine.execAck port seq s
  | .nak port seq => Sys2Proof.Machine.execNak port seq s
  | .replayTimeout port => Sys2Proof.Machine.execReplayTimeout port s
  | .trainingAttempt port lanes chip peer => Sys2Proof.Machine.execTrainingAttempt port lanes chip peer s
  | .retrain port => Sys2Proof.Machine.execRetrain port s
  | .linkPacket port k => Sys2Proof.Machine.execLinkPacket port k s
  | .creditReturn port cls sub => Sys2Proof.Machine.execCreditReturn port cls sub s
  | .remoteFrameTokenRequest p a => Sys2Proof.Machine.execRemoteFrameTokenRequest p a s
  | .remoteFrameTokenGrant p chip part => Sys2Proof.Machine.execRemoteFrameTokenGrant p chip part s
  | .asyEnq p va => Sys2Proof.Machine.execAsyEnq p va s
  | .queryAdmission p => Sys2Proof.Machine.execQueryAdmission p s
  | .assayQueryStart p => Sys2Proof.Machine.execAssayQueryStart p s
  | .assayStreamBlock p => Sys2Proof.Machine.execAssayStreamBlock p s
  | .assayQueryComplete p => Sys2Proof.Machine.execAssayQueryComplete p s
  | .asyAbort p => Sys2Proof.Machine.execAsyAbort p s
  | .powerStateEntry p => Sys2Proof.Machine.execPowerStateEntry p s
  | .wakeEvent p => Sys2Proof.Machine.execWakeEvent p s
  | .preWake p => Sys2Proof.Machine.execPreWake p s
  | .wakeComplete p => Sys2Proof.Machine.execWakeComplete p s
  | .d3hotEntry fn => Sys2Proof.Machine.execD3hotEntry fn s
  | .d3hotQuiesce => Sys2Proof.Machine.execD3hotQuiesce s
  | .d0Entry fn => Sys2Proof.Machine.execD0Entry fn s
  | .thermtrip => Sys2Proof.Machine.execThermtrip s
  | .avsCompletion p => Sys2Proof.Machine.execAvsCompletion p s
  | .avsFault p => Sys2Proof.Machine.execAvsFault p s
  | .perstRelease => Sys2Proof.Machine.execPerstRelease s
  | .perstAssert => Sys2Proof.Machine.execPerstAssert s
  | .reboot => Sys2Proof.Machine.execReboot s
  | .flashDataArrival x => Sys2Proof.Machine.execFlashDataArrival x s
  | .capabilityWord w => Sys2Proof.Machine.execCapabilityWord w s
  | .bootStepCompletion r => Sys2Proof.Machine.execBootStepCompletion r s
  | .linkWaitExpiry => Sys2Proof.Machine.execLinkWaitExpiry s
  | .pollTimeout => Sys2Proof.Machine.execPollTimeout s
  | .stageGo => Sys2Proof.Machine.execStageGo s
  | .hostWaitTimeout => Sys2Proof.Machine.execHostWaitTimeout s
  | .peerReadRetry d => Sys2Proof.Machine.execPeerReadRetry d s
  | .configurationRequest fn k => Sys2Proof.Machine.execConfigurationRequest fn k s
  | .challenge => Sys2Proof.Machine.execChallenge s
  | .verify => Sys2Proof.Machine.execVerify s
  | .relock => Sys2Proof.Machine.execRelock s
  | .hostRegisterRequest fn bar4 off op => Sys2Proof.Machine.execHostRegisterRequest fn bar4 off op s
  | .bar2Request fn off op => Sys2Proof.Machine.execBar2Request fn off op s
  | .setdasa st dyn => Sys2Proof.Machine.execSetdasa st dyn s
  | .entdaa dyn => Sys2Proof.Machine.execEntdaa dyn s
  | .go m d => Sys2Proof.Machine.execGo m d s
  | .dmaDone d => Sys2Proof.Machine.execDmaDone d s
  | .msixUnmask fn vec => Sys2Proof.Machine.execMsixUnmask fn vec s
  | .eventLogWrite e => Sys2Proof.Machine.execEventLogWrite e s
  | .evtLogAckWrite m v => Sys2Proof.Machine.execEvtLogAckWrite m v s
  | .evtEnWrite m v => Sys2Proof.Machine.execEvtEnWrite m v s
  | .pinFunctionSwitch n func => Sys2Proof.Machine.execPinFunctionSwitch n func s
  | .gpioEdge n v => Sys2Proof.Machine.execGpioEdge n v s
  | .reqTimeout stop tag pa => Sys2Proof.Machine.execReqTimeout stop tag pa s
  | .declare p => Sys2Proof.Machine.execDeclare p s
  | .run m p => Sys2Proof.Machine.execRun m p s
  | .drain m p => Sys2Proof.Machine.execDrain m p s
  | .halt m p => Sys2Proof.Machine.execHalt m p s
  | .reset m p => Sys2Proof.Machine.execReset m p s
  | .clusterHalt m h => Sys2Proof.Machine.execClusterHalt m h s
  | .step m h => Sys2Proof.Machine.execStep m h s
  | .resume m h => Sys2Proof.Machine.execResume m h s
  | .dbgTrigEdge k => Sys2Proof.Machine.execDbgTrigEdge k s
  | .ucieModuleLoss => Sys2Proof.Machine.execUcieModuleLoss s
  | .stretchDepthChange p depth => Sys2Proof.Machine.execStretchDepthChange p depth s
  | .dvfsStepComplete p => Sys2Proof.Machine.execDvfsStepComplete p s
  | .powerStateEntryDone p => Sys2Proof.Machine.execPowerStateEntryDone p s
  | .verificationDone => Sys2Proof.Machine.execVerificationDone s
  | .cxlUp lanes speed => Sys2Proof.Machine.execCxlUp lanes speed s
  | .pinSwitchEnd n => Sys2Proof.Machine.execPinSwitchEnd n s
  | .mainPowerRemoval => Sys2Proof.Machine.execMainPowerRemoval s
  | .qclkStop => Sys2Proof.Machine.execQclkStop s

end Sys2Proof.Machine
end

