-- ==== Sys2Proof/Machine/Step.lean ====
section
/-!
DEFINITION. Machine/Step.lean: one step: the command at the front of the queue, or a tick of TCLK where the queue is empty.
-/
namespace Sys2Proof.Machine

/-- Takes the command at the front of the queue and gives its effect on the rest; with nothing pending, one TCLK tick passes
(assumption 20). (DESIGN CHOICE: assumption 4.) (DESIGN CHOICE: assumption 20.) -/
def step (s : State) : Host.Outcome State Fault Refusal :=
  match s.pending with
  | [] => .next s.idle1
  | c :: rest => exec c { s with pending := rest }

/-- Puts the command that a word spells at the front of the queue; the table spells none.
(DESIGN CHOICE: assumption 4.) -/
def State.withFetchWord (s : State) (nbits w : Nat) : State :=
  match decodeTableWord nbits w with
  | some c => { s with pending := c :: s.pending }
  | none => s

end Sys2Proof.Machine
end

