-- ==== Sys2Proof/Safety.lean ====
section
/-!
DEFINITION. Safety.lean: the terms in which claims are stated: canonical tables, an instruction that executes normally, and for each
Hewer instruction the change of its cluster that the specification gives it.
-/
namespace Sys2Proof.Machine

/-! ### Canonical tables -/

/-- A step ends in a next state. -/
def answersNext (o : Host.Outcome State Fault Refusal) : Prop := ∃ t, o = .next t

/-- Byte memories in canonical form: addresses strictly rising, no entry equal to what an unlisted address reads as.
(DESIGN CHOICE: assumption 2.) -/
def Mem.wf (m : Mem) : Bool := Tbl.wf (fun _ => (0 : Byte)) m

/-- The register words in canonical form. -/
def State.regsWf (s : State) : Bool := Tbl.wf resetWord s.regs

/-- Device memory and host memory in canonical form. -/
def State.memWf (s : State) : Bool := s.mem.bytes.wf && s.hostMem.wf

/-- The tallies' tables in canonical form. -/
def State.tallyWf (s : State) : Bool :=
  Tbl.wf (fun _ => (0 : Nat)) s.tal.bins && Tbl.wf (fun _ => (0 : Nat)) s.tal.snap && Tbl.wf (fun _ => false) s.tal.sat &&
    Tbl.wf (fun _ => false) s.tal.snapSat

/-- The place of the next boundary lies within the bounds of R77, and so does the nominal time it is placed from. -/
def State.beatInv (s : State) : Prop :=
  let lo := s.beat.bk + s.beatMin
  let hi := s.beat.bk + s.beatP + s.beatW
  s.beat.bk ≤ s.beat.tick ∧ lo ≤ s.beat.placed ∧ s.beat.placed ≤ hi ∧ lo ≤ s.beat.nom ∧ s.beat.nom ≤ hi ∧
    (s.beat.late ≠ none ∨ s.beat.sync = .acquiring → s.beat.nom = s.beat.bk + s.beatP)

/-- The byte a non-bulk read returns at a local address, where it can be read: of a stack, the newest write-combining entry's or the
DRAM's (R245); elsewhere the memory's. -/
def State.stackByte (s : State) (a : Nat) : Byte :=
  match s.loc a with
  | .stack k => (forwarded (s.mem.wcbOf (wcbKey k (groupOf a))).entries a).getD (Mem.byte s.mem.bytes a)
  | _ => Mem.byte s.mem.bytes a

/-- A request of `n` bytes at `a` lies in one 64-byte granule. -/
def oneGranule (a n : Nat) : Prop := 0 < n ∧ a % 64 + n ≤ 64

/-- The granule of an address has no error and no POISON. -/
def State.goodGranule (s : State) (a : Nat) : Prop := s.mem.poisoned (a / 64) = false ∧ s.mem.err (a / 64) = .none

/-- Claim entries in canonical form, with the reserved bits [31:26] of every entry 0 (R267). -/
def State.claimsWf (s : State) : Bool :=
  Tbl.wf (fun _ => (0 : BitVec 32)) s.claims && s.claims.all (fun e => decide (e.2.toNat < 2 ^ 26))

/-- The tables of the state in canonical form. -/
def State.canonical (s : State) : Bool := s.regsWf && s.memWf && s.claimsWf && s.tallyWf

/-- A cluster without what its accesses may change beside its registers: its L1 caches, their stride detectors, the stores it is
waiting for, and the abort of an earlier store. -/
def Cluster.core (k : Cluster) : Cluster :=
  { k with l1d := [], l1i := [], dets := [], l1dClean := true, l1dPend := false, l1dBusy := none, abort := none, stores := [] }

/-- Master `m` writes registers: the device is out of reset, no low half is held, the master is Headframe, or the physical function
after the seal (R380, R395), and no master whose write counts as later has written in the present window (R397). -/
def State.writesAs (s : State) (m : RegMaster) : Prop :=
  s.inReset = false ∧ (s.masterOf m).held = none ∧ (m = .headframe ∨ m = .pf ∧ s.flag HDF_SEAL_SEALED = true) ∧
    ∀ a, s.winAfter a m = 0

/-- No counter of the Traverse's performance monitor is enabled (Table 14-6): traffic that the model performs at once leaves no trace. -/
def State.pmuOff (s : State) : Bool := !(List.range 8).any (fun k => s.flag (TRV_PMU_SEL_EN k))

/-- Nothing but registers of the event block, the event log, host memory and what has been sent differs: what logging an event may
change. -/
def onlyLogged (s t : State) : Prop :=
  (∀ a, a / 0x10000 ≠ 6 → t.word a = s.word a) ∧
    { t with regs := s.regs, evt := s.evt, hostMem := s.hostMem, msix := s.msix, out := s.out, masters := s.masters } = s

/-! ### An instruction that executes normally -/

/-- The state once the halfwords of `w` have been fetched. -/
def State.afterFetch (s : State) (h : Hart) (w : Nat) : State := (s.fetchInst h w).2.2

/-- The cluster that issues. -/
def State.own (s : State) (h : Hart) : Cluster := s.clu h.part h.clu

/-- The cluster issues `w` and neither its fetch, nor its encoding, nor (at a report point, `rep`) an earlier store's abort makes it
trap (R125, R128). -/
def State.ready (s : State) (h : Hart) (w : Nat) (rep : Bool) : Bool :=
  s.issues h && decide ((s.fetchInst h w).1 = .ok) && decide (kindOf ((s.afterFetch h w).kindCtx h) w = .assigned) &&
    !(rep && ((s.afterFetch h w).own h).abort.isSome)

/-- The instruction fetched in `f` retires in the state `t` its accesses left, with its cluster changed by `g`; the next instruction
follows it. -/
def State.retiredFrom (f t : State) (h : Hart) (w : Nat) (g : Cluster → Cluster) : State :=
  (t.setClu h.part h.clu (g (t.own h))).retire h ((f.own h).pc + instLen w)

/-- The same with its next instruction at `a`. -/
def State.jumpedFrom (t : State) (h : Hart) (a : BitVec 64) (g : Cluster → Cluster) : State :=
  (t.setClu h.part h.clu (g (t.own h))).retire h a

/-- An instruction whose work is on its own cluster: the command, its word, whether it is a report point, and the change. -/
structure CluRow where
  cmd : Instr
  word : Nat
  rep : Bool
  change : State → Cluster → Cluster

/-- Where it executes normally, its command completes: the cluster has the change, and everything else is as the fetch left it. -/
def CluRow.completes (r : CluRow) (h : Hart) : Prop :=
  ∀ s : State, s.ready h r.word r.rep = true →
    exec r.cmd s = .next ((s.afterFetch h r.word).retiredFrom (s.afterFetch h r.word) h r.word (r.change (s.afterFetch h r.word)))

/-- A scalar access of `n` bytes at `ea` goes through: it is aligned and translated, and its place answers `d`, leaving `u`. -/
def State.loadGoes (f : State) (h : Hart) (ea n : Nat) (excl : Bool) (d : List Byte) (u : State) : Prop :=
  ea % n = 0 ∧ ∃ pl, (f.dataXlate h .read ea).1 = some pl ∧ (f.dataXlate h .read ea).2.cluLoad h pl n excl false = (.ok d, u)

/-- A scalar store of the low `n` bytes of `v` at `ea` goes through, leaving `u`. -/
def State.storeGoes (f : State) (h : Hart) (ea n v : Nat) (u : State) : Prop :=
  ea % n = 0 ∧ ∃ pl, (f.dataXlate h .write ea).1 = some pl ∧ (f.dataXlate h .write ea).2.cluStore h pl ea 1 (bytesLE n v) false = (.ok [], u)

/-- A scalar load: command, word, bytes, its address, and the change for the value loaded. -/
structure LoadRow where
  cmd : Instr
  word : Nat
  bytes : Nat
  addr : Cluster → Nat
  change : Nat → Cluster → Cluster

/-- Where it executes normally and its access goes through, the command completes with the change for the bytes read. -/
def LoadRow.completes (r : LoadRow) (h : Hart) : Prop :=
  ∀ (s : State) (d : List Byte) (u : State), s.ready h r.word false = true →
    (s.afterFetch h r.word).loadGoes h (r.addr ((s.afterFetch h r.word).own h)) r.bytes false d u →
      exec r.cmd s = .next ((s.afterFetch h r.word).retiredFrom u h r.word (r.change (natLE d)))

/-- A scalar store: command, word, whether it is a report point, bytes, address and value. -/
structure StoreRow where
  cmd : Instr
  word : Nat
  rep : Bool
  bytes : Nat
  addr : Cluster → Nat
  value : Cluster → Nat

/-- Where it executes normally and its access goes through, the command completes and its cluster only retires. -/
def StoreRow.completes (r : StoreRow) (h : Hart) : Prop :=
  ∀ (s u : State), s.ready h r.word r.rep = true →
    (s.afterFetch h r.word).storeGoes h (r.addr ((s.afterFetch h r.word).own h)) r.bytes (r.value ((s.afterFetch h r.word).own h)) u →
      exec r.cmd s = .next (u.retire h (((s.afterFetch h r.word).own h).pc + instLen r.word))

/-- A read-modify-write of `n` bytes at `ea` goes through with old bytes `d`, leaving `u`; `new` gives what is stored, if anything. Its
operands are X[rs2] and X[rd]. -/
def State.rmwGoes (f : State) (h : Hart) (a : AtomArgs) (ea n : Nat) (new : Nat → Option Nat) (d : List Byte) (u : State) : Prop :=
  ea % n = 0 ∧ ∃ pl, (f.dataXlate h .rmw ea).1 = some pl ∧
    (f.dataXlate h .rmw ea).2.cluRmw h pl ea n
      (bytesLE n ((f.own h).getX a.rs2).toNat ++ bytesLE n ((f.own h).getX a.rd).toNat)
      (fun b => (new (natLE b)).map (bytesLE n)) = (.ok d, u)

/-- The instruction retires in `u` with X[rd] holding the value `v` of `n` bytes; the bits above `n` bytes are free.
(DESIGN CHOICE: assumption 44.) -/
def loadedLow (o : Host.Outcome State Fault Refusal) (f u : State) (h : Hart) (w : Nat) (rd : BitVec 5) (n v : Nat) : Prop :=
  ∃ (x : BitVec 64) (c : Nat), x.toNat % 2 ^ (8 * n) = v % 2 ^ (8 * n) ∧
    o = .next (f.retiredFrom { u with freeCtr := c } h w (fun k => k.setX rd x))

/-- The accesses of a vector or tile load go through: every page is translated and every place answers; `l` are the bytes of the
items in order, and `u` is the state left. -/
def State.itemsLoad (f : State) (h : Hart) (strm : Bool) (items : List Item) (l : List (Item × List Byte)) (u : State) : Prop :=
  (f.xlateAll h .read items).1 = [] ∧ (f.xlateAll h .read items).2.2.loadAll h strm (f.xlateAll h .read items).2.1 = (.ok l, u)

/-- The accesses of a vector or tile store of the given bytes go through, none of them denied, leaving `u`; `detail` is the TRAPDETAIL
that a line keeps for an item that is denied afterwards. -/
def State.itemsStore (f : State) (h : Hart) (strm : Bool) (items : List (Item × List Byte)) (detail : Item → Nat) (u : State) : Prop :=
  (f.xlateAll h .write (items.map (fun i => i.1))).1 = [] ∧
    (f.xlateAll h .write (items.map (fun i => i.1))).2.2.storeAll h strm detail
      ((f.xlateAll h .write (items.map (fun i => i.1))).2.1.zip (items.map (fun i => i.2))) = (.denied [], u)

/-! ### Trap entry (R124, Tables 6-4 and 6-13) -/

/-- The outcome is the precise entry into the trap of cause `code`, with TRAPADDR and TRAPDETAIL 0, at the instruction `w` that was
fetched in `f`; nothing but the trap registers, the level, the instruction address and the trap's status and count has changed. -/
def trapsPrecisely (o : Host.Outcome State Fault Refusal) (f : State) (h : Hart) (w code : Nat) : Prop :=
  ∃ t, o = .next t ∧
    (t.own h).trapcause.toNat = code + (if (f.own h).mon then 256 else 0) + (if w.testBit 15 then 2048 else 0) ∧
    (t.own h).trappc = (f.own h).pc ∧ (t.own h).tretpc = (f.own h).pc ∧
    (t.own h).trapnext = (if code = 2 then 0 else (f.own h).pc + (if w.testBit 15 then 4 else 2)) ∧
    (t.own h).trapinst.toNat = (if w.testBit 15 then w % 2 ^ 32 else w % 2 ^ 16) ∧
    (t.own h).trapaddr = 0 ∧ (t.own h).trapdetail = 0 ∧ (t.own h).ppriv = (f.own h).mon ∧ (t.own h).intrap = true ∧
    (t.own h).mon = true ∧ (t.own h).pc = (f.own h).trapvec ∧
    (t.own h).x = (f.own h).x ∧ (t.own h).sv = (f.own h).sv ∧ (t.own h).v = (f.own h).v ∧ (t.own h).m = (f.own h).m ∧
    (t.own h).t = (f.own h).t ∧ (t.own h).rm = (f.own h).rm ∧ (t.own h).flags = (f.own h).flags ∧
    (t.own h).instret = (f.own h).instret ∧ (t.own h).trapvec = (f.own h).trapvec ∧ (t.own h).mscratch = (f.own h).mscratch ∧
    (t.own h).isamask = (f.own h).isamask ∧ (t.own h).tctxEn = (f.own h).tctxEn ∧ (t.own h).tctxCid = (f.own h).tctxCid ∧
    t.mem = f.mem ∧ t.l2 = f.l2 ∧
    t.fld (CLU_STS_LAST_CAUSE h.part h.clu) = code ∧
    t.fld (CLU_TRAPS_COUNT h.part h.clu) = (f.fld (CLU_TRAPS_COUNT h.part h.clu) + 1) % 2 ^ 32

/-- The cluster issues, the fetch of `w` succeeds, and neither a trap nor an abort is outstanding. -/
def State.fetches (s : State) (h : Hart) (w : Nat) : Bool :=
  s.issues h && decide ((s.fetchInst h w).1 = .ok) && !((s.afterFetch h w).own h).intrap && ((s.afterFetch h w).own h).abort.isNone

/-! ### Hewer: integer (Table 6-10, R122) -/

/-- X[rd] ← `f` of X[rs1] and X[rs2]. -/
def regOp (a : RArgs) (f : BitVec 64 → BitVec 64 → BitVec 64) (_ : State) (k : Cluster) : Cluster :=
  k.setX a.rd (f (k.getX a.rs1) (k.getX a.rs2))

/-- X[rd] ← `f` of X[rs1] and the sign-extended immediate. -/
def immOp (a : IArgs) (f : BitVec 64 → BitVec 64 → BitVec 64) (_ : State) (k : Cluster) : Cluster :=
  k.setX a.rd (f (k.getX a.rs1) (a.imm.signExtend 64))

/-- INT-R. -/
abbrev intRows (h : Hart) (a : RArgs) (r : CluRow) : Prop :=
  r ∈ ([
    ⟨.add h a, encR 1 0 a.rd.toNat a.rs1.toNat a.rs2.toNat false false, false, regOp a (fun x y => x + y)⟩,
    ⟨.sub h a, encR 1 1 a.rd.toNat a.rs1.toNat a.rs2.toNat false false, false, regOp a (fun x y => x - y)⟩,
    ⟨.and h a, encR 1 2 a.rd.toNat a.rs1.toNat a.rs2.toNat false false, false, regOp a (fun x y => x &&& y)⟩,
    ⟨.or h a, encR 1 3 a.rd.toNat a.rs1.toNat a.rs2.toNat false false, false, regOp a (fun x y => x ||| y)⟩,
    ⟨.xor h a, encR 1 4 a.rd.toNat a.rs1.toNat a.rs2.toNat false false, false, regOp a (fun x y => x ^^^ y)⟩,
    ⟨.sll h a, encR 1 5 a.rd.toNat a.rs1.toNat a.rs2.toNat false false, false, regOp a (fun x y => x <<< (y.toNat % 64))⟩,
    ⟨.srl h a, encR 1 6 a.rd.toNat a.rs1.toNat a.rs2.toNat false false, false, regOp a (fun x y => x >>> (y.toNat % 64))⟩,
    ⟨.sra h a, encR 1 7 a.rd.toNat a.rs1.toNat a.rs2.toNat false false, false, regOp a (fun x y => x.sshiftRight (y.toNat % 64))⟩,
    ⟨.slt h a, encR 1 8 a.rd.toNat a.rs1.toNat a.rs2.toNat false false, false, regOp a (fun x y => if x.toInt < y.toInt then 1 else 0)⟩,
    ⟨.sltu h a, encR 1 9 a.rd.toNat a.rs1.toNat a.rs2.toNat false false, false, regOp a (fun x y => if x.toNat < y.toNat then 1 else 0)⟩,
    ⟨.min h a, encR 1 10 a.rd.toNat a.rs1.toNat a.rs2.toNat false false, false, regOp a (fun x y => if x.toInt < y.toInt then x else y)⟩,
    ⟨.max h a, encR 1 11 a.rd.toNat a.rs1.toNat a.rs2.toNat false false, false, regOp a (fun x y => if x.toInt < y.toInt then y else x)⟩,
    ⟨.minu h a, encR 1 12 a.rd.toNat a.rs1.toNat a.rs2.toNat false false, false, regOp a (fun x y => if x.toNat < y.toNat then x else y)⟩,
    ⟨.maxu h a, encR 1 13 a.rd.toNat a.rs1.toNat a.rs2.toNat false false, false, regOp a (fun x y => if x.toNat < y.toNat then y else x)⟩,
    ⟨.mul h a, encR 1 16 a.rd.toNat a.rs1.toNat a.rs2.toNat false false, false, regOp a (fun x y => x * y)⟩,
    ⟨.mulh h a, encR 1 17 a.rd.toNat a.rs1.toNat a.rs2.toNat false false, false, regOp a (fun x y => BitVec.ofInt 64 (x.toInt * y.toInt / 2 ^ 64))⟩,
    ⟨.mulhu h a, encR 1 18 a.rd.toNat a.rs1.toNat a.rs2.toNat false false, false, regOp a (fun x y => BitVec.ofNat 64 (x.toNat * y.toNat / 2 ^ 64))⟩,
    ⟨.mulhsu h a, encR 1 19 a.rd.toNat a.rs1.toNat a.rs2.toNat false false, false, regOp a (fun x y => BitVec.ofInt 64 (x.toInt * y.toNat / 2 ^ 64))⟩,
    ⟨.div h a, encR 1 20 a.rd.toNat a.rs1.toNat a.rs2.toNat false false, false, regOp a (fun x y => if y = 0 then BitVec.allOnes 64 else BitVec.ofInt 64 (x.toInt.tdiv y.toInt))⟩,
    ⟨.divu h a, encR 1 21 a.rd.toNat a.rs1.toNat a.rs2.toNat false false, false, regOp a (fun x y => if y = 0 then BitVec.allOnes 64 else BitVec.ofNat 64 (x.toNat / y.toNat))⟩,
    ⟨.rem h a, encR 1 22 a.rd.toNat a.rs1.toNat a.rs2.toNat false false, false, regOp a (fun x y => if y = 0 then x else BitVec.ofInt 64 (x.toInt.tmod y.toInt))⟩,
    ⟨.remu h a, encR 1 23 a.rd.toNat a.rs1.toNat a.rs2.toNat false false, false, regOp a (fun x y => if y = 0 then x else BitVec.ofNat 64 (x.toNat % y.toNat))⟩,
    ⟨.clz h a, encR 1 32 a.rd.toNat a.rs1.toNat a.rs2.toNat false false, false, regOp a (fun x _ => BitVec.ofNat 64 (clz64 x))⟩,
    ⟨.ctz h a, encR 1 33 a.rd.toNat a.rs1.toNat a.rs2.toNat false false, false, regOp a (fun x _ => BitVec.ofNat 64 (ctz64 x))⟩,
    ⟨.popc h a, encR 1 34 a.rd.toNat a.rs1.toNat a.rs2.toNat false false, false, regOp a (fun x _ => BitVec.ofNat 64 (popUpto x.toNat 64))⟩,
    ⟨.rev8 h a, encR 1 35 a.rd.toNat a.rs1.toNat a.rs2.toNat false false, false, regOp a (fun x _ => rev8 x)⟩ ] : List CluRow)

/-- INT-I. -/
abbrev immRows (h : Hart) (a : IArgs) (r : CluRow) : Prop :=
  r ∈ ([
    ⟨.addi h a, encI 2 0 a.rd.toNat a.rs1.toNat a.imm.toNat, false, immOp a (fun x y => x + y)⟩,
    ⟨.andi h a, encI 2 1 a.rd.toNat a.rs1.toNat a.imm.toNat, false, immOp a (fun x y => x &&& y)⟩,
    ⟨.ori h a, encI 2 2 a.rd.toNat a.rs1.toNat a.imm.toNat, false, immOp a (fun x y => x ||| y)⟩,
    ⟨.xori h a, encI 2 3 a.rd.toNat a.rs1.toNat a.imm.toNat, false, immOp a (fun x y => x ^^^ y)⟩,
    ⟨.slti h a, encI 2 4 a.rd.toNat a.rs1.toNat a.imm.toNat, false, immOp a (fun x y => if x.toInt < y.toInt then 1 else 0)⟩,
    ⟨.sltiu h a, encI 2 5 a.rd.toNat a.rs1.toNat a.imm.toNat, false, immOp a (fun x y => if x.toNat < y.toNat then 1 else 0)⟩,
    ⟨.slli h a, encI 2 6 a.rd.toNat a.rs1.toNat a.imm.toNat, false, immOp a (fun x y => x <<< (y.toNat % 64))⟩,
    ⟨.srli h a, encI 2 7 a.rd.toNat a.rs1.toNat a.imm.toNat, false, immOp a (fun x y => x >>> (y.toNat % 64))⟩,
    ⟨.srai h a, encI 2 8 a.rd.toNat a.rs1.toNat a.imm.toNat, false, immOp a (fun x y => x.sshiftRight (y.toNat % 64))⟩ ] : List CluRow)

/-- LUI and AUIPC (Table 6-8). -/
abbrev upperRows (h : Hart) (a : UArgs) (r : CluRow) : Prop :=
  r ∈ ([
    ⟨.lui h a, encU 3 a, false, fun _ k => k.setX a.rd (a.imm.signExtend 64 <<< 12)⟩,
    ⟨.auipc h a, encU 4 a, false, fun _ k => k.setX a.rd (k.pc + a.imm.signExtend 64 <<< 12)⟩ ] : List CluRow)

/-! ### Hewer: loads and stores (Table 6-10) -/

/-- LOAD. -/
abbrev loadRows (h : Hart) (a : IArgs) (r : LoadRow) : Prop :=
  r ∈ ([
    ⟨.lb h a, encI 5 0 a.rd.toNat a.rs1.toNat a.imm.toNat, 1, fun k => (k.getX a.rs1 + a.imm.signExtend 64).toNat, fun v k => k.setX a.rd (BitVec.ofInt 64 (codeInt true 8 v))⟩,
    ⟨.lh h a, encI 5 1 a.rd.toNat a.rs1.toNat a.imm.toNat, 2, fun k => (k.getX a.rs1 + a.imm.signExtend 64).toNat, fun v k => k.setX a.rd (BitVec.ofInt 64 (codeInt true 16 v))⟩,
    ⟨.lw h a, encI 5 2 a.rd.toNat a.rs1.toNat a.imm.toNat, 4, fun k => (k.getX a.rs1 + a.imm.signExtend 64).toNat, fun v k => k.setX a.rd (BitVec.ofInt 64 (codeInt true 32 v))⟩,
    ⟨.ld h a, encI 5 3 a.rd.toNat a.rs1.toNat a.imm.toNat, 8, fun k => (k.getX a.rs1 + a.imm.signExtend 64).toNat, fun v k => k.setX a.rd (BitVec.ofInt 64 (codeInt true 64 v))⟩,
    ⟨.lbu h a, encI 5 4 a.rd.toNat a.rs1.toNat a.imm.toNat, 1, fun k => (k.getX a.rs1 + a.imm.signExtend 64).toNat, fun v k => k.setX a.rd (BitVec.ofNat 64 v)⟩,
    ⟨.lhu h a, encI 5 5 a.rd.toNat a.rs1.toNat a.imm.toNat, 2, fun k => (k.getX a.rs1 + a.imm.signExtend 64).toNat, fun v k => k.setX a.rd (BitVec.ofNat 64 v)⟩,
    ⟨.lwu h a, encI 5 6 a.rd.toNat a.rs1.toNat a.imm.toNat, 4, fun k => (k.getX a.rs1 + a.imm.signExtend 64).toNat, fun v k => k.setX a.rd (BitVec.ofNat 64 v)⟩,
    ⟨.flw h a, encI 5 8 a.rd.toNat a.rs1.toNat a.imm.toNat, 4, fun k => (k.getX a.rs1 + a.imm.signExtend 64).toNat, fun v k => k.setF a.rd (box fmtS v)⟩,
    ⟨.fld h a, encI 5 9 a.rd.toNat a.rs1.toNat a.imm.toNat, 8, fun k => (k.getX a.rs1 + a.imm.signExtend 64).toNat, fun v k => k.setF a.rd (box fmtD v)⟩ ] : List LoadRow)

/-- STORE. -/
abbrev storeRows (h : Hart) (a : SArgs) (r : StoreRow) : Prop :=
  r ∈ ([
    ⟨.sb h a, encS 0 a, false, 1, fun k => (k.getX a.rs1 + a.imm.signExtend 64).toNat, fun k => (k.getX a.rs2).toNat⟩,
    ⟨.sh h a, encS 1 a, false, 2, fun k => (k.getX a.rs1 + a.imm.signExtend 64).toNat, fun k => (k.getX a.rs2).toNat⟩,
    ⟨.sw h a, encS 2 a, false, 4, fun k => (k.getX a.rs1 + a.imm.signExtend 64).toNat, fun k => (k.getX a.rs2).toNat⟩,
    ⟨.sd h a, encS 3 a, false, 8, fun k => (k.getX a.rs1 + a.imm.signExtend 64).toNat, fun k => (k.getX a.rs2).toNat⟩,
    ⟨.fsw h a, encS 8 a, false, 4, fun k => (k.getX a.rs1 + a.imm.signExtend 64).toNat, fun k => (k.getF a.rs2).toNat⟩,
    ⟨.fsd h a, encS 9 a, false, 8, fun k => (k.getX a.rs1 + a.imm.signExtend 64).toNat, fun k => (k.getF a.rs2).toNat⟩ ] : List StoreRow)

/-! ### Hewer: scalar floating point (Table 6-10, R122) -/

/-- F[rd] ← the boxed result of `op` on F[rs1] and F[rs2] in format FMT, and its flags accrue. -/
def fpOp (h : Hart) (a : FArgs) (op : FEnv → Fmt → Nat → Nat → FRes) (f : State) (k : Cluster) : Cluster :=
  let t := fmtOf a.fmt
  let r := op (f.fEnv h a.rm) t (k.fOp t a.rs1) (k.fOp t a.rs2)
  (k.setF a.rd (box t r.bits)).accrue r.flags

/-- X[rd] ← 1 or 0 by a compare of F[rs1] and F[rs2], and its flags accrue. -/
def fpCmpOp (h : Hart) (a : FArgs) (op : Nat) (f : State) (k : Cluster) : Cluster :=
  let t := fmtOf a.fmt
  let r := fCmp (f.fEnv h a.rm) t op (k.fOp t a.rs1) (k.fOp t a.rs2)
  (k.setX a.rd (if r.1 then 1 else 0)).accrue r.2

/-- FP-R, but for FCVT.X.F and FMV.X.F, part of whose result may be open. -/
abbrev fpRows (h : Hart) (a : FArgs) (r : CluRow) : Prop :=
  r ∈ ([
    ⟨.fadd h a, encF 0 a, false, fpOp h a (fun g t => fAdd g t t)⟩,
    ⟨.fsub h a, encF 1 a, false, fpOp h a (fun g t => fSub g t t)⟩,
    ⟨.fmul h a, encF 2 a, false, fpOp h a (fun g t => fMul g t t)⟩,
    ⟨.fdiv h a, encF 3 a, false, fpOp h a fDiv⟩,
    ⟨.fsqrt h a, encF 4 a, false, fpOp h a (fun g t x _ => fSqrt g t x)⟩,
    ⟨.fmin h a, encF 5 a, false, fpOp h a (fun g t => fMinMax g t Config.fminNumber false)⟩,
    ⟨.fmax h a, encF 6 a, false, fpOp h a (fun g t => fMinMax g t Config.fminNumber true)⟩,
    ⟨.fsgnj h a, encF 7 a, false, fpOp h a (fun _ t x y => ⟨fSgnj t 0 x y, 0⟩)⟩,
    ⟨.fsgnjn h a, encF 8 a, false, fpOp h a (fun _ t x y => ⟨fSgnj t 1 x y, 0⟩)⟩,
    ⟨.fsgnjx h a, encF 9 a, false, fpOp h a (fun _ t x y => ⟨fSgnj t 2 x y, 0⟩)⟩,
    ⟨.feq h a, encF 10 a, false, fpCmpOp h a 0⟩,
    ⟨.flt h a, encF 11 a, false, fpCmpOp h a 1⟩,
    ⟨.fle h a, encF 12 a, false, fpCmpOp h a 2⟩,
    ⟨.fclass h a, encF 13 a, false, fun _ k => k.setX a.rd (Config.fclassWord (fmtOf a.fmt).w (BitVec.ofNat 64 (k.fOp (fmtOf a.fmt) a.rs1)))⟩,
    ⟨.fcvtFF h a, encF 16 a, false, fun f k =>
      let r := cvtFF (f.fEnv h a.rm) (fmtOf (a.rs2.extractLsb' 0 2)) (fmtOf a.fmt) (k.fOp (fmtOf (a.rs2.extractLsb' 0 2)) a.rs1)
      (k.setF a.rd (box (fmtOf a.fmt) r.bits)).accrue r.flags⟩,
    ⟨.fcvtFX h a, encF 18 a, false, fun f k =>
      let r := cvtIF (f.fEnv h a.rm) (fmtOf a.fmt) (codeInt (!a.rs2.getLsbD 0) (if a.rs2.getLsbD 1 then 32 else 64) (k.getX a.rs1).toNat)
      (k.setF a.rd (box (fmtOf a.fmt) r.bits)).accrue r.flags⟩,
    ⟨.fmvFX h a, encF 20 a, false, fun _ k => k.setF a.rd (box (fmtOf a.fmt) (k.getX a.rs1).toNat)⟩ ] : List CluRow)

/-- F[rd] ← ±(rs1 × rs2) ± rs3 with one rounding. -/
def fmaOp (h : Hart) (a : F4Args) (np nc : Bool) (f : State) (k : Cluster) : Cluster :=
  let t := fmtOf a.fmt
  let r := fFma (f.fEnv h a.rm) t t np nc (k.fOp t a.rs1) (k.fOp t a.rs2) (k.fOp t a.rs3)
  (k.setF a.rd (box t r.bits)).accrue r.flags

/-- FP-FMA; the signs of FNMADD and FNMSUB are assumption 48. -/
abbrev fmaRows (h : Hart) (a : F4Args) (r : CluRow) : Prop :=
  r ∈ ([
    ⟨.fmadd h a, encF4 13 0 a, false, fmaOp h a false false⟩,
    ⟨.fmsub h a, encF4 13 1 a, false, fmaOp h a false true⟩,
    ⟨.fnmadd h a, encF4 14 0 a, false, fmaOp h a true true⟩,
    ⟨.fnmsub h a, encF4 14 1 a, false, fmaOp h a true false⟩ ] : List CluRow)

/-! ### Hewer: 16-bit forms on the cluster alone (Table 6-5) -/

/-- C.MV, C.MVF and C.VSETVL. -/
abbrev halfMoveRows (h : Hart) (rd rs : BitVec 5) (sew : BitVec 2) (r : CluRow) : Prop :=
  r ∈ ([
    ⟨.cMv h rd rs, halfOf 0 (rd.toNat * 128 + rs.toNat * 4), false, fun _ k => k.setX rd (k.getX rs)⟩,
    ⟨.cMvf h rd rs, halfOf 0 (rd.toNat * 128 + rs.toNat * 4 + 1), false, fun _ k => k.setF rd (box fmtD (fSgnj fmtD 0 (k.fOp fmtD rs) (k.fOp fmtD rs)))⟩,
    ⟨.cVsetvl h rd rs sew, halfOf 7 (rd.toNat * 128 + rs.toNat * 4 + sew.toNat), false, fun f k => f.vsetWork rd rs sew false k⟩ ] : List CluRow)

/-- C.ADDI and C.SUBI. -/
abbrev halfAddRows (h : Hart) (rd : BitVec 5) (imm : BitVec 6) (r : CluRow) : Prop :=
  r ∈ ([
    ⟨.cAddi h rd imm, halfOf 1 (rd.toNat * 128 + imm.toNat * 2), false, fun _ k => k.setX rd (k.getX rd + imm.setWidth 64)⟩,
    ⟨.cSubi h rd imm, halfOf 1 (rd.toNat * 128 + imm.toNat * 2 + 1), false, fun _ k => k.setX rd (k.getX rd - imm.setWidth 64)⟩ ] : List CluRow)

/-! ### Long vectors (chapter 7) -/

/-- An element-wise instruction on the active elements at the present SEW (R139, R142). -/
def vecOp (h : Hart) (a : VArgs) (op : FEnv → Fmt → Nat → ElemFn) (f : State) (k : Cluster) : Cluster :=
  vecWork a (sewBits k.sew) (f.vlNow k) (op (f.vEnv h) (sewFmt k.sew k.alt) (sewBits k.sew)) k

/-- An exact integer result, modulo 2^SEW. -/
def intOf (f : Nat → Nat → Nat → Nat → Nat) : FEnv → Fmt → Nat → ElemFn := fun _ _ w d x y _ => ⟨f w d x y % 2 ^ w, 0⟩

/-- LV-ARITH, integer (Table 7-3). -/
abbrev vecIntRows (h : Hart) (a : VArgs) (r : CluRow) : Prop :=
  r ∈ ([
    ⟨.vadd h a, encV 18 0 a, false, vecOp h a (intOf (fun _ _ x y => x + y))⟩,
    ⟨.vsub h a, encV 18 1 a, false, vecOp h a (intOf (fun w _ x y => x + (2 ^ w - y)))⟩,
    ⟨.vmul h a, encV 18 2 a, false, vecOp h a (intOf (fun _ _ x y => x * y))⟩,
    ⟨.vmulh h a, encV 18 3 a, false, vecOp h a (intOf (fun w _ x y => intCode w (codeInt true w x * codeInt true w y / 2 ^ w)))⟩,
    ⟨.vand h a, encV 18 4 a, false, vecOp h a (intOf (fun _ _ x y => x &&& y))⟩,
    ⟨.vor h a, encV 18 5 a, false, vecOp h a (intOf (fun _ _ x y => x ||| y))⟩,
    ⟨.vxor h a, encV 18 6 a, false, vecOp h a (intOf (fun _ _ x y => x ^^^ y))⟩,
    ⟨.vsll h a, encV 18 7 a, false, vecOp h a (intOf (fun w _ x y => x * 2 ^ (y % w)))⟩,
    ⟨.vsrl h a, encV 18 8 a, false, vecOp h a (intOf (fun w _ x y => x / 2 ^ (y % w)))⟩,
    ⟨.vsra h a, encV 18 9 a, false, vecOp h a (intOf (fun w _ x y => intCode w (codeInt true w x / 2 ^ (y % w))))⟩,
    ⟨.vmin h a, encV 18 10 a, false, vecOp h a (intOf (fun w _ x y => if codeInt true w x < codeInt true w y then x else y))⟩,
    ⟨.vmax h a, encV 18 11 a, false, vecOp h a (intOf (fun w _ x y => if codeInt true w x < codeInt true w y then y else x))⟩,
    ⟨.vminu h a, encV 18 12 a, false, vecOp h a (intOf (fun _ _ x y => min x y))⟩,
    ⟨.vmaxu h a, encV 18 13 a, false, vecOp h a (intOf (fun _ _ x y => max x y))⟩,
    ⟨.vmacc h a, encV 18 14 a, false, vecOp h a (intOf (fun _ d x y => d + x * y))⟩,
    ⟨.vmv h a, encV 18 15 a, false, vecOp h a (fun _ _ _ _ x _ _ => ⟨x, 0⟩)⟩,
    ⟨.vid h a, encV 18 27 a, false, vecOp h a (fun _ _ w _ _ _ i => ⟨i % 2 ^ w, 0⟩)⟩ ] : List CluRow)

/-- LV-ARITH, floating point (Table 7-3). -/
abbrev vecFpRows (h : Hart) (a : VArgs) (r : CluRow) : Prop :=
  r ∈ ([
    ⟨.vfadd h a, encV 18 16 a, false, vecOp h a (fun g t _ _ x y _ => fAdd g t t x y)⟩,
    ⟨.vfsub h a, encV 18 17 a, false, vecOp h a (fun g t _ _ x y _ => fSub g t t x y)⟩,
    ⟨.vfmul h a, encV 18 18 a, false, vecOp h a (fun g t _ _ x y _ => fMul g t t x y)⟩,
    ⟨.vfdiv h a, encV 18 19 a, false, vecOp h a (fun g t _ _ x y _ => fDiv g t x y)⟩,
    ⟨.vfsqrt h a, encV 18 20 a, false, vecOp h a (fun g t _ _ x _ _ => fSqrt g t x)⟩,
    ⟨.vfmin h a, encV 18 21 a, false, vecOp h a (fun g t _ _ x y _ => fMinMax g t true false x y)⟩,
    ⟨.vfmax h a, encV 18 22 a, false, vecOp h a (fun g t _ _ x y _ => fMinMax g t true true x y)⟩,
    ⟨.vfmacc h a, encV 18 23 a, false, vecOp h a (fun g t _ d x y _ => fFma g t t false false x y d)⟩,
    ⟨.vfnmsac h a, encV 18 24 a, false, vecOp h a (fun g t _ d x y _ => fFma g t t true false x y d)⟩,
    ⟨.vfsgnj h a, encV 18 25 a, false, vecOp h a (fun _ t _ _ x y _ => ⟨fSgnj t 0 x y, 0⟩)⟩,
    ⟨.vfsgnjn h a, encV 18 26 a, false, vecOp h a (fun _ t _ _ x y _ => ⟨fSgnj t 1 x y, 0⟩)⟩ ] : List CluRow)

/-- A compare into M[vd[2:0]] (R143). -/
def vecCmp (h : Hart) (a : VArgs) (op : FEnv → Fmt → Nat → Nat → Nat → Bool × BitVec 5) (f : State) (k : Cluster) : Cluster :=
  f.cmpWork a (op (f.vEnv h) (sewFmt k.sew k.alt)) k

/-- LV-MASK compares (Table 7-4). -/
abbrev vecCmpRows (h : Hart) (a : VArgs) (r : CluRow) : Prop :=
  r ∈ ([
    ⟨.vmseq h a, encV 20 0 a, false, vecCmp h a (fun _ _ _ x y => (x == y, 0))⟩,
    ⟨.vmsne h a, encV 20 1 a, false, vecCmp h a (fun _ _ _ x y => (x != y, 0))⟩,
    ⟨.vmslt h a, encV 20 2 a, false, vecCmp h a (fun _ _ w x y => (decide (codeInt true w x < codeInt true w y), 0))⟩,
    ⟨.vmsltu h a, encV 20 3 a, false, vecCmp h a (fun _ _ _ x y => (decide (x < y), 0))⟩,
    ⟨.vmsle h a, encV 20 4 a, false, vecCmp h a (fun _ _ w x y => (decide (codeInt true w x ≤ codeInt true w y), 0))⟩,
    ⟨.vmsleu h a, encV 20 5 a, false, vecCmp h a (fun _ _ _ x y => (decide (x ≤ y), 0))⟩,
    ⟨.vmfeq h a, encV 20 6 a, false, vecCmp h a (fun g t _ x y => fCmp g t 0 x y)⟩,
    ⟨.vmflt h a, encV 20 7 a, false, vecCmp h a (fun g t _ x y => fCmp g t 1 x y)⟩,
    ⟨.vmfle h a, encV 20 8 a, false, vecCmp h a (fun g t _ x y => fCmp g t 2 x y)⟩,
    ⟨.vmfun h a, encV 20 9 a, false, vecCmp h a (fun g t _ x y => fCmp g t 3 x y)⟩ ] : List CluRow)

/-- M[vd[2:0]] ← `op` of M[vs1[2:0]] and M[vs2[2:0]] below VL, 0 above (R143). -/
def maskOf (a : VArgs) (op : Nat → Nat → Nat) (f : State) (k : Cluster) : Cluster :=
  k.setM (a.vd.extractLsb' 0 3) (f.belowVl k (op (k.getM (a.vs1.extractLsb' 0 3)).toNat (k.getM (a.vs2.extractLsb' 0 3)).toNat))

/-- The set bits of M[vs1[2:0]] below VL. -/
def maskOnes (a : VArgs) (f : State) (k : Cluster) : List Nat :=
  (List.range (f.vlNow k)).filter (fun i => (k.getM (a.vs1.extractLsb' 0 3)).getLsbD i)

/-- Mask logicals, VMSET, VMPOP and VMFIRST (Table 7-4). -/
abbrev maskRows (h : Hart) (a : VArgs) (r : CluRow) : Prop :=
  r ∈ ([
    ⟨.vmand h a, encV 20 16 a, false, maskOf a (fun x y => x &&& y)⟩,
    ⟨.vmor h a, encV 20 17 a, false, maskOf a (fun x y => x ||| y)⟩,
    ⟨.vmxor h a, encV 20 18 a, false, maskOf a (fun x y => x ^^^ y)⟩,
    ⟨.vmandn h a, encV 20 19 a, false, maskOf a (fun x y => x ^^^ (x &&& y))⟩,
    ⟨.vmset h a, encV 20 20 a, false, maskOf a (fun _ _ => 2 ^ 1024 - 1)⟩,
    ⟨.vmpop h a, encV 20 24 a, false, fun f k => k.setX a.vd (BitVec.ofNat 64 (maskOnes a f k).length)⟩,
    ⟨.vmfirst h a, encV 20 25 a, false, fun f k => k.setX a.vd (((maskOnes a f k).head?.map (BitVec.ofNat 64)).getD (BitVec.allOnes 64))⟩ ] : List CluRow)

/-- VSETVL (R136): VTYPE, VL and X[rd]. -/
abbrev vsetRows (h : Hart) (a : VsetArgs) (r : CluRow) : Prop :=
  r ∈ ([
    ⟨.vsetvl h a, encVset a, false, fun f k =>
      let m := f.vlen / sewBits a.sew
      let n := if a.rs1 = 0 then m else min (k.getX a.rs1).toNat m
      ({ k with sew := a.sew, alt := a.alt, vl := n }).setX a.rd (BitVec.ofNat 64 n)⟩ ] : List CluRow)

/-- LV-CVT (R144). -/
abbrev cvtRows (h : Hart) (a : CvtArgs) (r : CluRow) : Prop :=
  r ∈ ([
    ⟨.lvCvt h a, encCvt a, false, fun f k => f.cvtWork h a k⟩ ] : List CluRow)

/-- A signed widening result in the pair V[vd], V[vd + 1] (R145). -/
def wideOp (a : VArgs) (op : Int → Int → Int → Int) (f : State) (k : Cluster) : Cluster :=
  f.wideWork a (fun d x y w => ⟨intCode (2 * w) (op (codeInt true (2 * w) d) (codeInt true w x) (codeInt true w y)), 0⟩) k

/-- A floating-point widening result. -/
def wideFpOp (h : Hart) (a : VArgs) (op : FEnv → Fmt → Fmt → Nat → Nat → Nat → FRes) (f : State) (k : Cluster) : Cluster :=
  f.wideWork a (fun d x y _ => op (f.vEnv h) (sewFmt k.sew k.alt) (wideFmt (sewFmt k.sew k.alt)) d x y) k

/-- LV-WIDE (Table 7-6). -/
abbrev wideRows (h : Hart) (a : VArgs) (r : CluRow) : Prop :=
  r ∈ ([
    ⟨.vwadd h a, encV 25 0 a, false, wideOp a (fun _ x y => x + y)⟩,
    ⟨.vwsub h a, encV 25 1 a, false, wideOp a (fun _ x y => x - y)⟩,
    ⟨.vwmul h a, encV 25 2 a, false, wideOp a (fun _ x y => x * y)⟩,
    ⟨.vwmacc h a, encV 25 3 a, false, wideOp a (fun d x y => d + x * y)⟩,
    ⟨.vfwadd h a, encV 25 4 a, false, wideFpOp h a (fun g st t _ x y => fAdd g st t x y)⟩,
    ⟨.vfwsub h a, encV 25 5 a, false, wideFpOp h a (fun g st t _ x y => fSub g st t x y)⟩,
    ⟨.vfwmul h a, encV 25 6 a, false, wideFpOp h a (fun g st t _ x y => fMul g st t x y)⟩,
    ⟨.vfwmacc h a, encV 25 7 a, false, wideFpOp h a (fun g st t d x y => fFma g st t false false x y d)⟩ ] : List CluRow)

/-- An integer tree reduction at SEW (R150). -/
def redOp (a : VArgs) (op : Nat → Nat → Nat → Nat) (f : State) (k : Cluster) : Cluster :=
  f.redWork a (fun w xs st => (⟨treeRed (op w) st xs, 0⟩, w)) k

/-- A floating-point sum by `sum` in the accumulation format (R151, R152). -/
def redSumOp (h : Hart) (a : VArgs) (sum : (FRes → FRes → FRes) → FRes → List FRes → FRes) (f : State) (k : Cluster) : Cluster :=
  let g := f.vEnv h
  let ft := sewFmt k.sew k.alt
  f.redWork a (fun _ xs st =>
    (nanSum (accFmt ft) (sum (fOp2 (fAdd g (accFmt ft) (accFmt ft))) (toAcc g ft st) (xs.map (toAcc g ft))), (accFmt ft).w)) k

/-- A floating-point reduction by minimumNumber or maximumNumber (R152). -/
def redMmOp (h : Hart) (a : VArgs) (mx : Bool) (f : State) (k : Cluster) : Cluster :=
  let ft := sewFmt k.sew k.alt
  f.redWork a (fun w xs st =>
    (nanSum ft (treeRed (fOp2 (fMinMax (f.vEnv h) ft true mx)) (asIs ft st) (xs.map (asIs ft))), w)) k

/-- LV-RED (Table 7-8). -/
abbrev redRows (h : Hart) (a : VArgs) (r : CluRow) : Prop :=
  r ∈ ([
    ⟨.vredsum h a, encV 21 0 a, false, fun f k => f.redWork a (fun w xs st =>
      (⟨treeRed (fun x y => (x + y) % 2 ^ max w 32) (intCode (max w 32) (codeInt true w st))
        (xs.map (fun x => intCode (max w 32) (codeInt true w x))), 0⟩, max w 32)) k⟩,
    ⟨.vredmax h a, encV 21 1 a, false, redOp a (fun w x y => if codeInt true w x < codeInt true w y then y else x)⟩,
    ⟨.vredmin h a, encV 21 2 a, false, redOp a (fun w x y => if codeInt true w y < codeInt true w x then y else x)⟩,
    ⟨.vredmaxu h a, encV 21 3 a, false, redOp a (fun _ x y => max x y)⟩,
    ⟨.vredminu h a, encV 21 4 a, false, redOp a (fun _ x y => min x y)⟩,
    ⟨.vredand h a, encV 21 5 a, false, redOp a (fun _ x y => x &&& y)⟩,
    ⟨.vredor h a, encV 21 6 a, false, redOp a (fun _ x y => x ||| y)⟩,
    ⟨.vredxor h a, encV 21 7 a, false, redOp a (fun _ x y => x ^^^ y)⟩,
    ⟨.vfredsum h a, encV 21 16 a, false, redSumOp h a treeRed⟩,
    ⟨.vfredmax h a, encV 21 17 a, false, redMmOp h a true⟩,
    ⟨.vfredmin h a, encV 21 18 a, false, redMmOp h a false⟩,
    ⟨.vredosum h a, encV 21 19 a, false, redSumOp h a (fun op st xs => xs.foldl op st)⟩ ] : List CluRow)

/-! ### Short vectors (Table 7-9, R153) -/

/-- An integer short-vector result of width EFMT. -/
def svOp (a : SvArgs) (op : Nat → Nat → Nat → Nat → Nat) (_ : State) (k : Cluster) : Cluster :=
  svWork a (efmtBits a.efmt) (fun d x y => ⟨op (efmtBits a.efmt) d x y % 2 ^ efmtBits a.efmt, 0⟩) k

/-- A floating-point short-vector result of format EFMT. -/
def svFpOp (h : Hart) (a : SvArgs) (op : FEnv → Fmt → Nat → Nat → Nat → FRes) (f : State) (k : Cluster) : Cluster :=
  svWork a (efmtBits a.efmt) (op (f.vEnv h) (efmtFmt a.efmt)) k

/-- SV-ARITH (Table 7-9). -/
abbrev shortRows (h : Hart) (a : SvArgs) (r : CluRow) : Prop :=
  r ∈ ([
    ⟨.sadd h a, encSv 0 a, false, svOp a (fun _ _ x y => x + y)⟩,
    ⟨.ssub h a, encSv 1 a, false, svOp a (fun w _ x y => x + (2 ^ w - y))⟩,
    ⟨.smul h a, encSv 2 a, false, svOp a (fun _ _ x y => x * y)⟩,
    ⟨.sand h a, encSv 3 a, false, svOp a (fun _ _ x y => x &&& y)⟩,
    ⟨.sor h a, encSv 4 a, false, svOp a (fun _ _ x y => x ||| y)⟩,
    ⟨.sxor h a, encSv 5 a, false, svOp a (fun _ _ x y => x ^^^ y)⟩,
    ⟨.smin h a, encSv 6 a, false, svOp a (fun w _ x y => if codeInt true w x < codeInt true w y then x else y)⟩,
    ⟨.smax h a, encSv 7 a, false, svOp a (fun w _ x y => if codeInt true w x < codeInt true w y then y else x)⟩,
    ⟨.scmpeq h a, encSv 8 a, false, svOp a (fun w _ x y => if x = y then 2 ^ w - 1 else 0)⟩,
    ⟨.scmplt h a, encSv 9 a, false, svOp a (fun w _ x y => if codeInt true w x < codeInt true w y then 2 ^ w - 1 else 0)⟩,
    ⟨.ssel h a, encSv 10 a, false, svOp a (fun _ d x y => (d &&& x) ||| (y ^^^ (d &&& y)))⟩,
    ⟨.sfadd h a, encSv 16 a, false, svFpOp h a (fun g t _ x y => fAdd g t t x y)⟩,
    ⟨.sfsub h a, encSv 17 a, false, svFpOp h a (fun g t _ x y => fSub g t t x y)⟩,
    ⟨.sfmul h a, encSv 18 a, false, svFpOp h a (fun g t _ x y => fMul g t t x y)⟩,
    ⟨.sfdiv h a, encSv 19 a, false, svFpOp h a (fun g t _ x y => fDiv g t x y)⟩,
    ⟨.sfmacc h a, encSv 20 a, false, svFpOp h a (fun g t d x y => fFma g t t false false x y d)⟩,
    ⟨.sfmin h a, encSv 21 a, false, svFpOp h a (fun g t _ x y => fMinMax g t Config.sfminNumber false x y)⟩,
    ⟨.sfmax h a, encSv 22 a, false, svFpOp h a (fun g t _ x y => fMinMax g t Config.sfminNumber true x y)⟩,
    ⟨.sfcmpeq h a, encSv 23 a, false, svFpOp h a (fun g t _ x y => ⟨if (fCmp g t 0 x y).1 then 2 ^ t.w - 1 else 0, (fCmp g t 0 x y).2⟩)⟩,
    ⟨.sfcmplt h a, encSv 24 a, false, svFpOp h a (fun g t _ x y => ⟨if (fCmp g t 1 x y).1 then 2 ^ t.w - 1 else 0, (fCmp g t 1 x y).2⟩)⟩,
    ⟨.sfcmple h a, encSv 25 a, false, svFpOp h a (fun g t _ x y => ⟨if (fCmp g t 2 x y).1 then 2 ^ t.w - 1 else 0, (fCmp g t 2 x y).2⟩)⟩ ] : List CluRow)

/-! ### Ridge (Table 9-4) -/

/-- TILE without memory. -/
abbrev tileRows (h : Hart) (a : TArgs) (r : CluRow) : Prop :=
  r ∈ ([
    ⟨.tzero h a, encT 23 0 a, false, fun _ k =>
      (List.range 32).foldl (fun c r => (c.setRow (a.rd.extractLsb' 0 3) r 0).setScale (a.rd.extractLsb' 0 3) r unitScales) k⟩,
    ⟨.tfill h a, encT 23 1 a, false, fun f k => k.fill (f.tileEnv h) a false⟩,
    ⟨.tfilla h a, encT 23 2 a, false, fun f k => k.fill (f.tileEnv h) a true⟩,
    ⟨.tlanes h a, encT 23 3 a, false, fun f k => k.fillLanes (f.tileEnv h) a.tb⟩,
    ⟨.tredrow h a, encT 23 8 a, false, fun f k => tileReduce a true (fun g t => fAdd g t t) (f.tileEnv h) k⟩,
    ⟨.tredcol h a, encT 23 9 a, false, fun f k => tileReduce a false (fun g t => fAdd g t t) (f.tileEnv h) k⟩,
    ⟨.tredrowmax h a, encT 23 10 a, false, fun f k => tileReduce a true (fun g t => fMinMax g t true true) (f.tileEnv h) k⟩,
    ⟨.tredcolmax h a, encT 23 11 a, false, fun f k => tileReduce a false (fun g t => fMinMax g t true true) (f.tileEnv h) k⟩,
    ⟨.tmovtv h a, encT 23 12 a, false, fun _ k =>
      k.setV a.rd ((k.getV a.rd).extractLsb' 4096 4096 ++ k.getRow a.ta ((k.getX a.rs1).toNat % 32))⟩,
    ⟨.tmovvt h a, encT 23 13 a, false, fun _ k =>
      k.setRow (a.rd.extractLsb' 0 3) ((k.getX a.rs1).toNat % 32) ((k.getV a.rs2).extractLsb' 0 4096)⟩,
    ⟨.tltot h a, encT 23 14 a, false, fun _ k =>
      (List.range 32).foldl (fun c j => (c.setRow (a.rd.extractLsb' 0 3) j (Tbl.get (fun _ => 0) k.lanes j)).setScale
        (a.rd.extractLsb' 0 3) j (Tbl.get (fun _ => unitScales) k.laneSc j)) k⟩ ] : List CluRow)

end Sys2Proof.Machine
end

