-- ==== Sys2Proof/Certificates/Slice0/Obligations.lean ====
section
/-!
DEFINITION. Certificates/Slice0/Obligations.lean: the statements about the model that are to be proved.
-/
open Sys2Proof Sys2Proof.Machine

/-- Step of a state whose queue begins with c is exec of c on that state with the rest of the queue. With nothing pending a step
is one tick of TCLK and one cycle of the mesh, whose sinks then take what has come, and CXL devices answer (a choice of the
model, log entries 20 and 130): before the first lock of the root PLL TCLK counts nothing; from then on, while the beat generator
does not run or its next boundary is ahead, it has counted one tick more. No CXL request is then outstanding, and each that was
has been answered. -/
def Obligations.StepTakesFrontCommand : Prop :=
  (∀ (s : State) (c : Instr) (rest : List Instr), step { s with pending := c :: rest } = exec c { s with pending := rest }) ∧
  (∀ s : State, s.pending = [] → step s = .next s.idle1) ∧
  (∀ s : State, s.pending = [] → ∃ t, step s = .next t ∧
    (s.beat.locked1st = false → t.beat = s.beat) ∧
    (s.beat.locked1st = true → (s.running = true → s.beat.tick < s.beat.placed) → t.beat.tick = s.beat.tick + 1) ∧
    t.mem.cxlOut = [] ∧ ∀ x ∈ s.mem.cxlOut, .completion x.res ∈ t.out)

/-- In State.reset each register word reads its row's Reset values, among them: every watermark level but the guard's 0xFFF,
ALERT_EN of PCTL_FAULT, HDF_CTL and PWR_CTL 1 with ALERT_LEVEL 2, WCB_AGE.MAX_AGE 200, LNK_CTL.REPLAY_TO 20; every role is OFF;
a cluster is in Monitor, not running, with INTRAP 0; nothing is pending, no slot, frame, memory byte, claim or event is held,
PERST_N is still asserted; and every table is in canonical form. That X registers hold 0 is the model's choice (log entry 3). -/
def Obligations.ResetLeaves : Prop :=
  (∀ a, State.reset.word a = resetWord a) ∧
  (State.reset.fld ADM_WM_CFG_LEVEL = 0xFFF ∧ State.reset.fld EVT_WM_CFG_LEVEL = 0xFFF ∧ State.reset.flag HDF_CTL_ALERT_EN = true ∧
    State.reset.flag PWR_CTL_ALERT_EN = true ∧ State.reset.fld PWR_CTL_ALERT_LEVEL = 2 ∧
    (∀ p : Part, State.reset.fld (PLAT_WM_CFG_LEVEL p) = 0xFFF ∧ State.reset.fld (LNK_WM_CFG_LEVEL p) = 0xFFF ∧
      State.reset.flag (PCTL_FAULT_ALERT_EN p) = true ∧ State.reset.role p = 0 ∧ State.reset.fld (WCB_AGE_MAX_AGE p) = 200 ∧
      State.reset.fld (LNK_CTL_REPLAY_TO p) = 20)) ∧
  (∀ h : Hart, (State.reset.own h).mon = true ∧ (State.reset.own h).running = false ∧ (State.reset.own h).intrap = false ∧
    State.reset.issues h = false ∧ (∀ r, (State.reset.own h).getX r = 0)) ∧
  (State.reset.pending = [] ∧ State.reset.out = [] ∧ State.reset.mem.bytes = [] ∧ State.reset.slots = [] ∧ State.reset.plats = [] ∧
    State.reset.claims = [] ∧ State.reset.evt.held = [] ∧ State.reset.boot.held = true) ∧
  State.reset.canonical = true

/-- For every command and every state, exec answers a next state (no command of the block faults or is refused), whose queue and
whose product (stepping, packaging and width) are those of the state it was given. -/
def Obligations.EveryCommandAnswers : Prop :=
  ∀ (c : Instr) (s : State), ∃ t, exec c s = .next t ∧ t.pending = s.pending ∧ t.product = s.product

/-- In every state whose register words, device memory, host memory, claim entries and tally bins are in canonical form (keys
strictly rising, no entry equal to what an unlisted key reads as) and whose claim entries read 0 in bits 31 to 26, whatever a
step does, the next state has the same properties. So equal contents are equal data, and no claim entry ever shows a reserved
bit. -/
def Obligations.TablesStayCanonical : Prop :=
  ∀ s t : State, s.canonical = true → step s = .next t → t.canonical = true

/-- An instruction with change g, fetched in f, whose accesses left t: after it retires, its cluster is g of what it was, with
lastPc the instruction's address, pc the next instruction's, INSTRET one more, and halted after a STEP; every other cluster,
every register, memory and every other part of the state is as the accesses left it. -/
def Obligations.RetirementFrame : Prop :=
  ∀ (f t : State) (h : Hart) (w : Nat) (g : Cluster → Cluster),
    let u := f.retiredFrom t h w g
    let k := g (t.own h)
    u.own h = { k with lastPc := k.pc, pc := (f.own h).pc + instLen w, instret := k.instret + 1,
                       halted := k.halted || k.stepping, stepping := false } ∧
    (∀ p c, cluKey p c ≠ cluKey h.part h.clu → u.clu p c = t.clu p c) ∧
    { u with clus := t.clus } = t

/-- The fetch of an instruction, and a load or a store of a cluster at a place outside register space, leave every field of
every cluster unchanged but its L1 caches, stride detectors, outstanding stores and the abort of a store. A load that the caches
do not serve, at a place of this chip, changes no byte of memory, no write-combining entry, no L2 line and no cluster; a store
that they do not serve changes no L2 line. -/
def Obligations.AccessFrame : Prop :=
  (∀ (s : State) (h : Hart) (w : Nat) (p c : Nat), ((s.afterFetch h w).clu p c).core = (s.clu p c).core) ∧
  (∀ (s : State) (h : Hart) (pl : Place) (n : Nat) (excl strm : Bool), s.isRegs pl = false →
    let u := (s.cluLoad h pl n excl strm).2
    (∀ p c, (u.clu p c).core = (s.clu p c).core) ∧
    (s.useCache h pl = false → s.isLocal pl.pa = true →
      u.mem.bytes = s.mem.bytes ∧ u.mem.wcb = s.mem.wcb ∧ u.l2 = s.l2 ∧ u.clus = s.clus)) ∧
  (∀ (s : State) (h : Hart) (pl : Place) (ea detail : Nat) (d : List Byte) (strm : Bool), s.isRegs pl = false →
    let u := (s.cluStore h pl ea detail d strm).2
    (∀ p c, (u.clu p c).core = (s.clu p c).core) ∧ (s.useCache h pl = false → u.l2 = s.l2))

/-- Each of ADD, SUB, AND, OR, XOR, SLL, SRL, SRA, SLT, SLTU, MIN, MAX, MINU, MAXU, MUL, MULH, MULHU, MULHSU, DIV, DIVU, REM,
REMU, CLZ, CTZ, POPC, REV8, ADDI, ANDI, ORI, XORI, SLTI, SLTIU, SLLI, SRLI, SRAI, LUI, AUIPC, C.ADDI, C.SUBI, C.MV, C.MVF and
C.VSETVL, on a cluster where it executes normally (ready: the cluster issues, the fetch succeeds, the encoding is assigned),
answers the next state in which its cluster holds the result that the row of Safety.lean gives (divide by zero: all ones or the
dividend; shifts by bits [5:0]; a write to X0 discarded by setX) and retires, and everything else is as the fetch left it. The
signs of MULHSU's operands and truncation toward zero in DIV and REM are the model's choice (log 53). -/
def Obligations.IntegerResults : Prop :=
  (∀ h a r, intRows h a r → r.completes h) ∧ (∀ h a r, immRows h a r → r.completes h) ∧ (∀ h a r, upperRows h a r → r.completes h) ∧
  (∀ h rd imm r, halfAddRows h rd imm r → r.completes h) ∧ (∀ h rd rs sew r, halfMoveRows h rd rs sew r → r.completes h)

/-- LB, LH, LW, LD, LBU, LHU, LWU, FLW and FLD, where they execute normally and their access is aligned, translated and answered
with bytes d, answer the next state in which the destination holds d in little-endian order, sign- or zero-extended or boxed,
and the cluster retires in the state the access left. SB, SH, SW, SD, FSW and FSD, where their access goes through, retire in
the state the store of the low bytes left. C.LD, C.SD, C.FLD and C.FSD do the same with base X(2 + b') and offset 8 times their
field. That LB, LH and LW sign-extend (log 53) and that FSW and FSD store the bits as they stand (log 43) are the model's
choice. Where they execute normally, every element address is aligned and every access goes through: VLD, VLDS with a nonzero
stride and VLDX write each active element with the bytes read at base + i SEW/8, base + i stride, or base + index element i;
VLDS with stride 0 reads the first active element once and writes it to every active element; VST, VSTS and VSTX retire once the
elements of V[vd] are stored at those addresses in index order; VLDM and VSTM move the image of M[vd[2:0]]; VLDFF with VL = 0
only retires, and with every element readable it loads all of them and sets the bits below VL of M[MASK] (or, masked, keeps
them). -/
def Obligations.MemoryInstructions : Prop :=
  (
  (∀ h a r, loadRows h a r → r.completes h) ∧ (∀ h a r, storeRows h a r → r.completes h) ∧
  ∀ (h : Hart) (b : BitVec 3) (x : BitVec 5) (o4 : BitVec 4) (o3 : BitVec 3),
    LoadRow.completes ⟨.cLd h b x o4, halfOf 2 (b.toNat * 512 + x.toNat * 16 + o4.toNat), 8,
      fun k => (k.getX (xPrime b) + BitVec.ofNat 64 (8 * o4.toNat)).toNat, fun v k => k.setX x (BitVec.ofInt 64 (codeInt true 64 v))⟩ h ∧
    StoreRow.completes ⟨.cSd h b x o4, halfOf 3 (b.toNat * 512 + x.toNat * 16 + o4.toNat), false, 8,
      fun k => (k.getX (xPrime b) + BitVec.ofNat 64 (8 * o4.toNat)).toNat, fun k => (k.getX x).toNat⟩ h ∧
    LoadRow.completes ⟨.cFld h b x o3, halfOf 4 (b.toNat * 512 + x.toNat * 16 + o3.toNat * 2), 8,
      fun k => (k.getX (xPrime b) + BitVec.ofNat 64 (8 * o3.toNat)).toNat, fun v k => k.setF x (box fmtD v)⟩ h ∧
    StoreRow.completes ⟨.cFsd h b x o3, halfOf 4 (b.toNat * 512 + x.toNat * 16 + o3.toNat * 2 + 1), false, 8,
      fun k => (k.getX (xPrime b) + BitVec.ofNat 64 (8 * o3.toNat)).toNat, fun k => (k.getF x).toNat⟩ h) ∧
  (
  (∀ (s u : State) (h : Hart) (a : LvMemArgs) (l : List (Item × List Byte)),
    ∀ e ∈ ([(.vld h a, 0, unitAddr a), (.vldx h a, 2, indexAddr a)] : List (Instr × Nat × (Cluster → Nat → Nat))),
      s.ready h (encLvMem e.2.1 a) false = true →
        let f := s.afterFetch h (encLvMem e.2.1 a)
        let k := f.own h
        crooked (sewBits k.sew / 8) (f.lvItems k a (e.2.2 k)) = [] → f.itemsLoad h a.strm (f.lvItems k a (e.2.2 k)) l u →
          exec e.1 s = .next (f.retiredFrom u h (encLvMem e.2.1 a) (fun c => c.writeElems a.vd (sewBits k.sew) (loadedElems l)))) ∧
  (∀ (s u : State) (h : Hart) (a : LvMemArgs) (l : List (Item × List Byte)), s.ready h (encLvMem 1 a) false = true →
    let f := s.afterFetch h (encLvMem 1 a)
    let k := f.own h
    let items := f.lvItems k a (strideAddr a k)
    crooked (sewBits k.sew / 8) items = [] →
      (k.getX a.idx ≠ 0 → f.itemsLoad h a.strm items l u →
        exec (.vlds h a) s = .next (f.retiredFrom u h (encLvMem 1 a) (fun c => c.writeElems a.vd (sewBits k.sew) (loadedElems l)))) ∧
      (k.getX a.idx = 0 → f.itemsLoad h a.strm (items.take 1) l u →
        exec (.vlds h a) s = .next (f.retiredFrom u h (encLvMem 1 a) (fun c =>
          c.writeElems a.vd (sewBits k.sew) (items.map (fun i => (i.idx, ((loadedElems l).map (fun e => e.2)).headD 0))))))) ∧
  (∀ (s u : State) (h : Hart) (a : LvMemArgs),
    ∀ e ∈ ([(.vst h a, 4, unitAddr a), (.vsts h a, 5, strideAddr a), (.vstx h a, 6, indexAddr a)] :
        List (Instr × Nat × (Cluster → Nat → Nat))),
      s.ready h (encLvMem e.2.1 a) false = true →
        let f := s.afterFetch h (encLvMem e.2.1 a)
        let k := f.own h
        let items := f.lvItems k a (e.2.2 k)
        crooked (sewBits k.sew / 8) items = [] →
          f.itemsStore h a.strm (items.map (fun i => (i, bytesLE (sewBits k.sew / 8) (elemOf (k.getV a.vd).toNat (sewBits k.sew) i.idx))))
            (fun i => vecDetail 2 1 [i]) u →
          exec e.1 s = .next (u.retire h (k.pc + 4))) ∧
  (∀ (s u : State) (h : Hart) (a : LvMemArgs) (l : List (Item × List Byte)), s.ready h (encLvMem 8 a) false = true →
    let f := s.afterFetch h (encLvMem 8 a)
    let items := f.maskItems ((f.own h).getX a.base)
    crooked 8 items = [] → f.fresh.2.itemsLoad h a.strm items l u →
      exec (.vldm h a) s = .next (f.retiredFrom u h (encLvMem 8 a) (fun c =>
        c.setM (a.vd.extractLsb' 0 3) (u.maskBits (natLE (l.flatMap (fun e => e.2))))))) ∧
  (∀ (s u : State) (h : Hart) (a : LvMemArgs), s.ready h (encLvMem 9 a) false = true →
    let f := s.afterFetch h (encLvMem 9 a)
    let k := f.own h
    let items := f.maskItems (k.getX a.base)
    crooked 8 items = [] →
      f.fresh.2.itemsStore h a.strm (items.map (fun i => (i, bytesLE 8 (elemOf (k.getM (a.vd.extractLsb' 0 3)).toNat 64 i.idx))))
        (fun i => maskDetail f.fresh.1 1 [i]) u →
      exec (.vstm h a) s = .next (u.retire h (k.pc + 4))) ∧
  (∀ (s : State) (h : Hart) (a : LvMemArgs), s.ready h (encLvMem 3 a) false = true →
    let f := s.afterFetch h (encLvMem 3 a)
    let k := f.own h
    let items := f.lvItems k a (unitAddr a k)
    (f.vlNow k = 0 → exec (.vldff h a) s = .next (f.retire h (k.pc + 4))) ∧
    (∀ (u : State) (l : List (Item × List Byte)), 0 < f.vlNow k → items ≠ [] → crooked (sewBits k.sew / 8) (items.take 1) = [] →
      (f.xlateUpto h items).2.1 = none → (f.xlateUpto h items).2.2.loadAll h a.strm (f.xlateUpto h items).1 = (.ok l, u) →
      exec (.vldff h a) s = .next (f.retiredFrom u h (encLvMem 3 a) (fun c =>
        (c.writeElems a.vd (sewBits k.sew) (loadedElems l)).setM a.mask
          (u.maskBits (ffMask (k.getM a.mask).toNat a.masked (f.vlNow k))))))))

/-- Where they execute normally: BEQ, BNE, BLT, BGE, BLTU and BGEU go on at their own address plus the offset in halfwords if
their condition on X[rs1] and X[rs2] holds, else at the next instruction; JAL writes the address after it to X[rd] and goes to
its own address plus imm21 halfwords; JALR does so with target X[rs1] + imm12 where bit 0 of the target is 0; C.B, C.BZ and
C.BNZ are JAL X0, BEQ r', X0 and BNE r', X0. Nothing else changes but the retirement. Where they execute normally (no abort
pending where they are report points) and their access goes through: LDAQ and STRL load and store their size; AMOSWAP, AMOADD,
AMOAND, AMOOR, AMOXOR, AMOMAX, AMOMIN, AMOMAXU and AMOMINU store their function of the old value and X[rs2], and CAS stores
X[rs2] if the old value equals X[rd]; X[rd] receives the old value, the bits above a value shorter than 8 bytes free (log 44).
FENCE.RW.RW, FENCE.R.RW, FENCE.RW.W and FENCE.W.W only retire; FENCE.DRAIN retires once the cluster's earlier stores have
drained; FENCE.I retires with the cluster's L1I empty. -/
def Obligations.BranchesAtomicsAndFences : Prop :=
  (
  (∀ (s : State) (h : Hart) (a : BArgs),
    ∀ e ∈ ([(.beq h a, 0, fun x y => decide (x = y)), (.bne h a, 1, fun x y => decide (x ≠ y)),
        (.blt h a, 2, fun x y => decide (x.toInt < y.toInt)), (.bge h a, 3, fun x y => decide (y.toInt ≤ x.toInt)),
        (.bltu h a, 4, fun x y => decide (x.toNat < y.toNat)), (.bgeu h a, 5, fun x y => decide (y.toNat ≤ x.toNat))] :
        List (Instr × Nat × (BitVec 64 → BitVec 64 → Bool))),
      s.ready h (encB e.2.1 a) false = true →
        let f := s.afterFetch h (encB e.2.1 a)
        let k := f.own h
        exec e.1 s = .next (f.retire h (if e.2.2 (k.getX a.rs1) (k.getX a.rs2) then k.pc + a.imm.signExtend 64 <<< 1 else k.pc + 4))) ∧
  (∀ (s : State) (h : Hart) (a : UArgs), s.ready h (encU 8 a) false = true →
    let f := s.afterFetch h (encU 8 a)
    exec (.jal h a) s = .next (f.jumpedFrom h ((f.own h).pc + a.imm.signExtend 64 <<< 1) (fun k => k.setX a.rd (k.pc + 4)))) ∧
  (∀ (s : State) (h : Hart) (a : IArgs), s.ready h (encI 9 0 a.rd.toNat a.rs1.toNat a.imm.toNat) false = true →
    let f := s.afterFetch h (encI 9 0 a.rd.toNat a.rs1.toNat a.imm.toNat)
    let tgt := (f.own h).getX a.rs1 + a.imm.signExtend 64
    tgt.getLsbD 0 = false → exec (.jalr h a) s = .next (f.jumpedFrom h tgt (fun k => k.setX a.rd (k.pc + 4)))) ∧
  (∀ (s : State) (h : Hart) (off : BitVec 12), s.ready h (halfOf 5 off.toNat) false = true →
    let f := s.afterFetch h (halfOf 5 off.toNat)
    exec (.cB h off) s = .next (f.retire h ((f.own h).pc + off.signExtend 64 <<< 1))) ∧
  (∀ (s : State) (h : Hart) (r : BitVec 3) (off : BitVec 8), s.ready h (halfOf 6 (r.toNat * 256 + off.toNat)) false = true →
    let f := s.afterFetch h (halfOf 6 (r.toNat * 256 + off.toNat))
    let k := f.own h
    exec (.cBz h r off) s = .next (f.retire h (if k.getX (xPrime r) = 0 then k.pc + off.signExtend 64 <<< 1 else k.pc + 2))) ∧
  (∀ (s : State) (h : Hart) (r : BitVec 3) (off : BitVec 8), s.ready h (halfOf 6 (2048 + r.toNat * 256 + off.toNat)) false = true →
    let f := s.afterFetch h (halfOf 6 (2048 + r.toNat * 256 + off.toNat))
    let k := f.own h
    exec (.cBnz h r off) s = .next (f.retire h (if k.getX (xPrime r) = 0 then k.pc + 2 else k.pc + off.signExtend 64 <<< 1)))) ∧
  (
  (∀ (s u : State) (h : Hart) (a : AtomArgs) (d : List Byte), s.ready h (encAtom 0 a) false = true →
    let f := s.afterFetch h (encAtom 0 a)
    f.loadGoes h ((f.own h).getX a.rs1).toNat (2 ^ a.sz.toNat) true d u →
      loadedLow (exec (.ldaq h a) s) f u h (encAtom 0 a) a.rd (2 ^ a.sz.toNat) (natLE d)) ∧
  (∀ (h : Hart) (a : AtomArgs), StoreRow.completes ⟨.strl h a, encAtom 1 a, true, 2 ^ a.sz.toNat,
    fun k => (k.getX a.rs1).toNat, fun k => (k.getX a.rs2).toNat⟩ h) ∧
  (∀ (s u : State) (h : Hart) (a : AtomArgs) (d : List Byte),
    ∀ e ∈ ([(.amoswap h a, 2, fun _ _ y => y), (.amoadd h a, 3, fun w x y => (x + y) % 2 ^ w), (.amoand h a, 4, fun _ x y => x &&& y),
        (.amoor h a, 5, fun _ x y => x ||| y), (.amoxor h a, 6, fun _ x y => x ^^^ y),
        (.amomax h a, 7, fun w x y => if codeInt true w x < codeInt true w y then y else x),
        (.amomin h a, 8, fun w x y => if codeInt true w y < codeInt true w x then y else x),
        (.amomaxu h a, 9, fun _ x y => max x y), (.amominu h a, 10, fun _ x y => min x y)] :
        List (Instr × Nat × (Nat → Nat → Nat → Nat))),
      s.ready h (encAtom e.2.1 a) a.rl = true →
        let f := s.afterFetch h (encAtom e.2.1 a)
        let w := 8 * 2 ^ a.sz.toNat
        f.rmwGoes h a ((f.own h).getX a.rs1).toNat (2 ^ a.sz.toNat)
            (fun old => some (e.2.2 w old (((f.own h).getX a.rs2).toNat % 2 ^ w))) d u →
          loadedLow (exec e.1 s) f u h (encAtom e.2.1 a) a.rd (2 ^ a.sz.toNat) (natLE d)) ∧
  (∀ (s u : State) (h : Hart) (a : AtomArgs) (d : List Byte), s.ready h (encAtom 11 a) a.rl = true →
    let f := s.afterFetch h (encAtom 11 a)
    let w := 8 * 2 ^ a.sz.toNat
    f.rmwGoes h a ((f.own h).getX a.rs1).toNat (2 ^ a.sz.toNat)
        (fun old => if old = ((f.own h).getX a.rd).toNat % 2 ^ w then some (((f.own h).getX a.rs2).toNat % 2 ^ w) else none) d u →
      loadedLow (exec (.cas h a) s) f u h (encAtom 11 a) a.rd (2 ^ a.sz.toNat) (natLE d)) ∧
  (∀ (s : State) (h : Hart),
    ∀ e ∈ ([(.fenceRwRw h, 0), (.fenceRRw h, 1), (.fenceRwW h, 2), (.fenceWW h, 3)] : List (Instr × Nat)),
      s.ready h (encR 10 (192 + e.2) 0 0 0 false false) true = true →
        let f := s.afterFetch h (encR 10 (192 + e.2) 0 0 0 false false)
        exec e.1 s = .next (f.retire h ((f.own h).pc + 4))) ∧
  (∀ (s : State) (h : Hart), s.ready h (encR 10 196 0 0 0 false false) true = true →
    let f := s.afterFetch h (encR 10 196 0 0 0 false false)
    exec (.fenceDrain h) s = .next ((f.cluDrain h).retire h ((f.own h).pc + 4))) ∧
  (∀ (s : State) (h : Hart), s.ready h (encR 10 197 0 0 0 false false) true = true →
    let f := s.afterFetch h (encR 10 197 0 0 0 false false)
    ∃ t, exec (.fenceI h) s = .next t ∧ (t.own h).l1i = [] ∧ (t.own h).pc = (f.own h).pc + 4 ∧ (t.own h).x = (f.own h).x))

/-- Where they execute normally, CSRR, CSRW, CSRS and CSRC put the old value of the control register, as csrRead gives it, in
X[rd], and CSRW writes X[rs1], CSRS sets and CSRC clears the bits of X[rs1], through csrSet; with rs1 = X0, CSRS and CSRC write
nothing. Where they execute normally with no abort pending: TRET (in Monitor) goes on at TRETPC at the level in PPRIV with
INTRAP = 0; WFB retires and the cluster issues nothing more until a beat boundary. A returning store abort is held for its first
report point: where none is pending, its address is recorded as pending, and an earlier one stands. -/
def Obligations.SystemInstructions : Prop :=
  (
  ∀ (s : State) (h : Hart) (a : CsrArgs),
    ∀ e ∈ ([(.csrr h a, 0, fun _ _ => none), (.csrw h a, 1, fun _ x => some x),
        (.csrs h a, 2, fun o x => if a.rs1 = 0 then none else some (o ||| x)),
        (.csrc h a, 3, fun o x => if a.rs1 = 0 then none else some (o &&& ~~~x))] :
        List (Instr × Nat × (BitVec 64 → BitVec 64 → Option (BitVec 64)))),
      s.ready h (encI 11 e.2.1 a.rd.toNat a.rs1.toNat a.csr.toNat) false = true →
        let f := s.afterFetch h (encI 11 e.2.1 a.rd.toNat a.rs1.toNat a.csr.toNat)
        let r := f.csrRead h a.csr.toNat
        exec e.1 s = .next (f.retiredFrom r.2 h (encI 11 e.2.1 a.rd.toNat a.rs1.toNat a.csr.toNat) (fun k =>
          (match e.2.2 r.1 (k.getX a.rs1) with
            | some v => f.csrSet h a.csr.toNat v k
            | none => k).setX a.rd r.1))) ∧
  (
  (∀ (s : State) (h : Hart), s.ready h (encI 11 5 0 0 0) true = true →
    let f := s.afterFetch h (encI 11 5 0 0 0)
    exec (.tret h) s = .next (f.jumpedFrom h (f.own h).tretpc (fun k => { k with mon := k.ppriv, intrap := false }))) ∧
  (∀ (s : State) (h : Hart), s.ready h (encI 11 6 0 0 0) true = true →
    let f := s.afterFetch h (encI 11 6 0 0 0)
    exec (.wfb h) s = .next (f.retiredFrom f h (encI 11 6 0 0 0) (fun k => { k with wfb := true }))) ∧
  (∀ (s : State) (h : Hart) (addr : BitVec 56),
    ((s.own h).abort = none → exec (.storeAbortReturn h addr) s =
      .next (s.setClu h.part h.clu { s.own h with abort := some ⟨BitVec.ofNat 64 addr.toNat, 1⟩ })) ∧
    ((s.own h).abort ≠ none → exec (.storeAbortReturn h addr) s = .next s)))

/-- For every state and value v: after a write of v, FCSR reads v's RM (0 for the two malformed codes) and FLAGS; VL reads the
lesser of v mod 2048 and VLMAX; VTYPE reads SEW, and ALT where SEW is 8 or 16 bits; TSTRIDE_A and TSTRIDE_C read bits [39:6];
TCOUNT reads the lesser of v mod 2^21 and 2^20; TSTAT reads bits 1 and 0; TRAPVEC and TRETPC read v with bit 0 clear; MSCRATCH
reads v; ISAMASK reads v[15:0] with bits 0, 1 and 7 set. The value kept by VL for a v above VLMAX, and bit 0 of TRAPVEC and
TRETPC, follow the tables; the model's choices among them are log 54. -/
def Obligations.ControlRegisterReadBack : Prop :=
  ∀ (s : State) (h : Hart) (k : Cluster) (v : BitVec 64),
    let rd := fun (n : Nat) => ((s.setClu h.part h.clu (s.csrSet h n v k)).csrRead h n).1.toNat
    rd 0x001 = (if v.toNat / 32 % 8 = 5 ∨ v.toNat / 32 % 8 = 6 then 0 else v.toNat / 32 % 8) * 32 + v.toNat % 32 ∧
    rd 0x010 = min (v.toNat % 2048) (s.vlmaxAt k.sew) ∧
    rd 0x011 = v.toNat % 4 + (if v.getLsbD 2 = true ∧ v.toNat % 4 < 2 then 4 else 0) ∧
    rd 0x021 = v.toNat / 64 % 2 ^ 34 * 64 ∧ rd 0x022 = v.toNat / 64 % 2 ^ 34 * 64 ∧
    rd 0x023 = min (v.toNat % 2 ^ 21) (2 ^ 20) ∧ rd 0x800 = v.toNat % 4 ∧
    rd 0x801 = v.toNat / 2 * 2 ∧ rd 0x802 = v.toNat / 2 * 2 ∧ rd 0x803 = v.toNat ∧ rd 0x804 = v.toNat % 65536 ||| 0x83

/-- FADD, FSUB, FMUL, FDIV, FSQRT, FMIN, FMAX, FSGNJ, FSGNJN, FSGNJX, FEQ, FLT, FLE, FCLASS, FCVT.F.F, FCVT.F.X, FMV.F.X, FMADD,
FMSUB, FNMADD and FNMSUB, where they execute normally, leave in F[rd] (boxed) or X[rd] the result that Safety.lean's row names,
accrue its flags into FCSR.FLAGS, and retire. FCVT.X.F leaves the integer, with the bits above a 32-bit result free (log 46),
and FMV.X.F the bits of F[rs1], with the bits above a narrower format free (log 47). The class word of FCLASS and FMIN and FMAX
of one NaN are open (log 10, 11); the signs of FNMADD and FNMSUB are log 48. -/
def Obligations.ScalarFloatResults : Prop :=
  (∀ h a r, fpRows h a r → r.completes h) ∧ (∀ h a r, fmaRows h a r → r.completes h) ∧
  (∀ (s : State) (h : Hart) (a : FArgs), s.ready h (encF 17 a) false = true →
    let f := s.afterFetch h (encF 17 a)
    let t := fmtOf a.fmt
    let n := if a.rs2.getLsbD 1 then 32 else 64
    let r := cvtFI (f.fEnv h a.rm).rm t (!a.rs2.getLsbD 0) n (t.decode ((f.own h).fOp t a.rs1))
    ∃ (x : BitVec 64) (c : Nat), x.toNat % 2 ^ n = r.bits % 2 ^ n ∧
      exec (.fcvtXF h a) s = .next (f.retiredFrom { f with freeCtr := c } h (encF 17 a) (fun k => (k.setX a.rd x).accrue r.flags))) ∧
  (∀ (s : State) (h : Hart) (a : FArgs), s.ready h (encF 19 a) false = true →
    let f := s.afterFetch h (encF 19 a)
    let t := fmtOf a.fmt
    ∃ (x : BitVec 64) (c : Nat), x.toNat % 2 ^ t.w = (f.own h).fOp t a.rs1 % 2 ^ t.w ∧
      exec (.fmvXF h a) s = .next (f.retiredFrom { f with freeCtr := c } h (encF 19 a) (fun k => k.setX a.rd x)))

/-- All LV-ARITH instructions (VADD to VMV, VFADD to VFSGNJN, VID), all LV-MASK instructions (the compares, VMAND, VMOR, VMXOR,
VMANDN, VMSET, VMPOP, VMFIRST), VSETVL, LV_CVT, all LV-WIDE instructions and all LV-RED instructions, where they execute
normally, answer the next state in which their cluster holds the change that Safety.lean's row names, over the active elements,
and retires; everything else is as the fetch left it. SADD, SSUB, SMUL, SAND, SOR, SXOR, SMIN, SMAX, SCMPEQ, SCMPLT, SSEL,
SFADD, SFSUB, SFMUL, SFDIV, SFMACC, SFMIN, SFMAX, SFCMPEQ, SFCMPLT and SFCMPLE, where they execute normally, write all 256 bits
of S[sd] with the element-wise result of Safety.lean's row and retire. Where their addresses are aligned and their accesses go
through, SLD loads the 32 bytes at X[base] + X[off], SLDB one element into every element, and SST stores S[sd]. That SMIN, SMAX
and SCMPLT are signed is log 52, and SFMIN and SFMAX of one NaN are open (log 10). -/
def Obligations.VectorResults : Prop :=
  (
  (∀ h a r, vecIntRows h a r → r.completes h) ∧ (∀ h a r, vecFpRows h a r → r.completes h) ∧
  (∀ h a r, vecCmpRows h a r → r.completes h) ∧ (∀ h a r, maskRows h a r → r.completes h) ∧
  (∀ h a r, vsetRows h a r → r.completes h) ∧ (∀ h a r, cvtRows h a r → r.completes h) ∧
  (∀ h a r, wideRows h a r → r.completes h) ∧ (∀ h a r, redRows h a r → r.completes h)) ∧
  (
  (∀ h a r, shortRows h a r → r.completes h) ∧
  (∀ (s u : State) (h : Hart) (a : SvMemArgs) (l : List (Item × List Byte)),
    ∀ e ∈ ([(.sld h a, 0, 256 / efmtBits a.efmt, fun l => l),
        (.sldb h a, 2, 1, fun l => List.replicate (256 / efmtBits a.efmt) (l.headD 0))] :
        List (Instr × Nat × Nat × (List Nat → List Nat))),
      s.ready h (encSvMem e.2.1 a) false = true →
        let f := s.afterFetch h (encSvMem e.2.1 a)
        let items := svItems a e.2.2.1 (f.own h)
        crooked (efmtBits a.efmt / 8) items = [] → f.itemsLoad h a.strm items l u →
          exec e.1 s = .next (f.retiredFrom u h (encSvMem e.2.1 a) (fun c =>
            c.writeS a.sd (efmtBits a.efmt) (e.2.2.2 ((loadedElems l).map (fun x => x.2)))))) ∧
  (∀ (s u : State) (h : Hart) (a : SvMemArgs), s.ready h (encSvMem 1 a) false = true →
    let f := s.afterFetch h (encSvMem 1 a)
    let k := f.own h
    let w := efmtBits a.efmt
    let items := svItems a (256 / w) k
    crooked (w / 8) items = [] →
      f.itemsStore h a.strm (items.map (fun i => (i, bytesLE (w / 8) (elemOf (k.getS a.sd).toNat w i.idx)))) (fun i => vecDetail 1 1 [i]) u →
      exec (.sst h a) s = .next (u.retire h (k.pc + 4))))

/-- For every cluster, V instruction operands, element width w and count n with n elements in the register (w n at most 8192):
after the element-wise work, element i of V[vd] is the function's result modulo 2^w where i is active, and is as before
everywhere else in the register; V registers other than vd, the masks, X and S registers are unchanged. -/
def Obligations.ElementwiseRule : Prop :=
  ∀ (k : Cluster) (a : VArgs) (w n : Nat) (f : ElemFn), 0 < w → w * n ≤ 8192 →
    (∀ i, w * (i + 1) ≤ 8192 → elemOf ((vecWork a w n f k).getV a.vd).toNat w i =
      if k.activeAt n a.masked a.mask i then
        (f (k.vSrc a.vd false w i) (k.vSrc a.vs1 a.z0a w i) (k.vSrc a.vs2 a.z0b w i) i).bits % 2 ^ w
      else elemOf (k.getV a.vd).toNat w i) ∧
    (∀ r, r ≠ a.vd → (vecWork a w n f k).getV r = k.getV r) ∧
    (vecWork a w n f k).m = k.m ∧ (vecWork a w n f k).x = k.x ∧ (vecWork a w n f k).sv = k.sv

/-- TZERO, TFILL, TFILLA, TLANES, TREDROW, TREDCOL, TREDROWMAX, TREDCOLMAX, TMOVTV, TMOVVT and TLTOT, where they execute
normally, change their cluster as Safety.lean's row says and retire. TLD and TLDS write row r of tile TD or its companion with
the bytes read at X[rs1] + r X[rs2], and TST and TSTS store row r of tile TA or its companion there, where rows are aligned and
accesses go through. TSTREAM and TSTREAMA, with TCOUNT = 0 or both bases aligned to 64 bytes, every page translated, the lanes
loaded in the present format and every row's accesses ending well, retire once the TCOUNT rows have been streamed. -/
def Obligations.TileEngineResults : Prop :=
  (∀ h a r, tileRows h a r → r.completes h) ∧
  (∀ (s u : State) (h : Hart) (a : TArgs) (l : List (Item × List Byte)),
    ∀ e ∈ ([(.tld h a, 0, 512, 64, fun c r x => c.setRow (a.rd.extractLsb' 0 3) r (BitVec.ofNat 4096 x)),
        (.tlds h a, 2, 32, 32, fun c r x => c.setScale (a.rd.extractLsb' 0 3) r (BitVec.ofNat 256 x))] :
        List (Instr × Nat × Nat × Nat × (Cluster → Nat → Nat → Cluster))),
      s.ready h (encT 24 e.2.1 a) false = true →
        let f := s.afterFetch h (encT 24 e.2.1 a)
        crookedRows a e.2.2.2.1 (f.own h) = [] → f.itemsLoad h false (tileItems a e.2.2.1 (f.own h)) l u →
          exec e.1 s = .next (f.retiredFrom u h (encT 24 e.2.1 a) (fun c => (List.range 32).foldl (fun c r =>
            e.2.2.2.2 c r (natLE ((l.filter (fun x => decide (x.1.idx / 512 = r))).flatMap (fun x => x.2)))) c))) ∧
  (∀ (s u : State) (h : Hart) (a : TArgs),
    ∀ e ∈ ([(.tst h a, 1, 512, 64, fun c r => (c.getRow a.ta r).toNat), (.tsts h a, 3, 32, 32, fun c r => (c.getScale a.ta r).toNat)] :
        List (Instr × Nat × Nat × Nat × (Cluster → Nat → Nat))),
      s.ready h (encT 24 e.2.1 a) false = true →
        let f := s.afterFetch h (encT 24 e.2.1 a)
        let k := f.own h
        crookedRows a e.2.2.2.1 k = [] →
          f.itemsStore h false ((tileItems a e.2.2.1 k).map (fun i =>
            (i, bytesLE i.n (e.2.2.2.2 k (i.idx / 512) / 2 ^ (8 * (i.idx % 512)))))) (fun i => tileDetail a.ta (tileBits k.tfmt.toNat) 1 [i]) u →
          exec e.1 s = .next (u.retire h (k.pc + 4))) ∧
  (∀ (s u : State) (h : Hart) (a : TArgs) (d : List Byte), ∀ e ∈ ([(.tstream h a, 4, false), (.tstreama h a, 5, true)] : List (Instr × Nat × Bool)),
    s.ready h (encT 23 e.2.1 a) false = true →
      let f := s.afterFetch h (encT 23 e.2.1 a)
      let k := f.own h
      let x := f.streamXlate h k (f.tileEnv h) a e.2.2 k.tcount 0
      (k.tcount = 0 ∨ ((k.getX a.rs1).toNat % 64 = 0 ∧ (k.getX a.rs2).toNat % 64 = 0)) → x.1 = [] → k.tileBusy (f.tileEnv h) = false →
        x.2.2.streamRows h k (f.tileEnv h) e.2.2 x.2.1 = (.ok d, u) → exec e.1 s = .next (u.retire h (k.pc + 4)))

/-- On a cluster with INTRAP = 0 and no pending abort, where the fetch succeeds: BREAK and C.BREAK (assigned encodings), a
RESERVED_OP command with a reserved word and a MALFORMED_OP command with a malformed word answer the next state in which
TRAPCAUSE holds the code (8, 8, 1, 2), the level in bit 8 and the length in bit 11; TRAPPC and TRETPC hold the instruction's
address, TRAPNEXT the next one (0 for MALFORMED_OP), TRAPINST the instruction as fetched, TRAPADDR and TRAPDETAIL 0; PPRIV the
level, INTRAP 1, the level is Monitor, the next instruction is at TRAPVEC; the other registers of the cluster, memory and the L2
are as the fetch left them; LAST_CAUSE is the code and the trap count one more (modulo 2^32). JALR to a target with bit 0 = 1
traps MISALIGNED (5) with the target in TRAPADDR. -/
def Obligations.TrapEntryState : Prop :=
  ∀ (s : State) (h : Hart),
    (∀ imm : BitVec 12, s.fetches h (encI 11 4 0 0 imm.toNat) = true →
      trapsPrecisely (exec (.break h imm) s) (s.afterFetch h (encI 11 4 0 0 imm.toNat)) h (encI 11 4 0 0 imm.toNat) 8) ∧
    (s.fetches h (halfOf 0 3) = true → trapsPrecisely (exec (.cBreak h) s) (s.afterFetch h (halfOf 0 3)) h (halfOf 0 3) 8) ∧
    (∀ w : BitVec 32, s.fetches h w.toNat = true → kindOf (s.kindCtx h) w.toNat = .reserved →
      kindOf ((s.afterFetch h w.toNat).kindCtx h) w.toNat = .reserved →
      trapsPrecisely (exec (.reservedOp h w) s) (s.afterFetch h w.toNat) h w.toNat 1) ∧
    (∀ w : BitVec 32, s.fetches h w.toNat = true → kindOf (s.kindCtx h) w.toNat = .malformed →
      kindOf ((s.afterFetch h w.toNat).kindCtx h) w.toNat = .malformed →
      trapsPrecisely (exec (.malformedOp h w) s) (s.afterFetch h w.toNat) h w.toNat 2) ∧
    (∀ a : IArgs,
      let w := encI 9 0 a.rd.toNat a.rs1.toNat a.imm.toNat
      let tgt := ((s.afterFetch h w).own h).getX a.rs1 + a.imm.signExtend 64
      s.fetches h w = true → tgt.getLsbD 0 = true →
        ∃ t, exec (.jalr h a) s = .next t ∧ (t.own h).trapcause.toNat % 256 = 5 ∧ (t.own h).trapaddr = tgt ∧
          (t.own h).pc = ((s.afterFetch h w).own h).trapvec ∧ (t.own h).x = ((s.afterFetch h w).own h).x)

/-- On a cluster that issues, with INTRAP = 0 and an abort of an earlier store pending: a FENCE, STRL, an AMO or CAS with RL,
TRET or WFB whose fetch succeeds and whose encoding is assigned traps CLAIM_DENIED with IMPRECISE = 1: TRAPADDR and TRAPDETAIL
are those of the abort, TRAPPC is the instruction's address, the abort is no longer pending, and X registers, memory and caches
are as the fetch left them. -/
def Obligations.PendingAbortReported : Prop :=
  ∀ (s : State) (h : Hart) (a : AtomArgs) (b : Abort), a.rl = true →
    ∀ e ∈ ([(.fenceRwRw h, encR 10 192 0 0 0 false false), (.fenceRRw h, encR 10 193 0 0 0 false false),
        (.fenceRwW h, encR 10 194 0 0 0 false false), (.fenceWW h, encR 10 195 0 0 0 false false),
        (.fenceDrain h, encR 10 196 0 0 0 false false), (.fenceI h, encR 10 197 0 0 0 false false),
        (.strl h a, encAtom 1 a), (.amoswap h a, encAtom 2 a), (.amoadd h a, encAtom 3 a), (.amoand h a, encAtom 4 a),
        (.amoor h a, encAtom 5 a), (.amoxor h a, encAtom 6 a), (.amomax h a, encAtom 7 a), (.amomin h a, encAtom 8 a),
        (.amomaxu h a, encAtom 9 a), (.amominu h a, encAtom 10 a), (.cas h a, encAtom 11 a),
        (.tret h, encI 11 5 0 0 0), (.wfb h, encI 11 6 0 0 0)] : List (Instr × Nat)),
      let f := s.afterFetch h e.2
      let k := f.own h
      s.issues h = true → (s.fetchInst h e.2).1 = .ok → kindOf (f.kindCtx h) e.2 = .assigned → k.intrap = false → k.abort = some b →
        ∃ t, exec e.1 s = .next t ∧
          (t.own h).trapcause.toNat = 4 + (if k.mon then 256 else 0) + 512 + 2048 ∧
          (t.own h).trapaddr = b.addr ∧ (t.own h).trapdetail = b.detail ∧ (t.own h).trappc = k.pc ∧ (t.own h).pc = k.trapvec ∧
          (t.own h).abort = none ∧ (t.own h).x = k.x ∧ (t.own h).l1d = k.l1d ∧ (t.own h).l1i = k.l1i ∧ t.mem = f.mem ∧ t.l2 = f.l2

/-- For every state, cluster, trap and fetched instruction: raising a trap while INTRAP = 1 leaves the cluster halted,
CLU_STS.DOUBLE_TRAP at 1, and the partition's PCTL_STS.FAILED and PCTL_FAULT.FATAL at 1. What a handler shall save is software's
part of the rule. -/
def Obligations.DoubleTrapHalts : Prop :=
  ∀ (s : State) (h : Hart) (i : Fetched) (imp : Bool) (c : Trap) (next : BitVec 64), (s.own h).intrap = true →
    let t := s.raiseTrap h i imp c next
    (t.own h).halted = true ∧ t.flag (CLU_STS_DOUBLE_TRAP h.part h.clu) = true ∧
      t.flag (PCTL_STS_FAILED h.part) = true ∧ t.flag (PCTL_FAULT_FATAL h.part) = true

/-- On a cluster that, after a successful fetch, is at User level with INTRAP = 0 and no abort pending: TRET, and CSRR, CSRW,
CSRS and CSRC of any assigned CSR numbered 0x800 or above (reads only, where the number is read-only), trap PRIV (cause 6) as
trap entry says, with the level User in PPRIV and Monitor after it; at Monitor level the same encodings are assigned, so
execute. trapReturn, TRET's effect, goes to the level in PPRIV. What translation permits by level is stated in another rule. -/
def Obligations.UserLevelTrapsPriv : Prop :=
  (∀ (s : State) (h : Hart) (a : CsrArgs),
    ∀ e ∈ ([(.tret h, encI 11 5 0 0 0), (.csrr h a, encI 11 0 a.rd.toNat a.rs1.toNat a.csr.toNat),
        (.csrw h a, encI 11 1 a.rd.toNat a.rs1.toNat a.csr.toNat), (.csrs h a, encI 11 2 a.rd.toNat a.rs1.toNat a.csr.toNat),
        (.csrc h a, encI 11 3 a.rd.toNat a.rs1.toNat a.csr.toNat)] : List (Instr × Nat)),
      s.fetches h e.2 = true → ((s.afterFetch h e.2).own h).mon = false →
      0x800 ≤ a.csr.toNat → csrAssigned a.csr.toNat = true →
      (a.csr.toNat < 0xC00 ∨ e.1 = .csrr h a ∨ e.1 = .tret h ∨ ((e.1 = .csrs h a ∨ e.1 = .csrc h a) ∧ a.rs1 = 0)) →
        trapsPrecisely (exec e.1 s) (s.afterFetch h e.2) h e.2 6 ∧
        ∀ isa sew, kindOf ⟨isa, sew, true⟩ e.2 = .assigned) ∧
  (∀ k : Cluster, k.trapReturn.mon = k.ppriv)

/-- For every product variant, ISAMASK and level: 0x0000 and MAJOR 0 and 31 are malformed whatever the groups; a write to a
read-only CSR number is malformed even where the number is unassigned or privileged; a scalar floating-point encoding with RM
0b101 or 0b110 is malformed even where its group is masked or its function unassigned; an unassigned CSR number is reserved at
either level; an instruction of a masked group (FP, short vector, long vector, tile, wide, convert by its ISAVER bit) is
otherwise reserved at either level; CSRW of a CSR at 0x800 to 0x804 is PRIV at User and assigned at Monitor. -/
def Obligations.ReasonOrder : Prop :=
  ∀ (g : KindCtx) (w : Nat),
    (w.testBit 15 = true → bitsOf w 10 5 = 0 ∨ bitsOf w 10 5 = 31 → kindOf g w = .malformed) ∧
    (w.testBit 15 = false → w % 65536 = 0 → kindOf g w = .malformed) ∧
    (w.testBit 15 = true → bitsOf w 10 5 = 11 → bitsOf w 28 4 = 1 → bitsOf w 16 12 / 1024 % 2 = 1 → kindOf g w = .malformed) ∧
    (w.testBit 15 = true → bitsOf w 10 5 = 11 → bitsOf w 28 4 = 0 → csrAssigned (bitsOf w 16 12) = false → kindOf g w = .reserved) ∧
    (∀ m b, (m, b) ∈ [(16, 3), (17, 3), (18, 4), (19, 4), (20, 4), (21, 4), (22, 8), (23, 6), (24, 6), (25, 5)] →
      w.testBit 15 = true → bitsOf w 10 5 = m → g.isa.testBit b = false → kindOf g w = .reserved) ∧
    (∀ m lo, (m, lo) ∈ [(12, 24), (13, 19), (14, 19)] → w.testBit 15 = true → bitsOf w 10 5 = m →
      (bitsOf w lo 3 = 5 ∨ bitsOf w lo 3 = 6 → kindOf g w = .malformed) ∧
      (bitsOf w lo 3 ≠ 5 → bitsOf w lo 3 ≠ 6 → g.isa.testBit 2 = false → kindOf g w = .reserved)) ∧
    (w.testBit 15 = true → bitsOf w 10 5 = 11 → bitsOf w 28 4 = 1 → 0x800 ≤ bitsOf w 16 12 → bitsOf w 16 12 ≤ 0x804 →
      kindOf g w = if g.mon then .assigned else .priv)

/-- Vectors have 8192 bits on -W and 4096 on -N, masks one bit for each of their bytes, S registers 256 bits. F[r] reads bits
[63:0] of S[r]; a write of F[r] is read back, leaves bits [255:64] of S[r] and every other S register unchanged; a write of S[r]
sets all 256 bits, and F[r] then reads its low 64. After cluster reset every V, M and S register reads 0. -/
def Obligations.FloatRegistersShareShort : Prop :=
  (∀ (k : Cluster) (r q : BitVec 5) (v : BitVec 64) (x : BitVec 256),
    k.getF r = (k.getS r).extractLsb' 0 64 ∧ (k.setF r v).getF r = v ∧
    ((k.setF r v).getS r).extractLsb' 64 192 = (k.getS r).extractLsb' 64 192 ∧
    (q ≠ r → (k.setF r v).getS q = k.getS q) ∧ (k.setS r x).getS r = x ∧ (k.setS r x).getF r = x.extractLsb' 0 64 ∧
    Cluster.reset.getV r = 0 ∧ Cluster.reset.getS r = 0) ∧
  (∀ i : BitVec 3, Cluster.reset.getM i = 0) ∧
  (∀ s : State, s.vlen = if s.product.narrow then 4096 else 8192) ∧
  (∀ (s : State) (x : Nat), (s.maskBits x).toNat < 2 ^ (s.vlen / 8))

/-- For every active table, every descriptor and either parity bit: a wrong QDP with PARITY_EN refuses PARITY (code 1); else a
table stale for a second beat defers TABLE_STALE (code 5) with hint 1; else a REFUSE header refuses with its code; else
PROMPT_BLK above PROMPT_MAX refuses 3 and GEN_BLK above GEN_MAX refuses 4; else a DEFER header defers with its code and hint;
else, while fewer grants are consumed than GRANT_COUNT, the next grant is accepted; else CAPACITY (code 1) is deferred with the
hint. QDP is wrong where the ones of QD, QV = 1 and QDP are even in number. -/
def Obligations.PortAnswerOrder : Prop :=
  ∀ (a : ActTable) (stale : Bool) (qd : BitVec 32) (qdp : Bool),
    let h := a.tbl.hdr (qd.toNat % 8)
    let n := a.used.getD (qd.toNat % 8) 0
    let wrong := a.tbl.parityEn = true ∧ (onesIn 32 qd.toNat + 1 + (if qdp then 1 else 0)) % 2 = 0
    let pb := qd.toNat / 8 % 256
    let gb := qd.toNat / 2048 % 256
    (wrong → portAnswer a stale qd qdp = .refuse 1) ∧
    (¬ wrong → stale = true → portAnswer a stale qd qdp = .defer 5 1) ∧
    (¬ wrong → stale = false → h.st = 2 → portAnswer a stale qd qdp = .refuse h.code) ∧
    (¬ wrong → stale = false → h.st ≠ 2 → h.promptMax < pb → portAnswer a stale qd qdp = .refuse 3) ∧
    (¬ wrong → stale = false → h.st ≠ 2 → pb ≤ h.promptMax → h.genMax < gb → portAnswer a stale qd qdp = .refuse 4) ∧
    (¬ wrong → stale = false → h.st = 1 → pb ≤ h.promptMax → gb ≤ h.genMax → portAnswer a stale qd qdp = .defer h.code h.hint) ∧
    (¬ wrong → stale = false → h.st ≠ 2 → h.st ≠ 1 → pb ≤ h.promptMax → gb ≤ h.genMax → n < h.gcount →
      portAnswer a stale qd qdp = .accept (a.tbl.grants.getD (h.gstart + n) 0)) ∧
    (¬ wrong → stale = false → h.st ≠ 2 → h.st ≠ 1 → pb ≤ h.promptMax → gb ≤ h.genMax → h.gcount ≤ n →
      portAnswer a stale qd qdp = .defer 1 h.hint)

/-- While the device is held in reset ADMISSION_DESCRIPTOR and SWAP_EDGE change nothing, and no output of the port is driven.
Otherwise ADMISSION_DESCRIPTOR against an active table whose port is open drives QAV = 1 and the answer's code, with odd parity
in QAP; without a table or with the port closed it drives QAV = 0, QA = 0. Where no swap is pending and answers are not stale, an
ACCEPT consumes one grant of its class and appends one accept record, whose timestamp is within 12 ticks of the device's; any
other answer leaves table and records alone. SWAP_EDGE drives QAV = 0, QA = 0; with a swap pending, a ready table becomes active
with nothing consumed and the old one's retirement record follows; QCLK_PRESENT reads 1. QCLK_STOP clears it. -/
def Obligations.AdmissionAnswered : Prop :=
  (∀ s : State, s.inReset = true → s.portOut = none ∧ exec .swapEdge s = .next s ∧
    ∀ (qd : BitVec 32) (qdp : Bool), exec (.admissionDescriptor qd qdp) s = .next s) ∧
  (∀ (s : State) (qd : BitVec 32) (qdp : Bool) (a : ActTable), s.inReset = false → s.adm.active = some a → a.tbl.portClosed = false →
    let ans := portAnswer a (s.flag ADM_STS_STALE_DEFER) qd qdp
    ∃ t, exec (.admissionDescriptor qd qdp) s = .next t ∧ t.adm.qav = true ∧ t.adm.qa = ans.qa ∧
      (onesIn 16 t.adm.qa.toNat + 1 + (if t.adm.qap then 1 else 0)) % 2 = 1 ∧
      (s.adm.swapPend = false → s.flag ADM_STS_STALE_DEFER = false →
        (∀ k, ans = .accept k →
          t.adm.active = some { a with used := a.used.set (qd.toNat % 8) (a.used.getD (qd.toNat % 8) 0 + 1) } ∧
          ∃ dev : Int, -12 ≤ dev ∧ dev ≤ 12 ∧ t.adm.up = s.adm.up ++
            [.accept ⟨BitVec.ofNat 12 k, BitVec.ofNat 3 qd.toNat, qd, BitVec.ofInt 64 (s.beat.ts.toNat + dev)⟩]) ∧
        ((∀ k, ans ≠ .accept k) → t.adm.active = some a ∧ t.adm.up = s.adm.up))) ∧
  (∀ (s : State) (qd : BitVec 32) (qdp : Bool), s.inReset = false → (∀ a, s.adm.active = some a → a.tbl.portClosed = true) →
    ∃ t, exec (.admissionDescriptor qd qdp) s = .next t ∧ t.adm.qav = false ∧ t.adm.qa = 0) ∧
  (∀ s : State, s.inReset = false → ∃ t, exec .swapEdge s = .next t ∧ t.adm.qav = false ∧ t.adm.qa = 0 ∧
    t.flag ADM_STS_QCLK_PRESENT = true ∧ t.adm.swapPend = false ∧
    (∀ n : ClsTable, s.adm.swapPend = true → s.adm.ready = some n → s.adm.arrived = none →
      t.adm.active = some ⟨n, List.replicate 8 0⟩ ∧ t.adm.ready = none ∧
      t.adm.up = s.adm.up ++ (match s.adm.active with | some a => [.retire ⟨a.tbl.buildBeat, a.used⟩ a.tbl.idx] | none => []))) ∧
  (∀ s : State, ∃ t, exec .qclkStop s = .next t ∧ t.flag ADM_STS_QCLK_PRESENT = false ∧ t.adm = s.adm)

/-- ACCEPT_RECORD of a commit edge in the present beat makes its slot ACCEPTED with the class, the next request sequence number,
the descriptor's TAG and PROMPT_BLK, and the deadline BODY_DL beats on (0 acting as 1), and the sequence number advances by one
modulo 2^32; of an edge in the last beat the deadline counts from that beat with the BODY_DL active there, and a body that is
late by then is released with BODY_EXPIRED. RETIREMENT_RECORD takes the table it names, one of its BUILD_BEAT, out of those
built and not retired, and changes no slot. CLASS_TABLE_ARRIVAL logs an image that fails its checks as TABLE_BAD, holds a good
one that is due, and discards any other; the image is due where it bears the BUILD_BEAT of the last table built, which is the
one due, and no other table not yet retired has that number. BOUNDARY_INDICATION makes an arrived table that is due ready for
the swap edge, and where none arrived counts a miss, retires the table due with no grant consumed and sets STALE. A driver
write of all four COMMIT bytes, claimed and not role-off, of the slot's request sequence number, where the slot is ACCEPTED,
its deadline is not in this TCLK cycle and BODY_LEN (as memory holds it after the write) fits the entry, makes the slot POSTED
in the present beat. A COMMIT that enables some but not all bytes, names another number, finds the slot in another state or
falls in the TCLK cycle of the slot's deadline leaves the slot alone and sets COMMIT_ERR. -/
def Obligations.AdmissionRecordsTablesAndCommits : Prop :=
  (
  (∀ (s : State) (slot : BitVec 12) (tc : BitVec 3) (desc : BitVec 32) (ts : BitVec 64),
    let early := s.inBeat ts = false ∧ 0 < s.beat.idx
    let late := s.beat.idx - 1 + max s.beat.prevDl 1
    ∃ t, exec (.acceptRecord slot tc desc ts) s = .next t ∧
      t.fld ADM_REQ_SEQ_NEXT = (s.fld ADM_REQ_SEQ_NEXT + 1) % 2 ^ 32 ∧
      (¬ early ∨ s.beat.idx < late →
        (t.slot slot.toNat).phase = .accepted ∧ (t.slot slot.toNat).tc = tc.toNat ∧ (t.slot slot.toNat).acceptTs = ts ∧
        (t.slot slot.toNat).reqSeq.toNat = s.fld ADM_REQ_SEQ_NEXT ∧ (t.slot slot.toNat).tag = desc.toNat / 2 ^ 20 ∧
        (t.slot slot.toNat).promptBlk = desc.toNat / 8 % 256) ∧
      (¬ early → (t.slot slot.toNat).deadline = s.beat.idx + max (s.act ADM_CTL_BODY_DL) 1) ∧
      (early → s.beat.idx < late → (t.slot slot.toNat).deadline = late) ∧
      (early → late ≤ s.beat.idx → (t.slot slot.toNat).phase = .free ∧ t.flag ADM_STS_BODY_EXPIRED = true)) ∧
  (∀ (s : State) (beat : BitVec 48) (used : List Nat), ∃ t, exec (.retirementRecord beat used) s = .next t ∧
    (∀ x, s.retired beat.toNat used = some x → x ∈ s.adm.built ∧ x.buildBeat = beat.toNat ∧ t.adm.built = s.adm.built.erase x) ∧
    (s.retired beat.toNat used = none → t.adm.built = s.adm.built) ∧
    ((∀ x ∈ s.adm.built, x.buildBeat ≠ beat.toNat) → t.adm.built = s.adm.built) ∧
    t.adm.active = s.adm.active ∧ t.slots = s.slots) ∧
  (∀ (s : State) (img : List Byte), s.ucieLost = false →
    (imgOk img = false → ∃ e : Event, e.code = 0x0304 ∧ e.block = 4 ∧ e.flags = 2 ∧
      exec (.classTableArrival img) s = .next (s.logEvent e)) ∧
    (∀ i, imgOk img = true → s.dueImage img = some i → s.adm.metDue = false →
      exec (.classTableArrival img) s = .next (s.withAdm { s.adm with arrived := some (imgTable i img) })) ∧
    (imgOk img = true → s.dueImage img = none ∨ s.adm.metDue = true → exec (.classTableArrival img) s = .next s) ∧
    (∀ i b x, s.adm.due = some (i, b) → s.adm.built.getLast? = some x → x.idx = i → x.buildBeat = imgNat img 0x840 8 →
      (∀ y ∈ s.adm.built.dropLast, y.buildBeat ≠ x.buildBeat) → s.dueImage img = some i)) ∧
  (∀ (s : State) (d : Nat × Nat), s.adm.due = some d → s.adm.metDue = false →
    (∀ n : ClsTable, s.adm.arrived = some n → ∃ t, exec .boundaryIndication s = .next t ∧
      t.adm.ready = some n ∧ t.adm.arrived = none ∧ t.adm.missed = 0 ∧ t.adm.swapPend = true ∧ t.adm.active = s.adm.active) ∧
    (s.adm.arrived = none → ∃ t, exec .boundaryIndication s = .next t ∧ t.adm.missed = s.adm.missed + 1 ∧
      t.adm.swapPend = true ∧ t.adm.up = s.adm.up ++ [.retire ⟨d.2, List.replicate 8 0⟩ d.1] ∧ t.flag ADM_STS_STALE = true ∧
      t.adm.active = s.adm.active))) ∧
  (
  ∀ (s : State) (slot : BitVec 12) (be : BitVec 4) (v : BitVec 32) (cid : BitVec 12),
    let a := localPa (s.ringAddr slot.toNat + 0x14)
    let q : Req := ⟨cid.toNat, 4, 0, s.chip, sourceStop 4 0⟩
    (∀ n, s.claimed q a false true = true → s.roleOffAt a = false → (s.slot slot.toNat).phase = .accepted →
      s.commitLate slot.toNat = false →
      v = (s.slot slot.toNat).reqSeq → ((s.writeEnabled q a 15 v).bodyLen slot.toNat).1 = some n → n ≤ s.ringStride - 64 →
      ∃ t, exec (.commit slot 15 v cid) s = .next t ∧ (t.slot slot.toNat).phase = .posted ∧
        (t.slot slot.toNat).postedIdx = s.beat.idx ∧ (t.slot slot.toNat).postedOff = s.beat.tick - s.beat.bk ∧
        (t.slot slot.toNat).reqSeq = v) ∧
    (be ≠ 0 → be ≠ 15 ∨ v ≠ (s.slot slot.toNat).reqSeq ∨ (s.slot slot.toNat).phase ≠ .accepted ∨ s.commitLate slot.toNat = true →
      ∃ t, exec (.commit slot be v cid) s = .next t ∧ t.flag ADM_STS_COMMIT_ERR = true ∧ t.slot slot.toNat = s.slot slot.toNat))

/-- For every watermark but the guard's, WATERMARK_EVALUATION with quantity Q: if LEVEL_ABOVE = 0 and Q > LEVEL it sets
LEVEL_ABOVE and CROSSED_UP and COUNT goes up by one, saturating at 0xFFFF; if LEVEL_ABOVE = 1 and Q ≤ max(LEVEL − HYST, 0) it
clears LEVEL_ABOVE and sets CROSSED_DOWN; else nothing changes. The message (shown for a watermark of the physical function
whose vector can be sent) goes out only where CROSSED_UP was 0 and IRQ_EN is 1. WATERMARK_IRQ_ENABLE sets IRQ_EN and sends the
message where IRQ_EN was 0 and CROSSED_UP is 1. Q is 2.7's queue depth, a WCB's entries, a plat's fill in KiB, the unread events
or a replay buffer's flits. -/
def Obligations.WatermarkRule : Prop :=
  (∀ (s : State) (w : WmId), (∀ c, w ≠ .guard c) →
    let f := wmFlds w
    let q := s.wmQ w
    ∃ t, exec (.watermarkEvaluation w) s = .next t ∧
      (s.flag f.above = false → s.fld f.level < q →
        t.flag f.above = true ∧ t.flag f.up = true ∧ t.fld f.count = min (s.fld f.count + 1) 0xFFFF ∧
        (f.part = none → f.vec < s.early.msixPf → (s.msixOf 0).enabled = true → (s.msixOf 0).masked f.vec = false → 0 ∉ s.pwr.d3 → s.ucieLost = false →
          t.out = s.out ++ (if s.flag f.up = false ∧ s.flag f.irq = true then [(s.msixOf 0).msg 0 f.vec] else []))) ∧
      (s.flag f.above = true → q ≤ s.fld f.level - s.fld f.hyst →
        t.flag f.above = false ∧ t.flag f.down = true ∧ t.fld f.count = s.fld f.count ∧ t.out = s.out) ∧
      ((s.flag f.above = false ∧ q ≤ s.fld f.level) ∨ (s.flag f.above = true ∧ s.fld f.level - s.fld f.hyst < q) → t = s)) ∧
  (∀ (s : State) (w : WmId), let f := wmFlds w
    ∃ t, exec (.watermarkIrqEnable w) s = .next t ∧ t.flag f.irq = true ∧
      (f.part = none → f.vec < s.early.msixPf → (s.msixOf 0).enabled = true → (s.msixOf 0).masked f.vec = false → 0 ∉ s.pwr.d3 → s.ucieLost = false →
        t.out = s.out ++ (if s.flag f.irq = false ∧ s.flag f.up = true then [(s.msixOf 0).msg 0 f.vec] else [])))

/-- For every sample of t ticks and every b from 1 to 64, with e = floor(1200 × 2^(b/4)) (the e with e^4 ≤ 1200^4 × 2^b <
(e+1)^4): the bin of t is b or above exactly where e ≤ t; a bin is at most 64. -/
def Obligations.SampleBins : Prop :=
  ∀ t : Nat, binOf t ≤ 64 ∧
    ∀ b e : Nat, 1 ≤ b → b ≤ 64 → e ^ 4 ≤ 1200 ^ 4 * 2 ^ b → 1200 ^ 4 * 2 ^ b < (e + 1) ^ 4 → (b ≤ binOf t ↔ e ≤ t)

/-- Counting a sample of a class below 8 and a kind below 2: below 2^48 − 1 the sample's bin goes up by one and every other bin
stays; at 2^48 − 1 every bin stays, the bin's SAT bit and TAL_STS.SAT of the class are 1. Either way the guard window gains the
sample at the present count beat. With the clock locked and the next boundary not yet due: after SNAP, in canonical tables,
every bin of a selected class (by this write or one that waits) reads in the snapshot as the live bin did, and every other
class's snapshot as before; live bins change only where a CLEAR waits; SNAP_BUSY reads 0 (where a class was selected) and
TAL_SNAP_TIME holds the timestamp of the edge. After CLEAR the live bins and SAT bits of the selected classes read 0 and the
others as before; the guard windows do not change. WIN_CLEAR marks the classes, and the next boundary's window holds what the
beat that begins has counted and the samples of the last 1024 beats without those classes. -/
def Obligations.TallySamplesAndSnapshots : Prop :=
  (
  ∀ (s : State) (c kind t : Nat), c < 8 → kind < 2 →
    let key := binKey c kind (binOf t)
    let n := Tbl.get (fun _ => 0) s.tal.bins key
    let u := s.countSample c kind t
    u.tal.win = s.tal.win ++ [⟨s.beat.idx, c, kind, binOf t⟩] ∧
    (∀ k, Tbl.get (fun _ => 0) u.tal.bins k = if k = key ∧ n < 2 ^ 48 - 1 then n + 1 else Tbl.get (fun _ => 0) s.tal.bins k) ∧
    (2 ^ 48 - 1 ≤ n → Tbl.get (fun _ => false) u.tal.sat key = true ∧ (u.fld TAL_STS_SAT).testBit c = true)) ∧
  (
  (∀ (s : State) (m : BitVec 8), s.tallyWf = true → s.beat.locked1st = true → (s.running = true → s.beat.tick < s.beat.placed) →
    ∃ t, exec (.snap m) s = .next t ∧ (m ≠ 0 → t.flag TAL_STS_SNAP_BUSY = false) ∧ t.tal.win = s.tal.win ∧
      ∀ c kind b, c < 8 → kind < 2 → b < 65 →
        Tbl.get (fun _ => 0) t.tal.snap (binKey c kind b) =
          (if (m.toNat ||| s.tal.snapPend).testBit c then Tbl.get (fun _ => 0) s.tal.bins (binKey c kind b)
           else Tbl.get (fun _ => 0) s.tal.snap (binKey c kind b)) ∧
        (m.toNat.testBit c = true → t.fld (TAL_SNAP_TIME_TIME c) = (s.beat.ticks 1).ts.toNat) ∧
        Tbl.get (fun _ => 0) t.tal.bins (binKey c kind b) =
          (if s.tal.clearPend.testBit c then 0 else Tbl.get (fun _ => 0) s.tal.bins (binKey c kind b))) ∧
  (∀ (s : State) (m : BitVec 8), s.beat.locked1st = true → (s.running = true → s.beat.tick < s.beat.placed) →
    ∃ t, exec (.clear m) s = .next t ∧ t.tal.win = s.tal.win ∧
      ∀ c kind b, c < 8 → kind < 2 → b < 65 →
        Tbl.get (fun _ => 0) t.tal.bins (binKey c kind b) =
          (if (m.toNat ||| s.tal.clearPend).testBit c then 0 else Tbl.get (fun _ => 0) s.tal.bins (binKey c kind b)) ∧
        (m.toNat.testBit c = true → Tbl.get (fun _ => false) t.tal.sat (binKey c kind b) = false)) ∧
  (∀ (s : State) (m : BitVec 8), ∃ t, exec (.winClear m) s = .next t ∧ t.tal.bins = s.tal.bins ∧
    t.tal.winClear = s.tal.winClear ||| m.toNat ∧
    ∀ e, e ∈ t.windowTurn.tal.win ↔ e ∈ s.tal.win ∧
      (e.idx = s.beat.idx ∨ (s.beat.idx ≤ e.idx + 1024 ∧ (s.tal.winClear ||| m.toNat).testBit e.cls = false))))

/-- The rank rule: over any list of samples of bins 0 to 64 with at least r ≥ 1 of them, the estimate bin is a bin whose
cumulative count is at least r, and every smaller bin's cumulative count is below r. The evaluation of a class at a boundary: EN
= 0 or an invalid estimate opens the guard; otherwise an estimate at or above THR (held to 64) closes it, one below THR − HYST
opens it, and any other leaves it; EST_BIN and VALID show the estimate, of the samples of the beats before. -/
def Obligations.GuardEvaluation : Prop :=
  (∀ (win : List WinEnt) (r : Nat), (∀ e ∈ win, e.bin ≤ 64) → 1 ≤ r → r ≤ win.length →
    let est := rankBin win r 64 0 0
    est ≤ 64 ∧ r ≤ (win.filter (fun e => decide (e.bin ≤ est))).length ∧
      ∀ b < est, (win.filter (fun e => decide (e.bin ≤ b))).length < r) ∧
  (∀ (s : State) (c : Nat), c < 8 →
    let t := s.guardEval c
    let thr := min (s.act (TAL_GUARD_THR c)) 64
    let est := t.fld (TAL_GUARD_EST_EST_BIN c)
    let n := (s.tal.win.filter (fun e => e.idx != s.beat.idx && e.cls == c && e.kind == s.act (TAL_GUARD_KIND c))).length
    (t.flag (TAL_GUARD_EST_VALID c) = decide (max (s.act (TAL_GUARD_MIN_MIN_N c)) 1 ≤ n)) ∧
    (t.flag (TAL_GUARD_EST_VALID c) = false → est = 0) ∧
    ((s.act (TAL_GUARD_EN c) = 0 ∨ t.flag (TAL_GUARD_EST_VALID c) = false) → t.guardClosed c = false) ∧
    (s.act (TAL_GUARD_EN c) ≠ 0 → t.flag (TAL_GUARD_EST_VALID c) = true →
      t.guardClosed c = (if thr ≤ est then true else if est + s.act (TAL_GUARD_HYST c) < thr then false else s.guardClosed c)))

/-- The first PLL_LOCK, with power and THERMTRIP_N not asserted, sets LOCKED. OCLK_TRIM_COMPLETE after it sets OCLK_TRIMMED. After the first lock and outside holdover
REF_EDGE_TIMEOUT declares loss with LOR_CAUSE 0; once trimmed and outside holdover a window of fewer than 6272 or more than 6528
edges declares loss with LOR_CAUSE 1, and a window within those limits changes nothing. Loss sets LOSS_OF_REF and HOLDOVER,
clears LOCKED and RELOCKING, and counts one more in LOR_COUNT, saturating. In holdover the fourth good window in a row (edges
present, 6336 to 6464) clears HOLDOVER and sets RELOCKING; a bad one starts the count again. RELOCK_COMPLETE while RELOCKING
sets LOCKED and clears RELOCKING. With PCLK at its nominal period, STRETCH_EVENT of depth d ≥ 1 (in sixteenths) adds one to the
partition's droop counter modulo 2^32, sets OVF where it wraps, sets ACTIVE, and stretches by d held at 4; MAX_STRETCH is at
least that. While stretched, STRETCH_EVENT and STRETCH_DEPTH_CHANGE set the depth and count nothing. A depth beyond 4 sets
LIMIT. DROOP_RECOVERY returns to the nominal period and clears ACTIVE. DROOP_COUNTER_CLEAR sets the counter to 0 and MAX_STRETCH
to the present depth. -/
def Obligations.ReferenceMonitorAndDroop : Prop :=
  (
  let lost := fun (s t : State) (cause : Nat) => t.flag CLK_REF_STS_LOSS_OF_REF = true ∧ t.flag CLK_REF_STS_HOLDOVER = true ∧
    t.flag CLK_REF_STS_LOCKED = false ∧ t.flag CLK_REF_STS_RELOCKING = false ∧ t.fld CLK_REF_STS_LOR_CAUSE = cause ∧
    t.fld CLK_REF_STS_LOR_COUNT = min (s.fld CLK_REF_STS_LOR_COUNT + 1) 0xFFFF
  (∀ s : State, s.beat.locked1st = false → s.tripped = false →
    ∃ t, exec .pllLock s = .next t ∧ t.flag CLK_REF_STS_LOCKED = true ∧ t.beat.locked1st = true) ∧
  (∀ s : State, s.beat.locked1st = true → ∃ t, exec .oclkTrimComplete s = .next t ∧ t.flag CLK_REF_STS_OCLK_TRIMMED = true) ∧
  (∀ s : State, s.beat.locked1st = true → s.flag CLK_REF_STS_HOLDOVER = false →
    ∃ t, exec .refEdgeTimeout s = .next t ∧ lost s t 0) ∧
  (∀ (s : State) (edges : Nat) (present : Bool), s.flag CLK_REF_STS_OCLK_TRIMMED = true →
    (s.flag CLK_REF_STS_HOLDOVER = false → edges < 6272 ∨ 6528 < edges →
      ∃ t, exec (.refFrequencyWindow edges present) s = .next t ∧ lost s t 1) ∧
    (s.flag CLK_REF_STS_HOLDOVER = false → 6272 ≤ edges → edges ≤ 6528 → exec (.refFrequencyWindow edges present) s = .next s) ∧
    (s.flag CLK_REF_STS_HOLDOVER = true → present = true → 6336 ≤ edges → edges ≤ 6464 → s.beat.goodWin = 3 →
      ∃ t, exec (.refFrequencyWindow edges present) s = .next t ∧ t.flag CLK_REF_STS_HOLDOVER = false ∧
        t.flag CLK_REF_STS_RELOCKING = true ∧ t.beat.goodWin = 0) ∧
    (s.flag CLK_REF_STS_HOLDOVER = true → present = false ∨ edges < 6336 ∨ 6464 < edges →
      exec (.refFrequencyWindow edges present) s = .next (s.withBeat { s.beat with goodWin := 0 }))) ∧
  (∀ s : State, s.flag CLK_REF_STS_RELOCKING = true → ∃ t, exec .relockComplete s = .next t ∧
    t.flag CLK_REF_STS_LOCKED = true ∧ t.flag CLK_REF_STS_RELOCKING = false)) ∧
  (
  ∀ (s : State) (p : Part) (d : Nat), 1 ≤ d →
    (s.depthOf p = 0 → ∃ t, exec (.stretchEvent p d) s = .next t ∧ t.depthOf p = min d 4 ∧
      t.fld (CLK_DROOP_CNT_COUNT p) = (s.fld (CLK_DROOP_CNT_COUNT p) + 1) % 2 ^ 32 ∧
      (t.fld CLK_DROOP_STS_ACTIVE).testBit p = true ∧ (t.fld (CLK_DROOP_CNT_COUNT p) = 0 → (t.fld CLK_DROOP_STS_OVF).testBit p = true) ∧
      t.fld (CLK_PCLK_STS_MAX_STRETCH p) = max (s.fld (CLK_PCLK_STS_MAX_STRETCH p)) (min d 4) ∧
      (4 < d → (t.fld CLK_DROOP_STS_LIMIT).testBit p = true)) ∧
    (s.depthOf p ≠ 0 → ∀ c ∈ [Instr.stretchEvent p d, Instr.stretchDepthChange p d], ∃ t, exec c s = .next t ∧
      t.depthOf p = min d 4 ∧ t.fld (CLK_DROOP_CNT_COUNT p) = s.fld (CLK_DROOP_CNT_COUNT p) ∧
      t.fld (CLK_PCLK_STS_MAX_STRETCH p) = max (s.fld (CLK_PCLK_STS_MAX_STRETCH p)) (min d 4) ∧
      (4 < d → (t.fld CLK_DROOP_STS_LIMIT).testBit p = true)) ∧
    (∃ t, exec (.droopRecovery p) s = .next t ∧ t.depthOf p = 0 ∧ (t.fld CLK_DROOP_STS_ACTIVE).testBit p = false ∧
      t.fld (CLK_DROOP_CNT_COUNT p) = s.fld (CLK_DROOP_CNT_COUNT p)) ∧
    (∃ t, exec (.droopCounterClear p) s = .next t ∧ t.fld (CLK_DROOP_CNT_COUNT p) = 0 ∧
      t.fld (CLK_PCLK_STS_MAX_STRETCH p) = s.depthOf p % 16))

/-- BEAT_BOUNDARY of a running generator, its clock locked and the boundary ahead, falls at its placed tick: the count of
boundaries is one more and LAST_LEN is the beat's length. The generator's part: with no load due or armed BEAT_COUNT is one more
modulo 2^48, with one due it is BEAT_COUNT_PRESET; the active period, window, minimum work and slack are the words of their
registers, as they stood before the first write in the boundary's own TCLK cycle if there was one; unless the sync state is
ACQUIRING the next boundary is placed P ticks on. Before RUN the command changes nothing. -/
def Obligations.BoundaryTurns : Prop :=
  (∀ s : State, s.running = true → s.beat.locked1st = true → s.beat.tick ≤ s.beat.placed →
    ∃ t, exec .beatBoundary s = .next t ∧ t.beat.idx = s.beat.idx + 1 ∧ t.beat.bk = s.beat.placed ∧
      t.fld BEAT_STS_LAST_LEN = (s.beat.placed - s.beat.bk) % 2 ^ 22) ∧
  (∀ s : State, s.running = false → exec .beatBoundary s = .next s) ∧
  (∀ s : State, let t := s.beatTurn
    (s.beat.loadCount = false → s.beat.loadTs = false → t.fld BEAT_COUNT_COUNT = (s.fld BEAT_COUNT_COUNT + 1) % 2 ^ 48) ∧
    (s.beat.loadCount = true → t.fld BEAT_COUNT_COUNT = s.fld BEAT_COUNT_PRESET_COUNT) ∧
    (s.beat.cycle = none → t.act BEAT_PERIOD_TICKS = s.fld BEAT_PERIOD_TICKS ∧ t.act BEAT_SYNC_WIN_TICKS = s.fld BEAT_SYNC_WIN_TICKS ∧
      t.act BEAT_MIN_WORK_TICKS = s.fld BEAT_MIN_WORK_TICKS ∧ t.act BEAT_SLACK_TICKS = s.fld BEAT_SLACK_TICKS) ∧
    (∀ r, s.inCycle = true → s.beat.cycle = some ⟨s.beat.tick, r⟩ → let b : State := { s with regs := r }
      t.act BEAT_PERIOD_TICKS = b.fld BEAT_PERIOD_TICKS ∧ t.act BEAT_SYNC_WIN_TICKS = b.fld BEAT_SYNC_WIN_TICKS ∧
      t.act BEAT_MIN_WORK_TICKS = b.fld BEAT_MIN_WORK_TICKS ∧ t.act BEAT_SLACK_TICKS = b.fld BEAT_SLACK_TICKS) ∧
    t.beat.nom = t.beat.bk + t.beatP ∧ (t.beat.sync ≠ .acquiring → t.beat.placed = t.beat.bk + t.beatP))

/-- SYNC_EDGE at tick t, not past and not beyond the boundary due, with the clock locked and the generator running. TRACKING: in
the open late window of N it places the next boundary at min(t, N + W) + P, held within B + max(P − W, M) to B + P + W; in the
early window of the coming boundary it moves that boundary to t held at B + max(P − W, M); elsewhere it only counts in OUTSIDE.
ACQUIRING: it becomes the latest edge and places the boundary by R76. OFF and FREE: it changes nothing but the time. SYNC_MISS
closes an open window: MISSED goes up by one, saturating, and after LOSS_N in a row SYNC_LOST is set and the state becomes
ACQUIRING with AUTO_REACQ, else FREE. REACQ is remembered only while running with the active MODE 1. TS_LOAD arms a load. -/
def Obligations.SyncEdges : Prop :=
  (∀ (s : State) (t : Nat), s.running = true → s.beat.locked1st = true → s.beat.tick ≤ t → t ≤ s.beat.placed →
    ∃ u, exec (.syncEdge t) s = .next u ∧ u.beat.tick = t ∧
      (s.beat.sync = .tracking → (∀ w, s.beat.late = some w → t ≤ w.close →
        u.beat.placed = max (min (min t (w.nom + s.beatW) + s.beatP) (s.beat.bk + s.beatP + s.beatW)) (s.beat.bk + s.beatMin) ∧
        u.beat.nom = u.beat.placed ∧ u.beat.late = none ∧ u.beat.missRun = 0 ∧
        u.fld BEAT_SYNC_STS_OFFSET = offsetField t w.nom)) ∧
      (s.beat.sync = .tracking → s.beat.late = none → s.beat.hit = false → s.beat.nom ≤ t + s.beatW → t ≤ s.beat.nom →
        u.beat.placed = max t (s.beat.bk + s.beatMin) ∧ u.beat.hit = true ∧ u.beat.missRun = 0 ∧
        u.fld BEAT_SYNC_STS_OFFSET = offsetField t s.beat.nom) ∧
      (s.beat.sync = .tracking → s.beat.late = none → s.beat.hit = true ∨ t + s.beatW < s.beat.nom ∨ s.beat.nom < t →
        u.beat.placed = s.beat.placed ∧ u.fld BEAT_SYNC_CNT_OUTSIDE = min (s.fld BEAT_SYNC_CNT_OUTSIDE + 1) 0xFFFF) ∧
      (s.beat.sync = .acquiring → s.beat.late = none → u.beat.lastEdge = some t ∧
        u.beat.placed = (acqPlace t s.beat.nom s.beatP s.beatW (s.beat.bk + s.beatM)).1) ∧
      (s.beat.sync = .off ∨ s.beat.sync = .free → s.beat.late = none →
        u.beat.placed = s.beat.placed ∧ u.fld BEAT_SYNC_CNT_OUTSIDE = s.fld BEAT_SYNC_CNT_OUTSIDE)) ∧
  (∀ (s : State) (w : LateWin), s.beat.late = some w → ∃ u, exec .syncMiss s = .next u ∧ u.beat.late = none ∧
    u.fld BEAT_SYNC_CNT_MISSED = min (s.fld BEAT_SYNC_CNT_MISSED + 1) 0xFFFF ∧
    (s.beat.missRun + 1 < max (s.fld BEAT_SYNC_LOSS_N_N) 1 → u.beat.missRun = s.beat.missRun + 1 ∧ u.beat.sync = s.beat.sync) ∧
    (max (s.fld BEAT_SYNC_LOSS_N_N) 1 ≤ s.beat.missRun + 1 → u.flag BEAT_SYNC_STS_SYNC_LOST = true ∧
      u.beat.sync = (if s.act BEAT_SYNC_CTL_AUTO_REACQ = 1 then .acquiring else .free))) ∧
  (∀ s : State, ∃ u, exec .reacq s = .next u ∧ u.regs = s.regs ∧
    u.beat = (if s.running = true ∧ s.act BEAT_SYNC_CTL_MODE = 1 then { s.beat with reacq := true } else s.beat)) ∧
  (∀ s : State, ∃ u, exec .tsLoad s = .next u ∧ u.beat.loadTs = true ∧ u.flag BEAT_SYNC_STS_TS_LOAD_PEND = true)

/-- After every turn of the beat generator the next boundary lies no earlier than max(P − W, M) and no later than P + W after
the last one, and so does the nominal time it is placed from; where that holds while the generator runs with its clock locked,
it holds after SYNC_EDGE, SYNC_MISS, REACQ, TS_LOAD and a step with nothing pending as well. That P − W and M bind the two together is how the
model keeps R77 where the window shrinks at the boundary at which ACQUIRING ends (a reading, log entry 60). -/
def Obligations.BeatWithinBounds : Prop :=
  (∀ s : State, s.beatTurn.beatInv) ∧
  (∀ (s : State) (c : Instr), s.beatInv → s.running = true → s.beat.locked1st = true →
    (∃ t, c = .syncEdge t) ∨ c = .syncMiss ∨ c = .reacq ∨ c = .tsLoad →
      ∃ u, exec c s = .next u ∧ u.beatInv) ∧
  (∀ s : State, s.beatInv → s.running = true → s.pending = [] → ∃ t, step s = .next t ∧ t.beatInv)

/-- PUT_HEADER that finds a frame (the lowest free one, counted or reserved for it): a header without error fills it and leaves
every other frame alone; a header with an error leaves the frame free, sets the bit of PLAT_ERR and is remembered, its sender to
be answered when the put's last packet has come. With no frame the header waits and PLAT_HELD_CNT goes up by one. PUT_COMPLETE of
a put discarded before answers its sender, positively for DUP only. PUT_COMPLETE of a filling frame that got all its LEN bytes,
with no put waiting: poisoned, it is discarded for HDR and answered negatively; unpoisoned, with the check failed, it is
discarded for CHECK and answered negatively; with the check passed and DRAIN active it is discarded, counted and acknowledged;
with the check passed, DRAIN not active and no takeover, its frame becomes READY in the present beat with its header (LATE
apart), PLAT_PUTS goes up by one and it is acknowledged. No other frame of the plat changes but in what it knows of its output.
The answers are messages where SRC is on this chip. -/
def Obligations.PutsIntoPlats : Prop :=
  (∀ (s : State) (p : Part) (h : PutHdr) (f : Nat), (s.headerFrame p (putFrame h)).1 = some f →
    ∃ t, exec (.putHeader p h) s = .next t ∧ (∀ g, g ≠ f → t.frame p g = s.frame p g) ∧
      (s.headerErr p (putFrame h) = none → t.frame p f = { Frame.none with st := .filling, hdr := putFrame h }) ∧
      (∀ e, s.headerErr p (putFrame h) = some e → t.frame p f = Frame.none ∧
        (t.plat p).drops = (s.plat p).drops ++ [⟨f, putFrame h, decide (e = .dup)⟩] ∧
        (e = .src → t.flag (PLAT_ERR_SRC p) = true) ∧ (e = .hdr → t.flag (PLAT_ERR_HDR p) = true) ∧
        (e = .dup → t.flag (PLAT_ERR_DUP p) = true))) ∧
  (∀ (s : State) (p : Part) (h : PutHdr), (s.headerFrame p (putFrame h)).1 = none →
    ∃ t, exec (.putHeader p h) s = .next t ∧ (t.plat p).waiting = (s.plat p).waiting ++ [.put (putFrame h)] ∧
      (∀ g, t.frame p g = s.frame p g) ∧ t.fld (PLAT_HELD_CNT_COUNT p) = (s.fld (PLAT_HELD_CNT_COUNT p) + 1) % 2 ^ 32) ∧
  (∀ (s : State) (p : Part) (f : Fin 4096) (a : PutEnd) (d : DropPut), a.dropped = true → (s.plat p).waiting = [] →
    (s.plat p).drops.find? (fun x => x.frame == f.val) = some d →
    ∃ t, exec (.putComplete p f a) s = .next t ∧ (t.plat p).drops = (s.plat p).drops.erase d ∧ (∀ g, t.frame p g = s.frame p g) ∧
      (d.hdr.srcChip.toNat = s.chip → (if d.ack then OutMsg.putAck s.chip d.hdr.srcPart.toNat d.hdr.slot d.hdr.kind
        else .putNack s.chip d.hdr.srcPart.toNat d.hdr.slot d.hdr.kind) ∈ t.out)) ∧
  (∀ (s : State) (p : Part) (f : Fin 4096) (a : PutEnd),
    let x := s.frame p f
    let c := s.chkPut p x.hdr a.payload a.trailer
    let here := x.hdr.srcChip.toNat = s.chip
    let same := fun (t : State) => ∀ g : Nat, g ≠ f.val → { t.frame p g with out := (s.frame p g).out } = s.frame p g
    a.dropped = false → x.st = .filling → a.payload.length = x.hdr.len.toNat → (s.plat p).waiting = [] →
    (a.poison = true → ∃ t, exec (.putComplete p f a) s = .next t ∧ t.frame p f = Frame.none ∧ same t ∧
      t.flag (PLAT_ERR_HDR p) = true ∧ (here → .putNack s.chip x.hdr.srcPart.toNat x.hdr.slot x.hdr.kind ∈ t.out)) ∧
    (a.poison = false → c.1 = false → ∃ t, exec (.putComplete p f a) s = .next t ∧ t.frame p f = Frame.none ∧ same t ∧
      t.flag (PLAT_ERR_CHECK p) = true ∧ (here → .putNack s.chip x.hdr.srcPart.toNat x.hdr.slot x.hdr.kind ∈ t.out)) ∧
    (a.poison = false → c.1 = true → s.act (PCTL_CMD_CMD p) = 1 →
      ∃ t, exec (.putComplete p f a) s = .next t ∧ t.frame p f = Frame.none ∧ same t ∧
        t.fld (PLAT_PUTS_COUNT p) = (s.fld (PLAT_PUTS_COUNT p) + 1) % 2 ^ 32 ∧
        (here → .putAck s.chip x.hdr.srcPart.toNat x.hdr.slot x.hdr.kind ∈ t.out)) ∧
    (a.poison = false → c.1 = true → s.act (PCTL_CMD_CMD p) ≠ 1 → s.forwardsTo p = none →
      ∃ t, exec (.putComplete p f a) s = .next t ∧ (t.frame p f).st = .ready ∧ (t.frame p f).doneIdx = s.beat.idx ∧
        { (t.frame p f).hdr with late := x.hdr.late } = x.hdr ∧ same t ∧
        t.fld (PLAT_PUTS_COUNT p) = (s.fld (PLAT_PUTS_COUNT p) + 1) % 2 ^ 32 ∧
        (here → .putAck s.chip x.hdr.srcPart.toNat x.hdr.slot x.hdr.kind ∈ t.out)))

/-- For a partition without a takeover whose input frame for the slot and kind is found: PUT_ACKNOWLEDGEMENT makes it ACKED;
of the other frames only TAKEN REPLY frames of the slot become ACKED with it, and else they change in nothing but what they know
of their output. NEGATIVE_ACKNOWLEDGEMENT, with no put waiting, makes the input READY and LATE with one more negative
acknowledgement while fewer than three have come in a row, and at the third frees it. Where no frame is the input and the slot
of an INGRESS partition is TAKEN from the ring, the slot returns to POSTED below three. FRAME_TAKE of a running LAYER or EGRESS
stage: of the frames on the ready list that are not RELEASE, in ascending slot order, as many as B + CARRY leaves in this beat
become TAKEN, and their output is owed from then on; every other frame is unchanged, and the beat's count of inputs goes up by
that number. INGRESS_INTAKE of a running INGRESS stage: the frames and posted bodies that R95 keeps become TAKEN. Where the stage
does not run (DRAIN, HALT, RESET or a failure) neither changes anything. RESULT_WRITE of a running EGRESS stage writes the bytes
where host memory takes them (a write it does not take is a result write all the same: log entry 122). A token position that the
slot's request wrote last forms nothing more. Otherwise the stage's record of the slot takes the request, position and time, and
a sample is formed: from the accept timestamp for the first result of the request (kind 0), from the last result's timestamp for
a later one (kind 1), a negative difference counting as 0. With INGRESS on this chip it is counted here; else the record keeps it
for the feedback put of the request, whose header carries it, and no tally changes. -/
def Obligations.StageIntakeAndOutputs : Prop :=
  (
  ∀ (s : State) (p : Part) (slot : BitVec 12) (kind : BitVec 8), s.forwardsTo p = none →
    (∀ i, s.answered p slot kind false = some i →
      (∃ t, exec (.putAcknowledgement p slot kind) s = .next t ∧ (t.frame p i).st = .acked ∧ (t.frame p i).hdr = (s.frame p i).hdr ∧
        (∀ g, (t.frame p g).hdr = (s.frame p g).hdr ∧ (t.frame p g).nacks = (s.frame p g).nacks) ∧
        ∀ g, g ≠ i → (t.frame p g).st = (s.frame p g).st ∨ ((t.frame p g).st = .acked ∧ kind.toNat ≤ 4 ∧
          ∃ e ∈ (s.plat p).frames, e.1 = g ∧ e.2.st = .taken ∧ e.2.hdr.slot = slot ∧ e.2.hdr.kind = 6)) ∧
      ((s.plat p).waiting = [] →
        ((s.frame p i).nacks < 2 → ∃ t, exec (.negativeAcknowledgement p slot kind) s = .next t ∧
          (t.frame p i).st = .ready ∧ (t.frame p i).hdr.late = true ∧ (t.frame p i).nacks = (s.frame p i).nacks + 1 ∧
          (t.frame p i).hdr.slot = (s.frame p i).hdr.slot ∧ ∀ g, g ≠ i → t.frame p g = s.frame p g) ∧
        (2 ≤ (s.frame p i).nacks → ∃ t, exec (.negativeAcknowledgement p slot kind) s = .next t ∧ t.frame p i = Frame.none))) ∧
    (s.answered p slot kind false = none → s.role p = 1 → kind.toNat ≤ 4 → (s.slot slot.toNat).phase = .taken →
      Tbl.get (fun _ => 0) (s.plat p).ringNacks slot.toNat < 2 →
      ∃ t, exec (.negativeAcknowledgement p slot kind) s = .next t ∧ (t.slot slot.toNat).phase = .posted ∧
        (t.slot slot.toNat).reqSeq = (s.slot slot.toNat).reqSeq)) ∧
  (
  (∀ (s : State) (p : Part), s.role p = 2 ∨ s.role p = 3 → s.stageRuns p = true →
    let l := (s.bySlot p (fun x => s.onList x && decide (x.hdr.kind ≠ 4))).take
      (s.batchB p + s.act (PCTL_BATCH_CARRY p) - (s.plat p).tookInputs)
    ∃ t, exec (.frameTake p) s = .next t ∧ (∀ f ∈ l, { t.frame p f with out := (s.frame p f).out } = { s.frame p f with st := .taken } ∧
        (t.frame p f).out = (if hasDue (s.frame p f).hdr then (s.frame p f).out.start s.beat.idx else (s.frame p f).out)) ∧
      (∀ f, f ∉ l → t.frame p f = s.frame p f) ∧ (t.plat p).tookInputs = (s.plat p).tookInputs + l.length) ∧
  (∀ (s : State) (p : Part), s.role p = 1 → s.stageRuns p = true →
    let fr := (s.bySlot p (fun x => s.onList x && (decide (x.hdr.kind = 2) || decide (x.hdr.kind = 3)))).take
      (s.batchB p + s.act (PCTL_BATCH_CARRY p) - (s.plat p).tookInputs)
    let bo := (s.bodies p).take (s.batchB p - ((s.plat p).tookInputs + fr.length))
    let keep := s.keepPasses p (fr.map InSrc.frame ++ bo.map InSrc.body)
      (max (s.act (PCTL_PASS_PASS_SLOTS p)) 1 - (s.plat p).tookPasses)
    ∃ t, exec (.ingressIntake p) s = .next t ∧ (∀ f, InSrc.frame f ∈ keep → (t.frame p f).st = .taken) ∧
      (∀ k, InSrc.body k ∈ keep → (t.slot k).phase = .taken) ∧ (t.plat p).tookInputs = (s.plat p).tookInputs + keep.length) ∧
  (∀ (s : State) (p : Part), s.stageRuns p = false →
    exec (.frameTake p) s = .next s ∧ exec (.ingressIntake p) s = .next s)) ∧
  (
  (∀ (s : State) (p : Part) (a : ResultArgs), s.role p = 3 → s.stageRuns p = true →
    let k := s.egrKey p a.slot
    let e := s.egrOf k
    let same := e.wrote && decide (e.reqSeq = a.reqSeq)
    let kind := if same then 1 else 0
    let ticks := (s.beat.ts - (if same then e.lastTs else a.acceptTs)).toInt.toNat
    let home := s.fld (PCTL_NEXT_CHIP p) = 63 ∨ s.fld (PCTL_NEXT_CHIP p) = s.chip
    let w : State := if s.hostFails a.addr.toNat a.data.length then s else { s with hostMem := Mem.write s.hostMem a.addr.toNat a.data }
    (same = true → e.lastPos = a.pos.toNat → exec (.resultWrite p a) s = .next w) ∧
    (same = false ∨ e.lastPos ≠ a.pos.toNat → home → exec (.resultWrite p a) s =
      .next ((w.setEgr k ⟨a.reqSeq, true, a.pos.toNat, s.beat.ts, none⟩).countSample a.tc.toNat kind ticks)) ∧
    (same = false ∨ e.lastPos ≠ a.pos.toNat → ¬ home → exec (.resultWrite p a) s =
      .next (w.setEgr k ⟨a.reqSeq, true, a.pos.toNat, s.beat.ts, some (same, ticks)⟩))) ∧
  (∀ (s : State) (p : Nat) (h : FrameHdr) (x : Bool × Nat), s.putRole p = 3 → 2 ≤ h.kind.toNat → h.kind.toNat ≤ 4 →
    (s.egrOf (s.egrKey p h.slot)).sample = some x → (s.egrOf (s.egrKey p h.slot)).reqSeq = h.reqSeq →
    s.withSample p h = { h with sampleValid := true, sampleKind := x.1, sample := BitVec.ofNat 64 x.2 }))

/-- FO_CMD with a spare that can take the stage marks the takeover triggered with that spare; with none it logs FO_IGNORED and
no takeover changes. At the boundary a triggered takeover sets FO_BUSY and FAILED and makes ROLE_ACTIVE FAILED.
FAILOVER_COPY_COMPLETE of a copy in progress into a spare that has not failed, whose list is readable and whose regions and
frames copy: the takeover is copied, with the page table root of the list; where a region cannot be copied the spare is FAILED.
DECLARE sets FAILED, FATAL and
ALERT_PEND and clears RUNNING, and at the first fault CAUSE is DECLARED (3) and CLUSTER 31. -/
def Obligations.FailoverSteps : Prop :=
  (∀ (s : State) (p : Part),
    (s.spareOk p = true → ∃ t, exec (.foCmd p) s = .next t ∧ t.foOf p = ⟨.triggered, s.fld (PCTL_FO_SPARE p), 0⟩) ∧
    (s.spareOk p = false → ∃ e : Event, e.code = 0x0906 ∧ e.block = 0x10 + p.val ∧ exec (.foCmd p) s = .next (s.logEvent e))) ∧
  (∀ (s : State) (p : Part), (s.foOf p).phase = .triggered → let t := s.foTurn p
    (t.foOf p).phase = .copying ∧ t.flag (PCTL_FO_FO_BUSY p) = true ∧ t.flag (PCTL_STS_FAILED p) = true ∧
      t.fld (PCTL_ROLE_ROLE_ACTIVE p) = 6) ∧
  (∀ (s : State) (p : Part) (cnt root : Nat),
    let a := s.fld (PCTL_FO_LIST_ADDR p) * 64
    let sp := (s.foOf p).spare
    let r1 := s.listWord a 4
    let r2 := r1.2.listWord (a + 8) 8
    let c := r2.2.copyList p sp a (min cnt 1024) 0
    (s.foOf p).phase = .copying → s.awake sp = true → s.flag (PCTL_STS_FAILED sp) = false → r1.1 = some cnt → r2.1 = some root →
    (c.1 = true → (c.2.copyFrames p sp).flag (PCTL_STS_FAILED sp) = false →
      ∃ t, exec (.failoverCopyComplete p) s = .next t ∧ t.foOf p = ⟨.copied, sp, root⟩) ∧
    (c.1 = false →
      ∃ t, exec (.failoverCopyComplete p) s = .next t ∧ t.flag (PCTL_STS_FAILED sp) = true)) ∧
  (∀ (s : State) (p : Part), ∃ t, exec (.declare p) s = .next t ∧ t.flag (PCTL_STS_FAILED p) = true ∧
    t.flag (PCTL_FAULT_FATAL p) = true ∧ t.flag (PCTL_FAULT_ALERT_PEND p) = true ∧ t.flag (PCTL_STS_RUNNING p) = false ∧
    (s.flag (PCTL_FAULT_FATAL p) = false → t.fld (PCTL_FAULT_CAUSE p) = 3 ∧ t.fld (PCTL_FAULT_CLUSTER p) = 31))

/-- ADIT_ENQ, performed after the exit of the partition it wakes, joins the queue the address with bits [5:0] clear, unless 64 are
held: then it is dropped with ENQ_DROP.
ADIT_DESCRIPTOR_START of an idle engine of a running partition takes the front of the queue: a fetch fault sets DESC_FAULT,
counts the descriptor and leaves the engine idle; one that R193 rejects ends with BAD_DESC (4); one of no rows ends with 0.
ADIT_STREAM_BLOCK of a running descriptor whose pages and weights can be read moves to the end of the 2 MiB block (or of the
weights), has written only rows whose weights end there, and all of them unless a row's outputs cannot be written, which ends the
descriptor with a code; it ends where the weights do. Where pages or weights cannot be read, the descriptor
ends with the failure's code. ADIT_COMPLETION of an ended descriptor counts it and frees the engine. ADIT_ABORT leaves engine
and queue empty. While the partition is FAILED the last three change nothing of the engine. -/
def Obligations.AditDescriptors : Prop :=
  (∀ (s : State) (p : Part) (va : BitVec 56), let w := s.wakeNow p
    ((w.aditOf p).held < 64 → ∃ t, exec (.aditEnq p va) s = .next t ∧ (t.aditOf p).queue = (w.aditOf p).queue ++ [va.toNat / 64 * 64] ∧
      (t.aditOf p).run = (w.aditOf p).run) ∧
    (64 ≤ (w.aditOf p).held → ∃ t, exec (.aditEnq p va) s = .next t ∧ t.aditOf p = w.aditOf p ∧ t.flag (ADIT_STS_ENQ_DROP p) = true)) ∧
  (∀ (s : State) (p : Part) (va : Nat) (rest : List Nat), s.aditOf p = ⟨va :: rest, none⟩ → s.flag (PCTL_STS_FAILED p) = false →
    s.awake p = true → let f := (s.setAdit p ⟨rest, none⟩).aditFetch p va
    ∃ t, exec (.aditDescriptorStart p) s = .next t ∧ (t.aditOf p).queue = rest ∧
      (f.1 = none → (t.aditOf p).run = none ∧ t.flag (ADIT_STS_DESC_FAULT p) = true ∧
        t.fld (ADIT_DONE_CNT_COUNT p) = (s.fld (ADIT_DONE_CNT_COUNT p) + 1) % 2 ^ 32) ∧
      (∀ r last, f.1 = some (r, last) →
        (r.ok last s.vlen = false → (t.aditOf p).run = some (r.stop 4 0)) ∧
        (r.ok last s.vlen = true → r.rows = 0 → (t.aditOf p).run = some (r.stop 0 0)) ∧
        (r.ok last s.vlen = true → r.rows ≠ 0 → ∃ r', (t.aditOf p).run = some r' ∧ r'.ctrl = r.ctrl ∧ r'.rows = r.rows ∧
          r'.nextVa = r.nextVa ∧ (r'.finished = false → r'.inputs.length = r.nvecs)))) ∧
  (∀ (s : State) (p : Part) (r : AditRun), (s.aditOf p).run = some r → r.finished = false → s.flag (PCTL_STS_FAILED p) = false →
    let hi := min r.wEnd ((r.nextVa / 2 ^ 21 + 1) * 2 ^ 21)
    let m := s.engMap (s.aditEng p) .read (pageFuel (hi - r.nextVa)) r.nextVa (hi - r.nextVa) []
    let g := m.2.2.aditGranules p r (m.2.1.flatMap EngPiece.granules)
    ∃ t r', exec (.aditStreamBlock p) s = .next t ∧ (t.aditOf p).run = some r' ∧
      (m.1 = none → g.1 = none → r'.nextVa = hi ∧ (r.wEnd ≤ hi → r'.finished = true) ∧
        (r'.finished = true → r.wEnd ≤ hi ∨ r.outKind ≠ 1 ∧ r'.code ≠ 0) ∧ r.rowsOut ≤ r'.rowsOut ∧
        (r.rowsOut ≤ r.rows → (∀ i, r.rowsOut ≤ i → i < r'.rowsOut → r.wBase + i * r.wStride + r.rowBytes ≤ hi) ∧
          (r'.rowsOut = r.rows ∨ hi < r.wBase + r'.rowsOut * r.wStride + r.rowBytes ∨
            r.outKind ≠ 1 ∧ r'.finished = true ∧ r'.code ≠ 0))) ∧
      (∀ e, m.1 = some e → r' = r.stop e.code e.va) ∧
      (∀ e, m.1 = none → g.1 = some e → r' = r.stop e.code e.va)) ∧
  (∀ (s : State) (p : Part) (r : AditRun), (s.aditOf p).run = some r → r.finished = true → s.flag (PCTL_STS_FAILED p) = false →
    ∃ t, exec (.aditCompletion p) s = .next t ∧ t.aditOf p = ⟨(s.aditOf p).queue, none⟩ ∧
      t.fld (ADIT_DONE_CNT_COUNT p) = (s.fld (ADIT_DONE_CNT_COUNT p) + 1) % 2 ^ 32) ∧
  (∀ (s : State) (p : Part), (s.wakeNow p).flag (PCTL_STS_FAILED p) = false →
    ∃ t, exec (.aditAbort p) s = .next t ∧ t.aditOf p = ⟨[], none⟩) ∧
  (∀ (s : State) (p : Part), s.flag (PCTL_STS_FAILED p) = true →
    exec (.aditStreamBlock p) s = .next s ∧ exec (.aditCompletion p) s = .next s ∧
      ((s.wakeNow p).flag (PCTL_STS_FAILED p) = true → exec (.aditAbort p) s = .next (s.wakeNow p)))

/-- For a request of one granule to a stack whose partition is not OFF: claimed for reading and without error, STACK_READ
completes with, per byte, the newest write-combining entry that covers it or else the DRAM, and BULK_READ with the DRAM alone;
memory does not change, and with no traffic counter enabled the completion is all that is sent. Without the claim a read or a write completes with an abort, changes no byte of memory and no write-
combining entry, sets CLM_STS.DENY, and CLM_DENY_ADDR and CLM_DENY_INFO name the address, CID and direction. -/
def Obligations.StackReadsAndDenials : Prop :=
  ∀ (s : State) (q : ReqArgs) (pa : BitVec 46) (k : Nat), s.loc pa.toNat = .stack k → s.role k ≠ 0 →
    (∀ n, oneGranule pa.toNat n → s.claimed (reqOf q) pa.toNat true false = true → s.goodGranule pa.toNat →
      (∃ t, let r : OutMsg := .completion (.ok ((List.range n).map (fun i => s.stackByte (pa.toNat + i))))
        exec (.stackRead q pa n) s = .next t ∧ t.mem.bytes = s.mem.bytes ∧ t.mem.wcb = s.mem.wcb ∧ r ∈ t.out ∧
          (s.pmuOff = true → t.out = s.out ++ [r])) ∧
      (∃ t, let r : OutMsg := .completion (.ok ((List.range n).map (fun i => Mem.byte s.mem.bytes (pa.toNat + i))))
        exec (.bulkRead q pa n) s = .next t ∧ t.mem.bytes = s.mem.bytes ∧ t.mem.wcb = s.mem.wcb ∧ r ∈ t.out ∧
          (s.pmuOff = true → t.out = s.out ++ [r]))) ∧
    (∀ d : List Byte, oneGranule pa.toNat d.length →
      ∀ e ∈ [(Instr.stackRead q pa d.length, false), (Instr.bulkRead q pa d.length, false), (Instr.stackWrite q pa d, true)],
        s.claimed (reqOf q) pa.toNat (!e.2) e.2 = false →
        ∃ t, exec e.1 s = .next t ∧ t.mem.bytes = s.mem.bytes ∧ t.mem.wcb = s.mem.wcb ∧ .completion .abort ∈ t.out ∧
          t.flag CLM_STS_DENY = true ∧ t.fld CLM_DENY_ADDR_PA = pa.toNat ∧ t.fld CLM_DENY_INFO_CID = q.cid.toNat ∧
          t.flag CLM_DENY_INFO_WRITE = e.2)

/-- STACK_WRITE of one granule, claimed, to a stack whose partition is not OFF, where the buffer accepts it (its line is held by
an entry that does not drain, or fewer than 64 entries are in use, and no earlier write waits) and no entry of the line drains:
the command completes with an acknowledgement, which is all that is sent where no traffic counter is enabled; afterwards each
written byte reads as written, every byte of memory outside them reads as before, and the DRAM itself is unchanged. -/
def Obligations.WriteThenRead : Prop :=
  ∀ (s : State) (q : ReqArgs) (pa : BitVec 46) (d : List Byte) (k : Nat), s.loc pa.toNat = .stack k → s.role k ≠ 0 →
    oneGranule pa.toNat d.length → s.claimed (reqOf q) pa.toNat false true = true →
    let g := s.mem.wcbOf (wcbKey k (groupOf pa.toNat))
    g.accepts ⟨pa.toNat, d, 0⟩ = true → (∀ e ∈ g.entries, e.line = pa.toNat / 128 → e.draining = none) →
      ∃ t, exec (.stackWrite q pa d) s = .next t ∧ .completion (.ok []) ∈ t.out ∧
        (s.pmuOff = true → t.out = s.out ++ [.completion (.ok [])]) ∧ t.mem.bytes = s.mem.bytes ∧
        (∀ i, i < d.length → t.stackByte (pa.toNat + i) = d.getD i 0) ∧
        (∀ a, a < pa.toNat ∨ pa.toNat + d.length ≤ a → t.stackByte a = s.stackByte a)

/-- WCB_AGE_EXPIRY starts the drain of the oldest entry that does not drain and of every entry as old. DRAIN_REQUEST starts the
drain of every entry of the group, and answers at once where the group is empty. WCB_DRAIN starts the drain of every entry of
the partition's four groups and sets DRAIN_BUSY until they are freed; where they are empty, and no earlier DRAIN is in progress, it
is done at once. WCB_ENTRY_FREED, with no write waiting, takes the oldest
draining entry out of the buffer: every byte the entry covers is then in the DRAM and every other byte of memory is as before.
SCRUB_READ of a stack with scrub enabled and not in self-refresh, or of a DDR5 channel that serves, corrects a correctable error of
the granule it reads and marks an uncorrectable one poisoned. REFRESH doubles the rate where a sensor has read 85 °C or more since
the last one or reads it now, else returns it when all read 82 °C or less, and else keeps it. SELF_REFRESH_ENTRY of a partition in
A3 with no write-combining entry in use enters; SELF_REFRESH_EXIT of a partition that is not OFF leaves. FAR_REQUEST of one granule,
claimed and without error, reads or writes the bytes: in DDR5 it completes; in CXL memory with the link up it is then outstanding at
the device, with no completion yet; with the link down a CXL access completes poisoned and changes no byte. CXL_DOWN ends every
outstanding CXL access with an uncorrectable error; CXL_DOWN and CXL_UP show the link in FAR_STS. -/
def Obligations.ControllerUpkeep : Prop :=
  (
  (∀ (s : State) (k : Part) (g : Fin 4) (e : WcbEntry), oldestLive (s.mem.wcbOf (wcbKey k g)).entries = some e →
    ∃ t, exec (.wcbAgeExpiry k g) s = .next t ∧ t.mem.bytes = s.mem.bytes ∧
      (t.mem.wcbOf (wcbKey k g)).entries.length = (s.mem.wcbOf (wcbKey k g)).entries.length ∧
      ∀ x ∈ (t.mem.wcbOf (wcbKey k g)).entries, x.alloc ≤ e.alloc → x.draining ≠ none) ∧
  (∀ (s : State) (k : Part) (g : Fin 4), ∃ t, exec (.drainRequest k g) s = .next t ∧ t.mem.bytes = s.mem.bytes ∧
    (∀ x ∈ (t.mem.wcbOf (wcbKey k g)).entries, x.draining ≠ none) ∧
    ((s.mem.wcbOf (wcbKey k g)).entries = [] → .drained k g ∈ t.out)) ∧
  (∀ (s : State) (p : Part), ∃ t, exec (.wcbDrain p) s = .next t ∧ t.mem.bytes = s.mem.bytes ∧
    (∀ k ∈ partGroups p, ∀ x ∈ (t.mem.wcbOf k).entries, x.draining ≠ none) ∧
    ((∃ k ∈ partGroups p, (s.mem.wcbOf k).entries ≠ []) → t.flag (WCB_STS_DRAIN_BUSY p) = true) ∧
    ((∀ k ∈ partGroups p, (s.mem.wcbOf k).entries = []) → (∀ r ∈ s.mem.drains, r.src ≠ .ctl p) →
      t.flag (WCB_STS_DRAIN_DONE p) = true ∧ t.flag (WCB_STS_DRAIN_BUSY p) = false)) ∧
  (∀ (s : State) (k : Part) (g : Fin 4) (e : WcbEntry) (rest : List WcbEntry),
    takeDraining (s.mem.wcbOf (wcbKey k g)).entries = some (e, rest) → (s.mem.wcbOf (wcbKey k g)).stalled = [] →
    Tbl.wf (fun _ => (none : Option Byte)) e.bytes = true →
    ∃ t, exec (.wcbEntryFreed k g) s = .next t ∧ (t.mem.wcbOf (wcbKey k g)).entries = rest ∧
      ∀ a, Mem.byte t.mem.bytes a = (if a / 128 = e.line then (e.at_ (a % 128)).getD (Mem.byte s.mem.bytes a) else Mem.byte s.mem.bytes a))) ∧
  (
  (∀ (s : State) (k : Part) (g : Fin 4), s.flag (STK_CTL_SCRUB_EN k) = true → s.flag (STK_STS_SELF_REFRESH k) = false →
    let a := nextShare g (k.val * 0x000800000000 + Tbl.get (fun _ => 0) s.mem.scrub (wcbKey k g)) 512
    ∃ t, exec (.scrubRead (.stack k) g) s = .next t ∧ t.mem.bytes = s.mem.bytes ∧
      (s.mem.poisoned (a / 64) = true ∨ s.mem.err (a / 64) = .ue → t.mem.poisoned (a / 64) = true) ∧
      (s.mem.poisoned (a / 64) = false → s.mem.err (a / 64) = .ce → t.mem.err (a / 64) = .none ∧ t.mem.poisoned (a / 64) = false)) ∧
  (∀ (s : State) (ch : Fin 4), let o := s.ddrShare ch (max (Tbl.get (fun _ => 0) s.mem.scrub (32 + ch.val)) (s.ddrFirst ch)) 8
    let a := 0x010000000000 + o
    (s.fld FAR_STS_UPS).testBit ch = true → o < (s.fld FAR_DDR_CFG_CH0_GIB + s.fld FAR_DDR_CFG_CH1_GIB) * 2 ^ 30 → s.ddrChannel o = ch →
    ∃ t, exec (.scrubRead .ddr ch) s = .next t ∧ t.mem.bytes = s.mem.bytes ∧
      (s.mem.poisoned (a / 64) = true ∨ s.mem.err (a / 64) = .ue → t.mem.poisoned (a / 64) = true) ∧
      (s.mem.poisoned (a / 64) = false → s.mem.err (a / 64) = .ce → t.mem.err (a / 64) = .none ∧ t.mem.poisoned (a / 64) = false)) ∧
  (∀ (s : State) (k : Part), ∃ t, exec (.refresh k) s = .next t ∧
    t.flag (STK_STS_REFRESH_2X k) = (if s.mem.hot.contains k.val || (s.stackTemps k).any (fun x => decide (85 ≤ x)) then true
      else if (s.stackTemps k).all (fun x => decide (x ≤ 82)) then false else s.flag (STK_STS_REFRESH_2X k))) ∧
  (∀ (s : State) (k : Part), s.fld (PWR_PSTATE_STATE k) = 3 → s.wcbUsed k = false →
    ∃ t, exec (.selfRefreshEntry k) s = .next t ∧ t.flag (STK_STS_SELF_REFRESH k) = true) ∧
  (∀ (s : State) (k : Part), s.role k ≠ 0 → ∃ t, exec (.selfRefreshExit k) s = .next t ∧ t.flag (STK_STS_SELF_REFRESH k) = false) ∧
  (∀ (s : State) (q : ReqArgs) (pa : BitVec 46) (ch : Nat), s.loc pa.toNat = .ddr ch → s.goodGranule pa.toNat →
    (∀ n, oneGranule pa.toNat n → s.claimed (reqOf q) pa.toNat true false = true →
      ∃ t, exec (.farRequest q pa (.read n)) s = .next t ∧ t.mem.bytes = s.mem.bytes ∧
        .completion (.ok (Mem.read s.mem.bytes pa.toNat n)) ∈ t.out) ∧
    (∀ d : List Byte, oneGranule pa.toNat d.length → s.claimed (reqOf q) pa.toNat false true = true →
      ∃ t, exec (.farRequest q pa (.write d)) s = .next t ∧ t.mem.bytes = Mem.write s.mem.bytes pa.toNat d ∧
        .completion (.ok []) ∈ t.out)) ∧
  (∀ (s : State) (q : ReqArgs) (pa : BitVec 46) (dev : Nat), s.loc pa.toNat = .cxl dev → s.goodGranule pa.toNat →
    let up := (s.fld FAR_STS_UPS).testBit 2
    (∀ n, oneGranule pa.toNat n → s.claimed (reqOf q) pa.toNat true false = true →
      ∃ t, exec (.farRequest q pa (.read n)) s = .next t ∧ t.mem.bytes = s.mem.bytes ∧
        (up = true → t.mem.cxlOut = s.mem.cxlOut ++
          [⟨pa.toNat, q.cid.toNat, q.source.toNat, .ok (Mem.read s.mem.bytes pa.toNat n), none⟩] ∧ (s.pmuOff = true → t.out = s.out)) ∧
        (up = false → .completion .poisoned ∈ t.out)) ∧
    (∀ d : List Byte, oneGranule pa.toNat d.length → s.claimed (reqOf q) pa.toNat false true = true →
      ∃ t, exec (.farRequest q pa (.write d)) s = .next t ∧
        (up = true → t.mem.bytes = Mem.write s.mem.bytes pa.toNat d ∧ t.mem.cxlOut = s.mem.cxlOut ++
          [⟨pa.toNat, q.cid.toNat, q.source.toNat, .ok [], some (Mem.read s.mem.bytes pa.toNat d.length)⟩] ∧
          (s.pmuOff = true → t.out = s.out)) ∧
        (up = false → t.mem.bytes = s.mem.bytes ∧ .completion .poisoned ∈ t.out))) ∧
  (∀ s : State, ∃ t, exec .cxlDown s = .next t ∧ (t.fld FAR_STS_UPS).testBit 2 = false ∧ t.fld FAR_STS_CXL_LANES = 0 ∧
    t.fld FAR_STS_CXL_SPEED = 0 ∧ t.mem.cxlOut = [] ∧ (s.mem.cxlOut ≠ [] → .completion .poisoned ∈ t.out)) ∧
  (∀ (s : State) (lanes : BitVec 5) (speed : BitVec 2), ∃ t, exec (.cxlUp lanes speed) s = .next t ∧
    (t.fld FAR_STS_UPS).testBit 2 = true ∧ t.fld FAR_STS_CXL_LANES = lanes.toNat ∧ t.fld FAR_STS_CXL_SPEED = speed.toNat))

/-- With the L2 enabled, and for a data request the cluster's L1D, OWNERSHIP_REQUEST and L1_FILL_REQUEST join their bank's waiting
requests once; else they change nothing. BANK_GRANT with no full invalidate running
takes the request of the first cluster at or after the bank's pointer, and the pointer moves past it; a data request for a line that
the L2 holds and the L1D does not brings the line into the L1D, in M for ownership. While the L2 and the cluster's L1D are enabled,
RECALL that invalidates,
and VICTIM_WRITEBACK, take the line out of the cluster's L1D; modified data is then the L2 line's data, which is dirty; RECALL
that does not invalidate leaves the copy, if any, in S. With either disabled both change nothing. Each register write below finds its
partition in A0 or wakes it and is performed after the exit. A slot that is not BUSY: CLEAN, CLEAN_INV and INV of LEN 0 show DONE at
once; of any other LEN they set BUSY, clear DONE and record the operation. A BUSY slot refuses them with BUSY_WRITE.
MAINTENANCE_DONE ends a running operation: BUSY 0, DONE 1, and FAULT 1 exactly where a page could not be translated. FLUSH_ALL
and INV_ALL set ALL_BUSY and run, unless one runs already; FULL_INVALIDATE_DONE then leaves no line in the L2 or in any L1 of
the partition, ALL_BUSY 0, ALL_DONE 1 and STALE_RISK 0. L1D_INV_ALL leaves no line in the cluster's L1D and STALE_RISK 0.
L1D_ENABLE_WRITE and L2_ENABLE_WRITE of 0 to an enabled cache disable it; of 1 to a disabled cache with no full invalidate
running enable it, and STALE_RISK is then set where no invalidation has emptied it since it was disabled; with a full invalidate
running the enable waits for it, and a write of 0 withdraws it. L2_WAYOFF_WRITE while a change is in progress is refused with BUSY_WRITE; of more than 12 ways
it is rejected with WAYOFF_REJ; else MASK takes it and the change begins. WAYOFF_DONE then shows OFF = MASK and DONE, and no
line is held in a way that is off. -/
def Obligations.CacheTraffic : Prop :=
  (
  (∀ (s : State) (h : Hart) (pa : BitVec 46) (i : Bool),
    ∀ e ∈ [(Instr.ownershipRequest h pa, true, false), (Instr.l1FillRequest h pa i, false, i)],
      let r : L2Req := ⟨h.clu, pa.toNat / 128, e.2.1, e.2.2⟩
      (s.l2On h.part = true → e.2.2 = true ∨ s.l1dOn h.part h.clu = true → ∃ t, exec e.1 s = .next t ∧
        (t.l2Of h.part).reqs = (if (s.l2Of h.part).reqs.contains r then (s.l2Of h.part).reqs else (s.l2Of h.part).reqs ++ [r])) ∧
      (s.l2On h.part = false ∨ (e.2.2 = false ∧ s.l1dOn h.part h.clu = false) → exec e.1 s = .next s)) ∧
  (∀ (s : State) (p : Part) (bank : Fin 16) (r : L2Req), (s.l2Of p).full = none →
    pickReq ((s.l2Of p).reqs.filter (fun x => bankOf x.line == bank.val)) (Tbl.get (fun _ => 0) (s.l2Of p).rr bank) = some r →
    ∃ t, exec (.bankGrant p bank) s = .next t ∧ (t.l2Of p).reqs = (s.l2Of p).reqs.filter (fun x => decide (x ≠ r)) ∧
      Tbl.get (fun _ => 0) (t.l2Of p).rr bank = (r.clu + 1) % 20 ∧
      (r.instr = false → (s.l2Of p).find r.line ≠ none → l1Find (s.clu p r.clu).l1d r.line = none →
        ∃ x, l1Find (t.clu p r.clu).l1d r.line = some x ∧ (r.own = true → x.st = .m))) ∧
  (∀ (s : State) (h : Hart) (pa : BitVec 46), s.coherent h.part h.clu = false →
    ∀ c ∈ [Instr.recall h pa true, Instr.recall h pa false, Instr.victimWriteback h pa], exec c s = .next s) ∧
  (∀ (s : State) (h : Hart) (pa : BitVec 46), s.coherent h.part h.clu = true →
    ∀ c ∈ [Instr.recall h pa true, Instr.victimWriteback h pa],
    ∃ t, exec c s = .next t ∧ l1Find (t.own h).l1d (pa.toNat / 128) = none ∧
      ∀ x y, l1Find (s.own h).l1d (pa.toNat / 128) = some x → x.st = .m → (s.l2Of h.part).find (pa.toNat / 128) = some y →
        ∃ z, (t.l2Of h.part).find (pa.toNat / 128) = some z ∧ z.dirty = true ∧ z.data = x.data) ∧
  (∀ (s : State) (h : Hart) (pa : BitVec 46), s.coherent h.part h.clu = true → ∃ t, exec (.recall h pa false) s = .next t ∧
    ∀ x, l1Find (t.own h).l1d (pa.toNat / 128) = some x → x.st = .s)) ∧
  (
  (∀ (s : State) (p : Part) (c : Clu), ∀ e ∈ [(Instr.clean p c, 0), (Instr.cleanInv p c, 1), (Instr.inv p c, 2)],
    let w := s.wakeNow p
    (w.flag (L2_MAINT_STS_BUSY p c) = true → ∃ v : Event, v.code = 0x0002 ∧ exec e.1 s = .next (w.logEvent v)) ∧
    (w.flag (L2_MAINT_STS_BUSY p c) = false → w.fld (L2_MAINT_LEN_LEN p c) = 0 →
      ∃ t, exec e.1 s = .next t ∧ t.flag (L2_MAINT_STS_DONE p c) = true ∧ t.flag (L2_MAINT_STS_BUSY p c) = false) ∧
    (w.flag (L2_MAINT_STS_BUSY p c) = false → w.fld (L2_MAINT_LEN_LEN p c) ≠ 0 →
      ∃ t m, exec e.1 s = .next t ∧ t.flag (L2_MAINT_STS_BUSY p c) = true ∧ t.flag (L2_MAINT_STS_DONE p c) = false ∧
        Tbl.get (fun _ => (none : Option MaintSt)) (t.l2Of p).slots c = some m ∧ m.op = e.2)) ∧
  (∀ (s : State) (p : Part) (c : Clu) (m : MaintSt), Tbl.get (fun _ => (none : Option MaintSt)) (s.l2Of p).slots c = some m →
    ∃ t, exec (.maintenanceDone p c) s = .next t ∧ t.flag (L2_MAINT_STS_BUSY p c) = false ∧ t.flag (L2_MAINT_STS_DONE p c) = true ∧
      (m.fault ≠ none → t.flag (L2_MAINT_STS_FAULT p c) = true) ∧
      (m.fault = none → t.flag (L2_MAINT_STS_FAULT p c) = s.flag (L2_MAINT_STS_FAULT p c)) ∧
      Tbl.get (fun _ => (none : Option MaintSt)) (t.l2Of p).slots c = none) ∧
  (∀ (s : State) (p : Part), ∀ e ∈ [(Instr.flushAll p, true), (Instr.invAll p, false)], let w := s.wakeNow p
    ((w.l2Of p).full = none → ∃ t, exec e.1 s = .next t ∧ (t.l2Of p).full = some e.2 ∧ t.flag (L2_STS_ALL_BUSY p) = true) ∧
    ((w.l2Of p).full ≠ none → exec e.1 s = .next w)) ∧
  (∀ (s : State) (p : Part), (s.l2Of p).full ≠ none → ∃ t, exec (.fullInvalidateDone p) s = .next t ∧
    (t.l2Of p).lines = [] ∧ (t.l2Of p).full = none ∧ (∀ c : Clu, (t.clu p c).l1d = [] ∧ (t.clu p c).l1i = []) ∧
    t.flag (L2_STS_ALL_BUSY p) = false ∧ t.flag (L2_STS_ALL_DONE p) = true ∧ t.flag (L2_STS_STALE_RISK p) = false) ∧
  (∀ (s : State) (h : Hart), ∃ t, exec (.l1dInvAll h) s = .next t ∧ (t.own h).l1d = [] ∧
    t.flag (L1D_STS_STALE_RISK h.part h.clu) = false)) ∧
  (
  (∀ (s : State) (h : Hart), let w := s.wakeNow h.part
    (w.flag (L1D_CTL_ENABLE h.part h.clu) = true → ∃ t, exec (.l1dEnableWrite h false) s = .next t ∧
      t.flag (L1D_CTL_ENABLE h.part h.clu) = false ∧ (t.own h).l1dClean = false) ∧
    (w.flag (L1D_CTL_ENABLE h.part h.clu) = false → ∃ t, exec (.l1dEnableWrite h false) s = .next t ∧
      t.flag (L1D_CTL_ENABLE h.part h.clu) = false ∧ (t.own h).l1dPend = false) ∧
    (w.flag (L1D_CTL_ENABLE h.part h.clu) = false → (w.l2Of h.part).full = none → ∃ t, exec (.l1dEnableWrite h true) s = .next t ∧
      t.flag (L1D_CTL_ENABLE h.part h.clu) = true ∧ ((w.own h).l1dClean = false → t.flag (L1D_STS_STALE_RISK h.part h.clu) = true)) ∧
    (w.flag (L1D_CTL_ENABLE h.part h.clu) = false → (w.l2Of h.part).full ≠ none → ∃ t, exec (.l1dEnableWrite h true) s = .next t ∧
      t.flag (L1D_CTL_ENABLE h.part h.clu) = false ∧ (t.own h).l1dPend = true)) ∧
  (∀ (s : State) (p : Part), let w := s.wakeNow p
    (w.flag (L2_CTL_ENABLE p) = true → ∃ t, exec (.l2EnableWrite p false) s = .next t ∧ t.flag (L2_CTL_ENABLE p) = false ∧
      (t.l2Of p).cleaned = false) ∧
    (w.flag (L2_CTL_ENABLE p) = false → ∃ t, exec (.l2EnableWrite p false) s = .next t ∧ t.flag (L2_CTL_ENABLE p) = false ∧
      (t.l2Of p).enPend = false) ∧
    (w.flag (L2_CTL_ENABLE p) = false → (w.l2Of p).full = none → ∃ t, exec (.l2EnableWrite p true) s = .next t ∧
      t.flag (L2_CTL_ENABLE p) = true ∧ ((w.l2Of p).cleaned = false → t.flag (L2_STS_STALE_RISK p) = true)) ∧
    (w.flag (L2_CTL_ENABLE p) = false → (w.l2Of p).full ≠ none → ∃ t, exec (.l2EnableWrite p true) s = .next t ∧
      t.flag (L2_CTL_ENABLE p) = false ∧ (t.l2Of p).enPend = true)) ∧
  (∀ (s : State) (p : Part) (m : BitVec 16), let w := s.wakeNow p
    ((w.l2Of p).waying = true → ∃ v : Event, v.code = 0x0002 ∧ exec (.l2WayoffWrite p m) s = .next (w.logEvent v)) ∧
    ((w.l2Of p).waying = false → 12 < maskCount m.toNat → ∃ t, exec (.l2WayoffWrite p m) s = .next t ∧
      t.flag (L2_STS_WAYOFF_REJ p) = true ∧ t.fld (L2_WAYOFF_MASK p) = w.fld (L2_WAYOFF_MASK p)) ∧
    ((w.l2Of p).waying = false → maskCount m.toNat ≤ 12 → ∃ t, exec (.l2WayoffWrite p m) s = .next t ∧
      t.fld (L2_WAYOFF_MASK p) = m.toNat ∧ (t.l2Of p).waying = true)) ∧
  (∀ (s : State) (p : Part), (s.l2Of p).waying = true → ∃ t, exec (.wayoffDone p) s = .next t ∧ (t.l2Of p).waying = false ∧
    t.fld (L2_WAYOFF_DONE_OFF p) = s.fld (L2_WAYOFF_MASK p) ∧ t.flag (L2_WAYOFF_DONE_DONE p) = true ∧
    ∀ x ∈ (t.l2Of p).lines, (s.fld (L2_WAYOFF_MASK p)).testBit x.way = false))

/-- For every entry, CID below 4096 and pair of directions: the claim check of the entry passes exactly where every CID bit
whose MASK bit is 1 equals the entry's, and R is 1 if the request reads, and W is 1 if it writes. -/
def Obligations.CapabilityTablesDecideAccess : Prop :=
  ∀ (e : BitVec 32) (q : BitVec 12) (r w : Bool),
    claimOk e.toNat q.toNat r w = true ↔
      (∀ b : Fin 12, e.getLsbD (12 + b) = true → q.getLsbD b = e.getLsbD b) ∧ (r = true → e.getLsbD 24 = true) ∧
        (w = true → e.getLsbD 25 = true)

/-- CLM_ENTRY_WRITE with no update running and not frozen: every populated granule of the run of COUNT (0 acting as 1) from
INDEX on has the value with its reserved bits 0, every other granule its old entry; INDEX advances by COUNT modulo 2^25 and BUSY
is 1. With an update running it is refused with BUSY_WRITE; with LOCK set after the seal it counts a seal violation; either way
no entry changes. CLAIM_UPDATE_DONE clears BUSY. PAGE_WALK that reaches a leaf leaves it in the partition's L2 TLB; one that
faults changes no TLB of any partition. A translation that hits its own structure answers that entry and changes nothing; one
that hits the L2 TLB for the L2 structure likewise. REMOTE_REQUEST outside the apertures from a chip whose PLAIN_ALLOW bit is 0
completes with an abort, is recorded as a claim denial and changes no memory; from an allowed chip it is performed and answered
as a local request of SOURCE 5 with its CID. In the aperture of a window that is not enabled, whose SRC_CHIP is another chip, or
whose direction bit is 0, it completes with an abort, sets INWIN_ERR and changes no memory. -/
def Obligations.ClaimsWalksAndInboundWindows : Prop :=
  (
  (∀ (s : State) (v : BitVec 32),
    let i := s.fld CLM_INDEX_INDEX
    let n := max (s.fld CLM_RANGE_COUNT) 1
    (s.flag CLM_STS_BUSY = false → s.flag CLM_CTL_LOCK = false ∨ s.flag HDF_SEAL_SEALED = false →
      ∃ t, exec (.clmEntryWrite v) s = .next t ∧ t.fld CLM_INDEX_INDEX = (i + n) % 2 ^ 25 ∧ t.flag CLM_STS_BUSY = true ∧
        ∀ j, Tbl.get (fun _ => (0 : BitVec 32)) t.claims j =
          (if i ≤ j ∧ j < i + n ∧ s.granulePop j = true then v &&& 0x03FFFFFF#32 else Tbl.get (fun _ => (0 : BitVec 32)) s.claims j)) ∧
    (s.flag CLM_STS_BUSY = true → ∃ e : Event, e.code = 0x0002 ∧ exec (.clmEntryWrite v) s = .next (s.logEvent e)) ∧
    (s.flag CLM_STS_BUSY = false → s.flag CLM_CTL_LOCK = true → s.flag HDF_SEAL_SEALED = true →
      ∃ t, exec (.clmEntryWrite v) s = .next t ∧ t.claims = s.claims)) ∧
  (∀ s : State, ∃ t, exec .claimUpdateDone s = .next t ∧ t.flag CLM_STS_BUSY = false ∧ t.claims = s.claims)) ∧
  (
  (∀ (s : State) (p : Part) (cid : BitVec 12) (va : BitVec 56),
    (∀ e, (s.walk p cid.toNat va.toNat).1 = some e →
      ∃ t, exec (.pageWalk p cid va) s = .next t ∧ { e with at_ := .l2 } ∈ t.tlbOf p) ∧
    ((s.walk p cid.toNat va.toNat).1 = none → ∃ t, exec (.pageWalk p cid va) s = .next t ∧ t.tlb = s.tlb)) ∧
  (∀ (s : State) (p : Nat) (id : TlbId) (cid va : Nat) (e : TlbEnt), tlbFind (s.tlbOf p) id cid va = some e →
    s.translate p id cid va = (some e, s))) ∧
  (
  (∀ (s : State) (src : RemSrc) (cid : BitVec 12) (pa : BitVec 46) (op : MemOp),
    (∀ w, s.loc pa.toNat ≠ .aperture w) →
    (s.fbit MMU_PLAIN_ALLOW_ALLOW src.chip.toNat = false → ∃ t, exec (.remoteRequest src cid pa op) s = .next t ∧ t.mem = s.mem ∧
      t.flag CLM_STS_DENY = true ∧ .completion .abort ∈ t.out) ∧
    (s.fbit MMU_PLAIN_ALLOW_ALLOW src.chip.toNat = true →
      let r := s.farOp ⟨cid.toNat, 5, 0, src.chip.toNat, sourceStop 5 0⟩ pa.toNat op
      exec (.remoteRequest src cid pa op) s = .next (sendRes (r.1,
        r.2.remoteReply s.chip src.chip.toNat (paStop pa.toNat) src.stop.toNat src.tag.toNat r.1.completion)))) ∧
  (∀ (s : State) (src : RemSrc) (cid : BitVec 12) (pa : BitVec 46) (op : MemOp) (w : Nat),
    s.loc pa.toNat = .aperture w →
    s.flag (MMU_INWIN_EN w) = false ∨ (s.fld (MMU_INWIN_SRC_CHIP w) ≠ 63 ∧ s.fld (MMU_INWIN_SRC_CHIP w) ≠ src.chip.toNat) ∨
      (opWrites op = true ∧ s.flag (MMU_INWIN_W w) = false) ∨ (opWrites op = false ∧ s.flag (MMU_INWIN_R w) = false) →
    ∃ t, exec (.remoteRequest src cid pa op) s = .next t ∧ t.mem = s.mem ∧ t.flag MMU_STS_INWIN_ERR = true ∧
      .completion .abort ∈ t.out))

/-- PAGE, RANGE, CID, ALL, SYNC and INWIN (word 0 with the command's OP) join the queue's end, and are dropped with CMD_DROP
while 64 are held. One that reaches the head of an empty queue and is well formed removes at once: PAGE every leaf of its CID
that translates its address, RANGE those that meet the range, CID every leaf of the CID, ALL every leaf and inbound leaf, INWIN
the inbound leaves of its window; leaves outside stay. SYNC removes none. The uses in progress are then what its completion waits
for. MMU_COMMAND_COMPLETE with no use left to wait for
takes the head away and shows its number in MMU_FENCE_DONE; with a use left it changes nothing. -/
def Obligations.MmuCommands : Prop :=
  let cmds := fun (w0 w1 w2 w3 : BitVec 64) => [(Instr.page w0 w1 w2 w3, (1 : BitVec 4)), (.range w0 w1 w2 w3, 2), (.cid w0 w1 w2 w3, 3),
    (.all w0 w1 w2 w3, 4), (.sync w0 w1 w2 w3, 5), (.inwin w0 w1 w2 w3, 6)]
  (∀ (s : State) (w0 w1 w2 w3 : BitVec 64), ∀ e ∈ cmds w0 w1 w2 w3,
    (s.mmu.queue.length < 64 → ∃ t, exec e.1 s = .next t ∧ t.mmu.queue = s.mmu.queue ++ [[withOp w0 e.2, w1, w2, w3]]) ∧
    (64 ≤ s.mmu.queue.length → ∃ t, exec e.1 s = .next t ∧ t.mmu.queue = s.mmu.queue ∧ t.flag MMU_STS_CMD_DROP = true)) ∧
  (∀ (s : State) (w0 w1 w2 w3 : BitVec 64), s.mmu.queue = [] → s.mmu.headOn = false →
    let cid := w0.toNat / 2 ^ 16 % 2 ^ 12
    let len := (max w2.toNat 1) * 65536
    let gone := fun (op : BitVec 4) (x : TlbEnt) => match op.toNat with
      | 1 => x.cid == cid && decide (w1.toNat / 2 ^ x.lg = x.va / 2 ^ x.lg)
      | 2 => x.cid == cid && decide (x.va < w1.toNat + len) && decide (w1.toNat < x.va + 2 ^ x.lg)
      | 3 => x.cid == cid
      | 4 => true
      | _ => false
    ∀ e ∈ cmds w0 w1 w2 w3, cmdOk [withOp w0 e.2, w1, w2, w3] = true →
      ∃ t, exec e.1 s = .next t ∧ t.mmu.waits = s.usesNow ∧ (∀ p x, x ∈ t.tlbOf p → gone e.2 x = false) ∧
        (∀ p x, x ∈ s.tlbOf p → gone e.2 x = false → x ∈ t.tlbOf p) ∧
        (e.2.toNat = 6 → ∀ x, x ∈ t.mmu.inTlb ↔ x ∈ s.mmu.inTlb ∧ x.win ≠ cid) ∧ (e.2.toNat = 4 → t.mmu.inTlb = [])) ∧
  (∀ (s : State) (ws : List (BitVec 64)) (rest : List (List (BitVec 64))), s.mmu.queue = ws :: rest →
    (s.mmu.waits = [] → ∃ t, exec .mmuCommandComplete s = .next t ∧ t.mmu.queue = rest ∧
      t.fld MMU_FENCE_DONE_FENCE = cmdWord ws 0 / 2 ^ 32) ∧
    (s.mmu.waits ≠ [] → exec .mmuCommandComplete s = .next s))

/-- POWER_STATE_ENTRY of an idle partition with nothing in progress and a state that fits, deeper than its own, begins that entry;
POWER_STATE_ENTRY_DONE of an entry in progress shows its state (as PSTATE holds it) and ends it, and starts the return to A0
where a wake event came meanwhile; in A3 no line is left in its L2. WAKE_EVENT of a partition that is not OFF starts the return
(WAKING) where it is not in A0, or is remembered during an entry; PRE_WAKE is that for a stage partition. WAKE_COMPLETE of a
waking partition shows A0, clears WAKING and counts the wake. D3HOT_ENTRY puts the function into D3hot, the physical one closing
the port; D3HOT_QUIESCE with function 0 in D3hot, no slot in flight and every partition idle sets DSTATE 3, every partition in A3 and
its stack in self-refresh; D0_ENTRY takes the function out, function 0 setting DSTATE 0. THERMTRIP holds THERMTRIP_N. DVFS_STEP_COMPLETE of a
change in progress makes STEP the TARGET and clears TRANSITION; AVS_COMPLETION shows the commanded setpoint reached in SETTLED
and MV; AVS_FAULT sets FAULT and, with no change in progress, puts TARGET back to STEP. -/
def Obligations.PowerStates : Prop :=
  (
  (∀ (s : State) (p : Part), s.idle p = true → s.flag (PWR_PSTATE_WAKING p) = false → (s.ppwr p).entering = none →
    s.fld (PWR_PSTATE_STATE p) < s.entryState p → ∃ t, exec (.powerStateEntry p) s = .next t ∧ (t.ppwr p).entering = some (s.entryState p) ∧ (t.ppwr p).wakeAfter = false) ∧
  (∀ (s : State) (p : Part) (k : Nat), (s.ppwr p).entering = some k → ∃ t, exec (.powerStateEntryDone p) s = .next t ∧
    t.fld (PWR_PSTATE_STATE p) = k % 4 ∧ (t.ppwr p).entering = none ∧ (k = 3 → (t.l2Of p).lines = []) ∧
    ((s.ppwr p).wakeAfter = true → k % 4 ≠ 0 → s.role p ≠ 0 → t.flag (PWR_PSTATE_WAKING p) = true)) ∧
  (∀ (s : State) (p : Part), s.role p ≠ 0 → ∀ c ∈ [Instr.wakeEvent p, Instr.preWake p], (c = .preWake p → s.isStage p = true) →
    ((s.ppwr p).entering = none → s.awake p = false → ∃ t, exec c s = .next t ∧ t.flag (PWR_PSTATE_WAKING p) = true) ∧
    ((s.ppwr p).entering ≠ none → ∃ t, exec c s = .next t ∧ (t.ppwr p).wakeAfter = true)) ∧
  (∀ (s : State) (p : Part), s.flag (PWR_PSTATE_WAKING p) = true → ∃ t, exec (.wakeComplete p) s = .next t ∧
    t.fld (PWR_PSTATE_STATE p) = 0 ∧ t.flag (PWR_PSTATE_WAKING p) = false ∧
    t.fld (PWR_WAKE_CNT_COUNT p) = (s.fld (PWR_WAKE_CNT_COUNT p) + 1) % 2 ^ 32)) ∧
  (
  (∀ (s : State) (fn : Fin 9), (∃ t, exec (.d3hotEntry fn) s = .next t ∧ fn.val ∈ t.pwr.d3 ∧ (fn = 0 → t.pwr.portHold = true)) ∧
    (∃ t, exec (.d0Entry fn) s = .next t ∧ t.pwr.d3 = s.pwr.d3.erase fn.val ∧ (fn = 0 → t.fld PWR_STS_DSTATE = 0))) ∧
  (∀ s : State, 0 ∈ s.pwr.d3 → s.noSequence = true → (∀ p : Part, s.idle p = true) →
    ∃ t, exec .d3hotQuiesce s = .next t ∧ t.fld PWR_STS_DSTATE = 3 ∧ ∀ p : Part, t.fld (PWR_PSTATE_STATE p) = 3 ∧ t.flag (STK_STS_SELF_REFRESH p) = true) ∧
  (∀ s : State, ∃ t, exec .thermtrip s = .next t ∧ t.thermtrip = true ∧ t.alertN = true) ∧
  (∀ (s : State) (p : Part), s.flag (CLK_PCLK_STS_TRANSITION p) = true → ∃ t, exec (.dvfsStepComplete p) s = .next t ∧
    t.fld (CLK_PCLK_STS_STEP p) = s.fld (CLK_PCLK_STS_TARGET p) ∧ t.flag (CLK_PCLK_STS_TRANSITION p) = false) ∧
  (∀ (s : State) (p : Part) (c : Nat), (s.ppwr p).avsCmd = some c →
    (∃ t, exec (.avsCompletion p) s = .next t ∧ (t.ppwr p).avsCmd = none ∧ (t.ppwr p).avsDone = some (c, s.beat.tick) ∧
      (t.fld PIN_AVS_STS_SETTLED).testBit p = true ∧ (t.fld PIN_AVS_STS_PENDING).testBit p = false ∧
      t.fld (PIN_AVS_VOUT_MV p) = stepMv c) ∧
    (∃ t, exec (.avsFault p) s = .next t ∧ (t.ppwr p).avsCmd = none ∧ (t.fld PIN_AVS_STS_FAULT).testBit p = true ∧
      t.fld (CLK_PCLK_STS_TARGET p) =
        (if s.flag (CLK_PCLK_STS_TRANSITION p) then s.fld (CLK_PCLK_STS_TARGET p) else s.fld (CLK_PCLK_STS_STEP p)))))

/-- The level rule: a temperature at or above a threshold (95, 100, 105, 120 °C for levels 1 to 4) higher than the level raises
it there at once; at the level's own threshold less 5 °C or below it falls by one; else it stays. Unless THERMTRIP holds the device,
SENSOR_SAMPLE with eight valid readings shows the hottest stack and die readings and the hotter of the two in TS, TP and TJ, the hotter Tsumbe reading in
TS_TEMP, and the level by the rule. SENSOR_FAIL sets SENSOR_FAIL and leaves TJ at 100 °C or above. -/
def Obligations.ThermalLadder : Prop :=
  (∀ cur t : Nat, cur ≤ 4 →
    let hit := if 120 ≤ t then 4 else if 105 ≤ t then 3 else if 100 ≤ t then 2 else if 95 ≤ t then 1 else 0
    let own := ([0, 95, 100, 105, 120] : List Nat).getD cur 0
    nextLevel cur t = (if cur < hit then hit else if 0 < cur ∧ t + 5 ≤ own then cur - 1 else cur)) ∧
  (∀ (s : State) (k : Part) (g0 g1 g2 g3 d0 d1 d2 d3 t0 t1 : Byte), s.tripped = false →
    let ts := max (max g0.toNat g1.toNat) (max g2.toNat g3.toNat)
    let tp := max (max d0.toNat d1.toNat) (max d2.toNat d3.toNat)
    ∃ t, exec (.sensorSample k ⟨[some g0, some g1, some g2, some g3, some d0, some d1, some d2, some d3], [t0, t1]⟩) s = .next t ∧
      t.fld (PWR_THERM_TS k) = ts ∧ t.fld (PWR_THERM_TP k) = tp ∧ t.fld (PWR_THERM_TJ k) = max ts tp ∧
      t.fld PWR_STS_TS_TEMP = max t0.toNat t1.toNat ∧
      (s.fld (PWR_THERM_LEVEL k) ≤ 4 → t.fld (PWR_THERM_LEVEL k) = nextLevel (s.fld (PWR_THERM_LEVEL k)) (max ts tp))) ∧
  (∀ (s : State) (k : Part) (i : Fin 8), s.tripped = false → ∃ t, exec (.sensorFail k i) s = .next t ∧
    t.flag (STK_TEMP_PEAK_SENSOR_FAIL k) = true ∧ 100 ≤ t.fld (PWR_THERM_TJ k) ∧
    (s.fld (PWR_THERM_LEVEL k) = 0 → 2 ≤ t.fld (PWR_THERM_LEVEL k)))

/-- TRAVERSE_PACKET of a packet that Table 14-3 allows waits at its source stop as the newest packet; another changes nothing. A packet
whose sink has set no buffer aside does not enter. A flit with a single-bit error goes on and CE is set; with an uncorrectable
payload flit the packet gets POISON (bit 56), UE is set, and TRV_ERR_LOC names router, plane and port; an uncorrectable head flit
goes no further, its packet is to be discarded there, and DROP and UE are set. A packet that has reached its stop is delivered
unchanged, a response releasing its reservation; a response to discard is not delivered, and its stop and tag are free again. A
poisoned response halts the cluster it is for. TOKEN_REQUEST joins the target's queue while its stop has fewer requests and pool
tokens than its cap. TOKEN_GRANT, while fewer pool tokens are out than the pool holds, gives one to the earliest request that has
arrived and whose stop holds fewer than its cap, and tells it; where none can be granted it changes nothing. TOKEN_RETURN frees the
entry of a packet that has left, a pool token going back to the pool and a standing one to its stop. FRAME_TOKEN_GRANT with nothing
waiting or no free frame changes nothing; else the first waiting put takes the free frame, or it is reserved for the chip that asked.
REQ_TIMEOUT remembers stop and tag; where the stop is a cluster's the cluster halts and its partition is FAILED, else the
request completes with an uncorrectable error. -/
def Obligations.NetworkPacketsAndTokens : Prop :=
  (
  (∀ (s : State) (k : TrvPkt), let m := s.net.mesh
    (trvOk k = true → ∃ t, exec (.traversePacket k) s = .next t ∧ t.net.mesh.inj = m.inj ++ [m.nextId] ∧ t.net.mesh.nextId = m.nextId + 1 ∧
      t.net.mesh.pkt m.nextId = some ⟨k.hdr, k.data, k.err, planeOf (hdrSrc k.hdr) (hdrDst k.hdr) (hdrVc k.hdr) k.addr.toNat, 0, false, none⟩ ∧
      ∀ i, i ≠ m.nextId → t.net.mesh.pkt i = m.pkt i) ∧
    (trvOk k = false → exec (.traversePacket k) s = .next s)) ∧
  (∀ (s : State) (i : Nat) (k : MeshPkt), s.net.mesh.pkt i = some k → k.cleared = false → s.sinkReady k.hdr = false → s.meshInject i = s) ∧
  (∀ (s : State) (i : Nat) (k : MeshPkt) (pk vc : Nat) (f : MeshFlit), k.dropAt ≠ some (pk / 6 % 192) →
    let e := errAt k.err (hdrFlits k.hdr) (pk / 6 % 192) (pk / 6 / 192) (pk % 6) f.idx
    let q := queueKey pk vc
    let t := s.arriveAt i k pk vc f
    let at_ := fun (r : BitVec 8) (pl : BitVec 4) (po : BitVec 3) => t.flag TRV_STS_UE = true ∧ t.flag TRV_ERR_LOC_VALID = true ∧
      t.fld TRV_ERR_LOC_ROUTER = r.toNat ∧ t.fld TRV_ERR_LOC_PLANE = pl.toNat ∧ t.fld TRV_ERR_LOC_PORT = po.toNat
    ((∀ r pl po, e ≠ .head r pl po) → t.net.mesh.queue q = s.net.mesh.queue q ++ [f]) ∧
    (∀ r pl po, e = .single r pl po → t.flag TRV_STS_CE = true ∧ t.net.mesh.pkt i = s.net.mesh.pkt i) ∧
    (∀ r pl po, e = .payload r pl po → at_ r pl po ∧ t.net.mesh.pkt i = some { k with hdr := k.hdr ||| (1 <<< 56) }) ∧
    (∀ r pl po, e = .head r pl po → at_ r pl po ∧ t.flag TRV_STS_DROP = true ∧ t.net.mesh.queue q = s.net.mesh.queue q ∧
      t.net.mesh.pkt i = if f.idx + 1 = hdrFlits k.hdr then none else some { k with dropAt := some (pk / 6 % 192) })) ∧
  (∀ (s : State) (i : Nat) (k : MeshPkt), s.net.mesh.landed = [i] → s.net.mesh.pkt i = some k → let t := s.meshSinks
    t.net.mesh.landed = [] ∧ t.net.mesh.pkt i = none ∧
    (hdrVc k.hdr = 1 → t.net.mesh.resvOf (hdrDst k.hdr) = s.net.mesh.resvOf (hdrDst k.hdr) - 1 ∧
      t.net.timedOut = s.net.timedOut.erase (hdrDst k.hdr, hdrTag k.hdr)) ∧
    (hdrVc k.hdr ≠ 1 ∨ s.respDropped k.hdr = false → .trv k.hdr k.data ∈ t.out ∧
      (hdrPoison k.hdr = false → t.out = s.out ++ [.trv k.hdr k.data])) ∧
    (hdrVc k.hdr = 1 → s.respDropped k.hdr = true → ∀ h d, .trv h d ∈ t.out → .trv h d ∈ s.out) ∧
    (∀ p c, hdrVc k.hdr = 1 → s.respDropped k.hdr = false → hdrPoison k.hdr = true → stopKind (hdrDst k.hdr) = .cluster p c →
      (t.clu p c).halted = true ∧ t.flag (PCTL_STS_FAILED p) = true))) ∧
  (
  (∀ (s : State) (tgt : BitVec 9) (vc : BitVec 3) (stop : BitVec 9),
    let k := tokKey tgt.toNat vc.toNat
    let c := s.net.mesh.cyc
    let x := (s.tokOf k).prune c
    let n := (x.waiting.filter (fun r => r.stop == stop.toNat)).length + x.poolOut stop.toNat c
    let cap := (tokensOf tgt.toNat vc.toNat stop.toNat).2.2
    (n < cap → ∃ t, exec (.tokenRequest tgt vc stop) s = .next t ∧
      t.tokOf k = { x with waiting := x.waiting ++ [⟨stop.toNat, c, c + hopsOf stop.toNat tgt.toNat⟩] }) ∧
    (cap ≤ n → exec (.tokenRequest tgt vc stop) s = .next s) ∧
    (∀ u, x.held.find? (fun u => u.stop == stop.toNat && (s.net.mesh.pkt u.pkt).isNone) = some u →
      ∃ t, exec (.tokenReturn tgt vc stop) s = .next t ∧ t.tokOf k = { x with
        held := x.held.erase u
        coming := if u.pool then x.coming else x.coming ++ [⟨u.stop, false, c + hopsOf tgt.toNat stop.toNat⟩] })) ∧
  (∀ (s : State) (tgt : BitVec 9) (vc : BitVec 3),
    let k := tokKey tgt.toNat vc.toNat
    let c := s.net.mesh.cyc
    let x := (s.tokOf k).prune c
    let p := (tokensOf tgt.toNat vc.toNat 0).2
    let can := fun (r : TokReq) => r.arrive ≤ c ∧ x.poolOut r.stop c < p.2
    (x.outAll c < p.1 → (∃ r ∈ x.waiting, can r) → ∃ t r, exec (.tokenGrant tgt vc) s = .next t ∧ r ∈ x.waiting ∧ can r ∧
      (∀ y ∈ x.waiting, can y → r.arrive ≤ y.arrive) ∧ .tokenGrant tgt.toNat vc.toNat r.stop ∈ t.out ∧
      t.tokOf k = { x with waiting := x.waiting.erase r, granted := x.granted ++ [⟨r.stop, c + hopsOf tgt.toNat r.stop⟩] }) ∧
    (p.1 ≤ x.outAll c ∨ (∀ r ∈ x.waiting, ¬ can r) → exec (.tokenGrant tgt vc) s = .next s)) ∧
  (∀ (s : State) (p : Part),
    ((s.plat p).waiting = [] ∨ s.freeFrame p = none → exec (.frameTokenGrant p) s = .next s) ∧
    (∀ h f, (s.plat p).waiting = [.put h] → s.freeFrame p = some f →
      ∃ t, exec (.frameTokenGrant p) s = .next t ∧ (t.plat p).waiting = [] ∧ (∀ g, g ≠ f → t.frame p g = s.frame p g) ∧
        (s.headerErr p h = none → t.frame p f = { Frame.none with st := .filling, hdr := h })) ∧
    (∀ c q f, (s.plat p).waiting = [.token c q] → s.freeFrame p = some f →
      ∃ t, exec (.frameTokenGrant p) s = .next t ∧ (t.plat p).waiting = [] ∧ (t.plat p).reserved = (s.plat p).reserved ++ [c * 8 + q] ∧
        t.out = s.out ++ [.frameToken c q p])) ∧
  (∀ (s : State) (stop : BitVec 9) (tag : BitVec 12) (pa : BitVec 52),
    ∃ t, exec (.reqTimeout stop tag pa) s = .next t ∧ t.net.timedOut = s.net.timedOut ++ [(stop.toNat, tag.toNat)] ∧
      t.net.mesh.asked = s.net.mesh.asked.erase (stop.toNat, tag.toNat) ∧
      (∀ p c, stopKind stop.toNat = .cluster p c → (t.clu p c).halted = true ∧ t.flag (PCTL_STS_FAILED p) = true) ∧
      ((∀ p c, stopKind stop.toNat ≠ .cluster p c) → .completion .poisoned ∈ t.out)))

/-- Where no more pool tokens of a target are out than its pool holds, and no stop has more pool tokens and waiting requests together than
its cap, the same is true after any TOKEN_REQUEST, TOKEN_GRANT or TOKEN_RETURN, of that target or another. -/
def Obligations.TokenPoolKept : Prop :=
  let ok := fun (s : State) => ∀ (tgt : BitVec 9) (vc : BitVec 3),
    let x := s.tokOf (tokKey tgt.toNat vc.toNat)
    let p := (tokensOf tgt.toNat vc.toNat 0).2
    x.outAll s.net.mesh.cyc ≤ p.1 ∧
      ∀ st, (x.waiting.filter (fun r => r.stop == st)).length + x.poolOut st s.net.mesh.cyc ≤ p.2
  ∀ s : State, ok s → ∀ (tgt : BitVec 9) (vc : BitVec 3) (stop : BitVec 9),
    ∀ c ∈ [Instr.tokenRequest tgt vc stop, Instr.tokenGrant tgt vc, Instr.tokenReturn tgt vc stop],
      ∃ t, exec c s = .next t ∧ ok t

/-- DATA_FLIT that FEC and CRC pass, of KIND DATA with SEQ E: E is one more modulo 2^16 and an ACK of it goes out, alone where the flit
completes no packet. One that fails FEC or CRC leaves E, counts one in FEC_UNC or CRC_ERR (saturating), and sends NAK E once until a
flit is accepted; another SEQ leaves E. FEC_CORR counts the corrected symbols. With nothing waiting to leave: ACK frees the held flits
not after its SEQ; NAK frees those before its SEQ and sends the others again in order, counting one replay unless it only restarts one
that a timeout began, and REPLAY_TIMEOUT sends all held from the oldest on, unless that SEQ has been replayed three times, when the
port retrains: TRAINING set, UP clear, RETRAINS one more. -/
def Obligations.LinkFlits : Prop :=
  let msg := fun (p : Fin 8) (x : HeldFlit) => OutMsg.flit p (BitVec.ofNat 32 (flitHdr x.seq x.fpo)) x.data
    (BitVec.ofNat 32 (crc32c (bytesLE 4 (flitHdr x.seq x.fpo) ++ x.data)))
  (∀ (s : State) (p : Fin 8) (f : FlitArgs),
    let e := s.fld (LNK_SEQ_RX_E p)
    let crcOk := decide (crc32c (bytesLE 4 f.hdr.toNat ++ f.payload) = f.crc.toNat)
    (f.fecBad = false → crcOk = true → bitsOf f.hdr.toNat 21 2 = 0 → bitsOf f.hdr.toNat 0 16 = e →
      ∃ t, exec (.dataFlit p f) s = .next t ∧ t.fld (LNK_SEQ_RX_E p) = (e + 1) % 2 ^ 16 ∧ .linkAck p e ∈ t.out ∧
        (t.linkOf p).nakOut = false ∧
        ((flitPkts (s.linkOf p).part (bitsOf f.hdr.toNat 16 5) f.payload).1 = [] → t.out = s.out ++ [.linkAck p e] ∧
          t.fld (LNK_FEC_CORR_COUNT p) = (s.fld (LNK_FEC_CORR_COUNT p) + f.fecCorr) % 2 ^ 32)) ∧
    (f.fecBad = true ∨ crcOk = false →
      ∃ t, exec (.dataFlit p f) s = .next t ∧ t.fld (LNK_SEQ_RX_E p) = e ∧ (t.linkOf p).nakOut = true ∧
        t.out = s.out ++ (if (s.linkOf p).nakOut then [] else [.linkNak p e]) ∧
        t.fld (LNK_FEC_UNC_COUNT p) = (if f.fecBad then min (s.fld (LNK_FEC_UNC_COUNT p) + 1) 0xFFFF else s.fld (LNK_FEC_UNC_COUNT p)) ∧
        t.fld (LNK_CRC_ERR_COUNT p) = (if f.fecBad then s.fld (LNK_CRC_ERR_COUNT p) else min (s.fld (LNK_CRC_ERR_COUNT p) + 1) 0xFFFF)) ∧
    (bitsOf f.hdr.toNat 0 16 ≠ e → ∃ t, exec (.dataFlit p f) s = .next t ∧ t.fld (LNK_SEQ_RX_E p) = e)) ∧
  (∀ (s : State) (p : Fin 8) (seq : BitVec 16), (s.linkOf p).queue = [] → (s.linkOf p).stream = [] →
    let l := s.linkOf p
    let after := l.held.filter (fun x => serialLe 16 seq.toNat x.seq)
    (∃ t, exec (.ack p seq) s = .next t ∧ (t.linkOf p).held = l.held.filter (fun x => !serialLe 16 x.seq seq.toNat) ∧
      t.out = s.out) ∧
    (∃ t, exec (.nak p seq) s = .next t ∧ (t.linkOf p).held = after ∧
      (∀ f r, after = f :: r →
        (l.timed = false → l.replaySeq ≠ f.seq ∨ l.replays < 3 → t.out = s.out ++ after.map (msg p) ∧
          t.fld (LNK_REPLAYS_COUNT p) = min (s.fld (LNK_REPLAYS_COUNT p) + 1) 0xFFFF) ∧
        (l.timed = true → t.out = s.out ++ after.map (msg p) ∧ t.fld (LNK_REPLAYS_COUNT p) = s.fld (LNK_REPLAYS_COUNT p))))) ∧
  (∀ (s : State) (p : Fin 8),
    ((s.linkOf p).held = [] → exec (.replayTimeout p) s = .next s) ∧
    (∀ f r, (s.linkOf p).held = f :: r → (∀ x ∈ r, serialLe 16 f.seq x.seq = true) →
      ∃ t, exec (.replayTimeout p) s = .next t ∧ (t.linkOf p).held = (s.linkOf p).held ∧
        ((s.linkOf p).replaySeq ≠ f.seq ∨ (s.linkOf p).replays < 3 → t.out = s.out ++ (s.linkOf p).held.map (msg p)) ∧
        ((s.linkOf p).replaySeq = f.seq → 3 ≤ (s.linkOf p).replays → t.flag (LNK_STS_TRAINING p) = true ∧ t.flag (LNK_STS_UP p) = false ∧
          t.fld (LNK_RETRAINS_COUNT p) = min (s.fld (LNK_RETRAINS_COUNT p) + 1) 0xFFFF)))

/-- A port in TRAINING that holds nothing comes UP with width 8 where all lanes pass, 4 where ALLOW_4 and one half passes,
showing the peer; a third failed attempt in a row makes it DOWN and drops what it holds. Another port ignores TRAINING_ATTEMPT.
RETRAIN begins training from any state. With nothing waiting CREDIT_RETURN frees one buffer. LINK_PACKET for this chip returns its
credit and its data is delivered unpacked, unless it is one of the model's own memory requests; without a route it returns its credit
and the source is told; for another chip over a port that is not up it waits there with its buffer. REMOTE_FRAME_TOKEN_REQUEST of a
put with a route, once its partition has drained, holds the put and asks for its token, without one the put fails; one of another
chip reserves a free frame and is told, or waits. REMOTE_FRAME_TOKEN_GRANT of the oldest put to the plat takes it from those
that wait; without a route it fails, and where its port is not up, packing is RAW and no Check Unit is bound, it queues packets whose
data in order are header and payload. -/
def Obligations.LinkTrainingAndPackets : Prop :=
  (∀ (s : State) (p : Fin 8) (lanes : BitVec 8) (chip : BitVec 6) (peer : BitVec 3),
    let w := if lanes = 255 then 8 else
      if s.flag (LNK_CTL_ALLOW_4 p) = true ∧ (lanes.toNat % 16 = 15 ∨ lanes.toNat / 16 = 15) then 4 else 0
    (s.flag (LNK_STS_TRAINING p) = false → exec (.trainingAttempt p lanes chip peer) s = .next s) ∧
    (s.flag (LNK_STS_TRAINING p) = true → w ≠ 0 → (s.linkOf p).held = [] → (s.linkOf p).queue = [] →
      ∃ t, exec (.trainingAttempt p lanes chip peer) s = .next t ∧ t.flag (LNK_STS_UP p) = true ∧ t.flag (LNK_STS_TRAINING p) = false ∧
        t.fld (LNK_STS_WIDTH p) = w ∧ t.fld (LNK_STS_PEER_CHIP p) = chip.toNat ∧ t.fld (LNK_STS_PEER_PORT p) = peer.toNat) ∧
    (s.flag (LNK_STS_TRAINING p) = true → w = 0 →
      ((s.linkOf p).tries < 2 → ∃ t, exec (.trainingAttempt p lanes chip peer) s = .next t ∧
        (t.linkOf p).tries = (s.linkOf p).tries + 1 ∧ t.flag (LNK_STS_TRAINING p) = true) ∧
      (2 ≤ (s.linkOf p).tries → ∃ t, exec (.trainingAttempt p lanes chip peer) s = .next t ∧ t.flag (LNK_STS_DOWN p) = true ∧
        t.flag (LNK_STS_UP p) = false ∧ (t.linkOf p).down = true ∧ (t.linkOf p).held = [] ∧ (t.linkOf p).queue = []))) ∧
  (∀ (s : State) (p : Fin 8), ∃ t, exec (.retrain p) s = .next t ∧ t.flag (LNK_STS_TRAINING p) = true ∧ t.flag (LNK_STS_UP p) = false) ∧
  (∀ (s : State) (p : Fin 8) (cls : BitVec 2) (sub : Bool), (s.linkOf p).queue = [] → (s.linkOf p).stream = [] →
    ∃ t, exec (.creditReturn p cls sub) s = .next t ∧ t.out = s.out ∧
      (t.linkOf p).usedOf (creditKey cls.toNat sub) = (s.linkOf p).usedOf (creditKey cls.toNat sub) - 1) ∧
  (∀ (s : State) (p : Fin 8) (k : LinkPkt),
    let op := bitsOf k.thdr.toNat 25 7
    let here := k.dstChip.toNat = s.chip ∨ k.dstChip.toNat = 63
    let port := s.fld (LNK_ROUTE_PORT k.dstChip.toNat)
    (here → ∃ t, exec (.linkPacket p k) s = .next t ∧ .credit p k.cls.toNat k.sub ∈ t.out ∧
      (k.cls ≠ 0 ∨ (op ≠ opRead ∧ op ≠ opWrite) →
        .trv k.thdr (unpackData k.pack.toNat (pfmtOf k.pfmt) (shapeOfHdr k.thdr) k.data) ∈ t.out)) ∧
    (¬ here → s.hasRoute k.dstChip.toNat = false → ∃ t, exec (.linkPacket p k) s = .next t ∧ .credit p k.cls.toNat k.sub ∈ t.out ∧
      .linkDenied k.srcChip.toNat k.thdr ∈ t.out) ∧
    (¬ here → s.hasRoute k.dstChip.toNat = true → s.flag (LNK_STS_UP port) = false → ∃ t q, exec (.linkPacket p k) s = .next t ∧
      (t.linkOf port).queue = (s.linkOf port).queue ++ [q] ∧ q.pkt.thdr = k.thdr ∧ q.pkt.data = k.data ∧ q.pkt.dstChip = k.dstChip ∧
      q.src ≠ none)) ∧
  (∀ (s : State) (p : Part) (a : RemPutArgs), let w := s.putDrain p
    let r : RemPut := ⟨p, a.chip.toNat, a.part.toNat, w.withSample p (putFrame a.hdr), a.payload⟩
    (w.hasRoute a.chip.toNat = false → ∃ t, exec (.remoteFrameTokenRequest p (.ask a)) s = .next t ∧
      t.net.remPuts = w.net.remPuts ∧ t.net.remFail = w.net.remFail ++ [r]) ∧
    (w.hasRoute a.chip.toNat = true → ∃ t, exec (.remoteFrameTokenRequest p (.ask a)) s = .next t ∧
      t.net.remPuts = w.net.remPuts ++ [r] ∧ t.out = w.out ++ [.tokenAsk a.chip.toNat a.part.toNat])) ∧
  (∀ (s : State) (chip : BitVec 6) (src : BitVec 3) (p : Part),
    (s.freeFrame p ≠ none → ∃ t, exec (.remoteFrameTokenRequest p (.asked chip src)) s = .next t ∧
      (t.plat p).reserved = (s.plat p).reserved ++ [chip.toNat * 8 + src.toNat] ∧ t.out = s.out ++ [.frameToken chip.toNat src.toNat p]) ∧
    (s.freeFrame p = none → ∃ t, exec (.remoteFrameTokenRequest p (.asked chip src)) s = .next t ∧ t.out = s.out ∧
      (t.plat p).waiting = (s.plat p).waiting ++ [.token chip.toNat src.toNat])) ∧
  (∀ (s : State) (p : Part) (chip : BitVec 6) (part : BitVec 3),
    let mine := fun (r : RemPut) => r.part == p.val && r.chip == chip.toNat && r.dpart == part.toNat
    ((∀ r ∈ s.net.remPuts, mine r = false) → exec (.remoteFrameTokenGrant p chip part) s = .next s) ∧
    (∀ pre r post, s.net.remPuts = pre ++ r :: post → (∀ x ∈ pre, mine x = false) → mine r = true →
      let port := s.fld (LNK_ROUTE_PORT r.chip)
      ∃ t, exec (.remoteFrameTokenGrant p chip part) s = .next t ∧ t.net.remPuts = pre ++ post ∧
        (s.hasRoute r.chip = false → t.net.remFail = s.net.remFail ++ [r]) ∧
        (s.hasRoute r.chip = true → s.flag (LNK_STS_UP port) = false → s.act (LNK_ROUTE_PACK r.chip) = 0 →
          s.putCtxs 0 r.part r.chip r.dpart = [] →
          ∃ ks : List QueuedPkt, (t.linkOf port).queue = (s.linkOf port).queue ++ ks ∧
            ks.flatMap (fun k => k.pkt.data) = FrameHdr.bytes { r.hdr with late := false } ++ r.payload ∧
            ∀ k ∈ ks, k.pkt.dstChip.toNat = r.chip ∧ k.pkt.cls = 2 ∧ k.pkt.pack = 0 ∧ k.pkt.data.length ≤ 1024)))

/-- ASY_ENQ, at the partition woken and after the READY QUERY frames that were before it, queues the address with bits [5:0] clear
while fewer than 64 are held, else sets ENQ_DROP. QUERY_ADMISSION at an
ASSAY partition with room takes the READY QUERY that completed first and queues it, and elsewhere changes nothing.
ASSAY_QUERY_START of an idle engine of a running partition takes the front of the queue: an unreadable record sets Q_FAULT and
leaves the engine idle, else the opened query runs. ASSAY_STREAM_BLOCK of a query that is not done whose block can be read moves
to the end of the block or range, or, where that was the last byte, to what follows; one that cannot be read ends the query with
the failure's code and address. ASSAY_QUERY_COMPLETE of a done query counts it, leaves the engine idle and writes its record or
puts its REPLY. ASY_ABORT leaves nothing held. While the partition is FAILED the last three change nothing, but that the abort
wakes it. -/
def Obligations.AssayQueries : Prop :=
  (∀ (s : State) (p : Part) (va : BitVec 56),
    let w := (s.wakeNow p).asyAdmitAll p 64
    ((w.asyOf p).held < 64 → ∃ t, exec (.asyEnq p va) s = .next t ∧
      t.asyOf p = ⟨(w.asyOf p).queue ++ [.enq (va.toNat / 64 * 64)], (w.asyOf p).run⟩) ∧
    (64 ≤ (w.asyOf p).held → ∃ t, exec (.asyEnq p va) s = .next t ∧ t.asyOf p = w.asyOf p ∧ t.flag (ASY_STS_ENQ_DROP p) = true) ∧
    (s.firstQuery p = none → w.asyOf p = s.asyOf p)) ∧
  (∀ (s : State) (p : Part),
    (∀ f, s.firstQuery p = some f → s.role p = 4 → (s.asyOf p).held < 64 → ∃ t, exec (.queryAdmission p) s = .next t ∧
      t.asyOf p = ⟨(s.asyOf p).queue ++ [.frame f], (s.asyOf p).run⟩ ∧ t.frame p f = { s.frame p f with st := .taken } ∧
      ∀ g, g ≠ f → t.frame p g = s.frame p g) ∧
    (s.firstQuery p = none ∨ s.role p ≠ 4 ∨ 64 ≤ (s.asyOf p).held → exec (.queryAdmission p) s = .next s)) ∧
  (∀ (s : State) (p : Part) (src : AsyFrom) (rest : List AsyFrom), s.asyOf p = ⟨src :: rest, none⟩ →
    s.flag (PCTL_STS_FAILED p) = false → s.awake p = true →
    let u := s.setAsy p ⟨rest, none⟩
    let x := u.asyOpen p src
    ∃ t, exec (.assayQueryStart p) s = .next t ∧ t.asyOf p = ⟨rest, x.1⟩ ∧
      ((u.asyRecord p src 0 64).1 ≠ none → x.1 = none ∧ t.flag (ASY_STS_Q_FAULT p) = true) ∧
      ((u.asyRecord p src 0 64).1 = none → ((AsyRun.start src).withQuery (u.asyRecord p src 0 64).2.1).2.2 = false →
        ∃ r, x.1 = some r ∧ r.phase = .done ∧ r.code = 4 ∧ r.final = [])) ∧
  (∀ (s : State) (p : Part) (r : AsyRun), (s.asyOf p).run = some r → r.phase ≠ .done → s.flag (PCTL_STS_FAILED p) = false →
    let hi := min r.stop ((r.pos / 2 ^ 21 + 1) * 2 ^ 21)
    let x := s.asyRead p true r.pos (hi - r.pos)
    let y := x.2.2.asyItems p (r.carry.length + x.2.1.length) { r with carry := r.carry ++ x.2.1, pos := hi }
    ∃ t r', exec (.assayStreamBlock p) s = .next t ∧ t.asyOf p = ⟨(s.asyOf p).queue, some r'⟩ ∧
      (∀ e, x.1 = some e → r' = r.halt e.code e.va ∧ r'.phase = .done) ∧
      (x.1 = none → y.1.phase ≠ .done → hi < r.stop → r' = y.1) ∧
      (x.1 = none → y.1.phase ≠ .done → r.stop ≤ hi → r' = (y.2.asyRangeEnd p y.1).1)) ∧
  (∀ (s : State) (p : Part) (r : AsyRun), (s.asyOf p).run = some r → r.phase = .done → s.flag (PCTL_STS_FAILED p) = false →
    ∃ t, exec (.assayQueryComplete p) s = .next t ∧ t.asyOf p = ⟨(s.asyOf p).queue, none⟩ ∧
      t.fld (ASY_DONE_CNT_COUNT p) = (s.fld (ASY_DONE_CNT_COUNT p) + 1) % 2 ^ 32) ∧
  (∀ (s : State) (p : Part),
    (s.flag (PCTL_STS_FAILED p) = false → ∃ t, exec (.asyAbort p) s = .next t ∧ t.asyOf p = ⟨[], none⟩) ∧
    (s.flag (PCTL_STS_FAILED p) = true →
      exec (.assayStreamBlock p) s = .next s ∧ exec (.assayQueryComplete p) s = .next s ∧
      exec (.asyAbort p) s = .next (s.wakeNow p)))

/-- Recording a key counts one entry scanned; a key that is not a NaN joins the candidates, and a NaN is only remembered. Of any
candidates the best n are a sublist in number min(n, all), in rank order, and no candidate left out ranks strictly before one
that is returned. -/
def Obligations.AssayRanking : Prop :=
  (∀ (r : AsyRun) (id key : Nat), (r.addKey id key).scanned = r.scanned + 1 ∧
    ((fmtS.decode key).isNan = false → (r.addKey id key).cands = r.cands ++ [⟨key, id⟩] ∧ (r.addKey id key).nanSeen = r.nanSeen) ∧
    ((fmtS.decode key).isNan = true → (r.addKey id key).cands = r.cands ∧ (r.addKey id key).nanSeen = true)) ∧
  (∀ (n : Nat) (l : List AsyKey), (∀ x ∈ l, (fmtS.decode x.key).isNan = false) →
    (bestKeys n l).length = min n l.length ∧ (bestKeys n l).Pairwise (fun a b => AsyKey.le a b = true) ∧
    ∃ out, (bestKeys n l ++ out).Perm l ∧ ∀ a ∈ bestKeys n l, ∀ b ∈ out, AsyKey.le a b = true)

/-- PERST_ASSERT puts every register at its Reset value, clears every buffer, cluster, table and the queueing of boot, and
leaves what the stacks and host memory hold, the fuses, and what has been sent. PERST_RELEASE, with no thermal trip latched,
samples the address strap and starts B1 (PHASE 1); where PERST_N is not asserted or THERMTRIP_N is latched it changes nothing.
REBOOT of a device that is not held is both in one. MAIN_POWER_REMOVAL also loses the memories and releases THERMTRIP_N. That
DRAM contents survive PERST_N is the model's choice. -/
def Obligations.ResetsAndPower : Prop :=
  (∀ s : State, ∃ t, exec .perstAssert s = .next t ∧ t.boot = State.reset.boot ∧ t.regs = [] ∧ t.active = [] ∧ t.clus = [] ∧ t.l2 = [] ∧
    t.slots = [] ∧ t.plats = [] ∧ t.claims = [] ∧ t.mem.wcb = [] ∧ t.evt = State.reset.evt ∧ t.early = State.reset.early ∧
    t.mem.bytes = s.mem.bytes ∧ t.hostMem = s.hostMem ∧ t.fuses = s.fuses ∧ t.out = s.out ∧ t.thermtrip = s.thermtrip) ∧
  (∀ s : State,
    (s.boot.held = true → s.thermtrip = false → ∃ t, exec .perstRelease s = .next t ∧ t.boot = { State.reset.boot with held := false, step := 1 } ∧
      t.fld HDF_IMAGE_STS_PHASE = 1 ∧ t.pins.strap = s.pins.level.extractLsb' 0 3 ∧ t.pwr.powered = true ∧ t.mem = s.mem) ∧
    (s.boot.held = false ∨ s.thermtrip = true → exec .perstRelease s = .next s)) ∧
  (∀ s : State, (s.inReset = true → exec .reboot s = .next s) ∧
    (s.inReset = false → ∃ t, exec .reboot s = .next t ∧ t.boot = { State.reset.boot with held := false, step := 1 } ∧
      (∀ a, a ≠ HDF_IMAGE_STS_PHASE.addr → t.word a = resetWord a) ∧ t.fld HDF_IMAGE_STS_PHASE = 1 ∧ t.clus = [] ∧
      t.mem.bytes = s.mem.bytes ∧ t.fuses = s.fuses)) ∧
  (∀ s : State, ∃ t, exec .mainPowerRemoval s = .next t ∧ t.boot = State.reset.boot ∧ t.regs = [] ∧ t.mem = State.reset.mem ∧
    t.thermtrip = false ∧ t.pwr.powered = false ∧ t.fuses = s.fuses)

/-- In B2, FLASH_DATA_ARRIVAL: no data stops boot with reason 0x01. A header faults 0x02 by its form or 0x03 by its device, else
is kept; then the table; then the signature block faults 0x04 by key, 0x05 by signature, 0x06 by SVN below SVN_MIN, 0x08 by
table, else is kept; then a section faults 0x07 by length or SHA-384, and the last one faults 0x08 at the first section with a
bad format or ends B2. A fault of copy A records REASON_A and SECTION and reads copy B from its header; of copy B it records
REASON_B and stops boot: FAILED, PHASE 0xF. Outside B2 nothing changes. CAPABILITY_WORD in B3 before EARLY is applied is shown
in HDF_CAP; without a Required function boot stops with 0x0A, with EARLY read and good it is applied. -/
def Obligations.ImageChecks : Prop :=
  let fell := fun (s t : State) (code sect : Nat) =>
    (s.boot.copy = 1 → t.boot.copy = 2 ∧ t.boot.step = 2 ∧ t.boot.hdr = [] ∧ t.boot.table = [] ∧ t.boot.sig = [] ∧ t.boot.got = [] ∧
      t.fld HDF_IMAGE_STS_REASON_A = code ∧ t.fld HDF_IMAGE_STS_SECTION = sect ∧ t.fld HDF_IMAGE_STS_COPY = 2) ∧
    (s.boot.copy = 2 → t.boot.step = 15 ∧ t.flag HDF_IMAGE_STS_FAILED = true ∧ t.fld HDF_IMAGE_STS_PHASE = 15 ∧
      t.fld HDF_IMAGE_STS_REASON_B = code ∧ t.fld HDF_IMAGE_STS_SECTION = sect)
  let stops := fun (s t : State) (code : Nat) => t.boot.step = 15 ∧ t.flag HDF_IMAGE_STS_FAILED = true ∧ t.fld HDF_IMAGE_STS_PHASE = 15 ∧
    t.fld (if s.boot.copy = 2 then HDF_IMAGE_STS_REASON_B else HDF_IMAGE_STS_REASON_A) = code
  (∀ (s : State) (x : FlashPiece), s.boot.step ≠ 2 ∨ s.boot.b2done = true → exec (.flashDataArrival x) s = .next s) ∧
  (∀ s : State, s.boot.step = 2 → s.boot.b2done = false →
    (∃ t, exec (.flashDataArrival .none) s = .next t ∧ stops s t 0x01) ∧
    (∀ b : List Byte, s.boot.hdr = [] →
      (hdrOk b = false → ∃ t, exec (.flashDataArrival (.header b)) s = .next t ∧ fell s t 0x02 0) ∧
      (hdrOk b = true → s.devOk b = false → ∃ t, exec (.flashDataArrival (.header b)) s = .next t ∧ fell s t 0x03 0) ∧
      (hdrOk b = true → s.devOk b = true → exec (.flashDataArrival (.header b)) s = .next (s.withBoot { s.boot with hdr := b }))) ∧
    (∀ b : List Byte, s.boot.hdr ≠ [] → s.boot.table = [] →
      exec (.flashDataArrival (.table b)) s = .next (s.withBoot { s.boot with table := b })) ∧
    (∀ b : List Byte, s.boot.table ≠ [] → s.boot.sig = [] → ∃ t, exec (.flashDataArrival (.signature b)) s = .next t ∧
      (s.keyOk s.boot.hdr b = false → fell s t 0x04 0) ∧
      (s.keyOk s.boot.hdr b = true → sigOk s.boot.hdr s.boot.table b = false → fell s t 0x05 0) ∧
      (s.keyOk s.boot.hdr b = true → sigOk s.boot.hdr s.boot.table b = true → at_ s.boot.hdr 0x0C 4 < s.fuses.svnMin → fell s t 0x06 0) ∧
      (s.keyOk s.boot.hdr b = true → sigOk s.boot.hdr s.boot.table b = true → s.fuses.svnMin ≤ at_ s.boot.hdr 0x0C 4 →
        (tableOk s.boot.hdr s.boot.table = false → fell s t 0x08 0) ∧
        (tableOk s.boot.hdr s.boot.table = true → t = s.withBoot { s.boot with sig := b }))) ∧
    (∀ (i : Nat) (b : List Byte), s.boot.sig ≠ [] → i < sectCount s.boot.hdr → i ∉ s.boot.got → i < 256 →
      let good := b.length = (sectAt s.boot.table i).len ∧ Config.sha384 b = (sectAt s.boot.table i).hash
      let u := s.withBoot { s.boot with got := s.boot.got ++ [i], data := Tbl.set (fun _ => []) s.boot.data i b }
      ∃ t, exec (.flashDataArrival (.sect i b)) s = .next t ∧
        (¬ good → fell s t 0x07 i) ∧
        (good → i ≠ 0 → s.boot.got.length + 1 ≠ sectCount s.boot.hdr → t = u) ∧
        (good → i ≠ 0 → s.boot.got.length + 1 = sectCount s.boot.hdr → s.boot.b3 ≠ .done →
          (u.badSect = none → t = u.withBoot { u.boot with b2done := true }) ∧
          (∀ j, u.badSect = some j → j < 256 → fell s t 0x08 j)))) ∧
  (∀ (s : State) (w : BitVec 32),
    (s.boot.step ≠ 2 ∨ s.boot.b3 ≠ .run ∨ s.early.applied = true → exec (.capabilityWord w) s = .next s) ∧
    (s.boot.step = 2 → s.boot.b3 = .run → s.early.applied = false → ∃ t, exec (.capabilityWord w) s = .next t ∧
      (t.boot.copy = s.boot.copy → t.fld HDF_CAP_CAP = w.toNat) ∧
      (w.toNat % 8 ≠ 7 → stops s t 0x0A) ∧
      (w.toNat % 8 = 7 → 0 ∉ s.boot.got → t = s.setFld HDF_CAP_CAP w.toNat) ∧
      (w.toNat % 8 = 7 → 0 ∈ s.boot.got → let d := Tbl.get (fun _ => []) s.boot.data 0
        (earlyOk d = true → t.early.applied = true ∧ t.early.numVfs = at_ d 6 1 ∧ t.early.bar2Log2 = at_ d 7 1 ∧
          t.early.msixPf = at_ d 10 2 ∧ t.early.msixVf = at_ d 12 2 ∧ t.boot = s.boot) ∧
        (earlyOk d = false → fell s t 0x08 0))))

/-- BOOT_STEP_COMPLETION that ends well: B1, once PLL and OCLK are ready, starts B2 on copy A; B3 ends with the link up; B4
starts B5; B5 starts B6; B6 first trains the enabled ports and, once every one is UP or DOWN, enters B7; while the device is
held nothing changes. A stack fault in B5 stops boot with 0x0B, a far-tier fault with 0x0C, a UCIe fault in B3 or early B6 with
0x0D. LINK_WAIT_EXPIRY in B6 makes the ports still training DOWN and enters B7. POLL_TIMEOUT of a waiting poll of copy B stops
boot with 0x10. STAGE_GO while WAIT_HOST = 1 clears it. HOST_WAIT_TIMEOUT in B8 while something is awaited stops boot with 0x0F.
DMA_DONE or PEER_READ_RETRY of a manifest entry whose bytes arrive with the right hash and are written finishes the entry, a
wrong hash stops boot with 0x0E, and a peer read that is denied waits. Everywhere else these commands change nothing. -/
def Obligations.BootSteps : Prop :=
  let stops := fun (s t : State) (code sect : Nat) => t.boot.step = 15 ∧ t.flag HDF_IMAGE_STS_FAILED = true ∧
    t.fld HDF_IMAGE_STS_PHASE = 15 ∧ t.fld HDF_IMAGE_STS_SECTION = sect ∧
    t.fld (if s.boot.copy = 2 then HDF_IMAGE_STS_REASON_B else HDF_IMAGE_STS_REASON_A) = code
  (∀ (s : State) (c0 c1 : BitVec 9), let c := Instr.bootStepCompletion (.ok c0 c1)
    (s.inReset = true ∨ s.boot.step = 0 ∨ s.boot.step = 3 ∨ s.boot.step = 8 ∨ 10 ≤ s.boot.step → exec c s = .next s) ∧
    (s.inReset = false →
      (s.boot.step = 1 → (s.b1Done = false → exec c s = .next s) ∧
        (s.b1Done = true → ∃ t, exec c s = .next t ∧ t.boot.step = 2 ∧ t.boot.copy = 1 ∧ t.fld HDF_IMAGE_STS_COPY = 1 ∧ t.boot.hdr = [])) ∧
      (s.boot.step = 2 → (s.boot.b3 ≠ .run ∨ s.early.applied = false → exec c s = .next s) ∧
        (s.boot.b3 = .run → s.early.applied = true → (s.boot.b2done = true → s.sectOf 2 = none) →
          ∃ t, exec c s = .next t ∧ t.boot.b3 = .done ∧ t.boot.linked = true ∧ t.boot.step = (if s.boot.b2done then 4 else 2))) ∧
      (s.boot.step = 4 → ∃ t, exec c s = .next t ∧ t.boot = { s.boot with step := 5 } ∧ t.fld HDF_IMAGE_STS_PHASE = 5) ∧
      (s.boot.step = 5 → ∃ t, exec c s = .next t ∧ t.boot.step = 6 ∧ t.boot.sub = 0 ∧ t.fld HDF_IMAGE_STS_PHASE = 6) ∧
      (s.boot.step = 6 → (s.boot.sub = 0 → ∃ t, exec c s = .next t ∧ t.boot = { s.boot with sub := 1 }) ∧
        (s.boot.sub ≠ 0 → s.portsSettled = true → exec c s = .next s.enterB7) ∧
        (s.boot.sub ≠ 0 → s.portsSettled = false → exec c s = .next s)))) ∧
  (∀ s : State,
    (s.boot.step = 5 → (∃ t, exec (.bootStepCompletion .stack) s = .next t ∧ stops s t 0x0B 0) ∧
      (∃ t, exec (.bootStepCompletion .far) s = .next t ∧ stops s t 0x0C 0)) ∧
    (s.boot.step ≠ 5 → exec (.bootStepCompletion .stack) s = .next s ∧ exec (.bootStepCompletion .far) s = .next s) ∧
    ((s.boot.step = 2 ∧ s.boot.b3 = .run) ∨ (s.boot.step = 6 ∧ s.boot.sub = 0) →
      ∃ t, exec (.bootStepCompletion .ucie) s = .next t ∧ stops s t 0x0D 0) ∧
    (s.boot.step ≠ 6 ∨ s.boot.sub ≠ 1 → exec .linkWaitExpiry s = .next s) ∧
    (s.boot.step = 6 → s.boot.sub = 1 → ∃ u : State, exec .linkWaitExpiry s = .next u.enterB7 ∧ u.boot = s.boot ∧
      ∀ p : Fin 8, s.flag (LNK_CTL_EN p) = true → u.flag (LNK_STS_TRAINING p) = false ∧
        (s.flag (LNK_STS_TRAINING p) = true → (u.linkOf p).down = true ∧ u.flag (LNK_STS_DOWN p) = true)) ∧
    (s.boot.step ≠ 7 ∨ s.boot.sub ≠ 1 → exec .pollTimeout s = .next s) ∧
    (s.boot.step = 7 → s.boot.sub = 1 → s.boot.copy = 2 →
      ∃ t, exec .pollTimeout s = .next t ∧ stops s t 0x10 (((s.sectOf 10).map (fun e => e.1)).getD 0 % 256)) ∧
    (s.flag HDF_IMAGE_STS_WAIT_HOST = false → exec .stageGo s = .next s) ∧
    (s.flag HDF_IMAGE_STS_WAIT_HOST = true → ∃ t, exec .stageGo s = .next t ∧ t.flag HDF_IMAGE_STS_WAIT_HOST = false ∧ t.boot.staged = true) ∧
    (let waits := s.flag HDF_IMAGE_STS_WAIT_HOST = true ∨ (∃ e ∈ s.boot.man, e.kind = 3 ∧ e.fin = false);
      (s.boot.step = 8 → waits → ∃ t, exec .hostWaitTimeout s = .next t ∧ stops s t 0x0F 0) ∧
      (s.boot.step ≠ 8 ∨ ¬ waits → exec .hostWaitTimeout s = .next s))) ∧
  (∀ (s : State) (d : Fin 8) (i : Nat) (e : ManEnt), (s.dmaOf d).entry = some i → s.boot.man[i]? = some e →
    ∀ c : Instr, (c = .dmaDone d ∧ s.flag (DMA_STS_BUSY d) = true) ∨ (c = .peerReadRetry d ∧ e.kind = 3) →
      let r := s.manRead e
      ∃ t, exec c s = .next t ∧
        (∀ a, e.kind = 3 → r.1 = .denied a → t.boot = s.boot ∧ (t.dmaOf d).entry = some i) ∧
        (∀ b x, r.1 = .ok b → (r.2.localWrite (r.2.sysReq 7 0) true e.dst b).1 = .ok x →
          (Config.sha384 b = e.hash → (t.boot.man[i]?).map (fun z => z.fin) = some true) ∧
          (Config.sha384 b ≠ e.hash → stops s t 0x0E (i % 256)))) ∧
  (∀ (s : State) (d : Fin 8), (∀ i e, (s.dmaOf d).entry = some i → s.boot.man[i]? = some e → e.kind ≠ 3) →
    exec (.peerReadRetry d) s = .next s)

/-- BOOT_STEP_COMPLETION at the end of B9: SEALED and RUN are set, PHASE shows 10, the beat generator runs with boundary count
0, BEAT_COUNT 0 and the next boundary P ticks ahead; every cluster of an INGRESS, LAYER, EGRESS or ASSAY partition whose PCTL_CMD
is RUN runs in Monitor from twice PCTL_PROG.ENTRY, with RUNNING set; an OFF partition is in A3, and its stack, where no frame is
held anywhere and every PCTL_CMD is RUN, in self-refresh; the controls active in beat 0 that are marked in PCTL_LOSS_SEEN show
there; one class table more is built; and with COMMIT_SVN set SVN_MIN is at least the image's SVN as far as the fuses go. That a
started cluster's translation context is on is a reading (log entry 33). -/
def Obligations.SealAndRun : Prop :=
  ∀ (s : State) (c0 c1 : BitVec 9), s.inReset = false → s.boot.step = 9 → s.running = false →
    ∃ t, exec (.bootStepCompletion (.ok c0 c1)) s = .next t ∧
      t.flag HDF_SEAL_SEALED = true ∧ t.flag HDF_SEAL_RUN = true ∧ t.boot.step = 10 ∧ t.fld HDF_IMAGE_STS_PHASE = 10 ∧
      t.running = true ∧ t.beat.idx = 0 ∧ t.fld BEAT_COUNT_COUNT = 0 ∧ t.beat.placed = t.beat.bk + t.beatP ∧ t.beat.bk = t.beat.tick ∧
      t.adm.built.length = s.adm.built.length + 1 ∧
      (∀ p : Part, 1 ≤ s.role p → s.role p ≤ 4 → s.fld (PCTL_CMD_CMD p) = 0 → t.flag (PCTL_STS_RUNNING p) = true ∧ ∀ k : Fin 20,
        (t.clu p k).running = true ∧ (t.clu p k).mon = true ∧ (t.clu p k).inReset = false ∧ (t.clu p k).tctxEn = true ∧
        (t.clu p k).pc = BitVec.ofNat 64 (2 * s.fld (PCTL_PROG_ENTRY p))) ∧
      (∀ p : Part, s.role p = 0 → t.fld (PWR_PSTATE_STATE p) = 3 ∧
        (s.plats = [] → (∀ q : Part, s.fld (PCTL_CMD_CMD q) = 0) → t.flag (STK_STS_SELF_REFRESH p) = true)) ∧
      (∀ p : Part, (t.act (PCTL_NUM_FTZ_IN p) = 1 → t.flag (PCTL_LOSS_SEEN_FTZ_IN p) = true) ∧
        (t.act (PCTL_NUM_SATFP8 p) = 1 → t.flag (PCTL_LOSS_SEEN_SATFP8 p) = true)) ∧
      (s.boot.flags.testBit 3 = true → min (s.fld HDF_SVN_SVN) 255 ≤ t.fuses.svnMin)

/-- CONFIGURATION_REQUEST is answered with Retry Status before EARLY is applied, Unsupported Request of a function that does not
exist, the product's DEVICE_ID (with 0x80 set for a virtual function), the subsystem identity of EARLY, or a success that has
set MSI-X Enable and Function Mask; of other contents four bytes, open. HOST_REGISTER_REQUEST while the device is held or module
0 is lost is not answered; a function in D3hot and a virtual function bound to no partition get Unsupported Request; an aligned
4-byte read of a 32-bit register of BAR0 gets the register's value; a 4-byte write of an MSI-X table word stores it. Of a device
that is not held, SETDASA to the static address gives the dynamic address, and so does ENTDAA where there is none.
PIN_FUNCTION_SWITCH with another code, where the pin is not one of
0 to 5 after the seal, sets FUNC and puts the pin into its switch; after the seal those pins keep FUNC and a violation is
counted. PIN_SWITCH_END ends the switch. GPIO_EDGE changes the board's level; at a pin in GPIO function that does not drive, a
level other than the one last seen sets RISE or FALL of the pin and nothing else of PIN_GPIO_EDGE changes; at a pin in another
function neither. A device that is held takes no address and no pin change but the board's level. -/
def Obligations.HostRequestsAndPins : Prop :=
  (
  (∀ (s : State) (fn : Fin 9) (k : CfgOp),
    (s.inReset = true → exec (.configurationRequest fn k) s = .next s) ∧
    (s.inReset = false → s.early.applied = false → exec (.configurationRequest fn k) s = .next (s.send (.completion .retry))) ∧
    (s.inReset = false → s.early.applied = true → s.early.numVfs < fn.val →
      exec (.configurationRequest fn k) s = .next (s.send (.completion .unsupported))) ∧
    (s.inReset = false → s.early.applied = true → fn.val ≤ s.early.numVfs →
      (k = .device → exec (.configurationRequest fn k) s =
        .next (s.send (.completion (.ok (bytesLE 2 (s.deviceId ||| (if fn.val = 0 then 0 else 0x80))))))) ∧
      (k = .subsystem → exec (.configurationRequest fn k) s =
        .next (s.send (.completion (.ok (bytesLE 2 s.early.subsysVendor.toNat ++ bytesLE 2 s.early.subsysId.toNat))))) ∧
      (∀ en mk, k = .msixControl en mk → ∃ t, exec (.configurationRequest fn k) s = .next t ∧ .completion (.ok []) ∈ t.out ∧
        (t.msixOf fn).enabled = en ∧ (t.msixOf fn).fmask = mk ∧ (t.msixOf fn).table = (s.msixOf fn).table) ∧
      (k = .other → ∃ t d, exec (.configurationRequest fn k) s = .next t ∧ t.out = s.out ++ [.completion (.ok d)] ∧ d.length = 4))) ∧
  (∀ (s : State) (fn : Fin 9) (bar4 : Bool) (off : BitVec 26) (op : MemOp),
    (s.inReset = true ∨ s.ucieLost = true → exec (.hostRegisterRequest fn bar4 off op) s = .next s) ∧
    (s.inReset = false → s.ucieLost = false → fn.val ≠ 0 → s.vfPart (fn.val - 1) = none →
      exec (.hostRegisterRequest fn true off op) s = .next (s.send (.completion .unsupported)) ∧
      exec (.hostRegisterRequest fn false off op) s = .next (s.send (.completion .unsupported))) ∧
    (s.inReset = false → s.ucieLost = false → fn.val ∈ s.pwr.d3 →
      exec (.hostRegisterRequest fn bar4 off op) s = .next (s.send (.completion .unsupported))) ∧
    (s.inReset = false → s.ucieLost = false → 0 ∉ s.pwr.d3 → off.toNat % 4 = 0 → (s.masterOf .pf).held = none →
      (s.masterOf .pf).shadow = none → ∀ r, regAt off.toNat = some r → r.row.pair = false → wakes off.toNat = none →
        ∃ t, exec (.hostRegisterRequest 0 false off (.read 4)) s = .next t ∧
          t.out = s.out ++ [.completion (.ok (bytesLE 4 (s.wordAt off.toNat)))] ∧ t.regs = s.regs) ∧
    (s.inReset = false → s.ucieLost = false → 0 ∉ s.pwr.d3 → off.toNat % 4 = 0 → off.toNat < 16 * s.early.msixPf → off.toNat < 0x2000 →
      off.toNat % 16 ≠ 12 → ∀ w : BitVec 32, ∃ t, exec (.hostRegisterRequest 0 true off (.write (bytesLE 4 w.toNat))) s = .next t ∧
        Tbl.get msixWordReset (t.msixOf 0).table (off.toNat / 4) = w)) ∧
  (∀ (s : State) (st dyn : BitVec 7),
    (s.inReset = false →
      exec (.setdasa st dyn) s = .next (if st = 0x48#7 + s.pins.strap.zeroExtend 7 then s.withPins { s.pins with i3cDyn := some dyn } else s) ∧
      exec (.entdaa dyn) s = .next (if s.pins.i3cDyn = none then s.withPins { s.pins with i3cDyn := some dyn } else s)) ∧
    (s.inReset = true → exec (.setdasa st dyn) s = .next s ∧ exec (.entdaa dyn) s = .next s))) ∧
  (
  (∀ (s : State) (n : Fin 16) (f : BitVec 3), s.inReset = true →
    exec (.pinFunctionSwitch n f) s = .next s ∧ exec (.pinSwitchEnd n) s = .next s) ∧
  (∀ (s : State) (n : Fin 16) (f : BitVec 3), s.inReset = false → f.toNat ≠ s.fld (PIN_MUX_FUNC n) →
    (6 ≤ n.val ∨ s.flag HDF_SEAL_SEALED = false → ∃ t, exec (.pinFunctionSwitch n f) s = .next t ∧ t.fld (PIN_MUX_FUNC n) = f.toNat ∧
      n.val ∈ t.pins.switching ∧ (∀ k : Fin 16, k ≠ n → t.fld (PIN_MUX_FUNC k) = s.fld (PIN_MUX_FUNC k))) ∧
    (n.val < 6 → s.flag HDF_SEAL_SEALED = true → ∃ t, exec (.pinFunctionSwitch n f) s = .next t ∧ t.pins = s.pins ∧
      t.fld (PIN_MUX_FUNC n) = s.fld (PIN_MUX_FUNC n) ∧ t.fld HDF_SEAL_VIOL_CNT = min (s.fld HDF_SEAL_VIOL_CNT + 1) 0xFFFF)) ∧
  (∀ (s : State) (n : Fin 16), s.inReset = false → ∃ t, exec (.pinSwitchEnd n) s = .next t ∧ t.pins.switching = s.pins.switching.erase n.val ∧
    t.pins.level = s.pins.level ∧ t.fld (PIN_MUX_FUNC n) = s.fld (PIN_MUX_FUNC n)) ∧
  (∀ (s : State) (n : Fin 16) (v : Bool), ∃ t, exec (.gpioEdge n v) s = .next t ∧
    (∀ k : Fin 16, t.pins.level.getLsbD k = (if k = n then v else s.pins.level.getLsbD k)) ∧
    (s.inReset = true → t.pins.seen = s.pins.seen ∧ t.regs = s.regs) ∧
    (s.inReset = false → s.isGpio n = true → s.fbit PIN_GPIO_OE_OE n = false → t.pins.seen.getLsbD n = v ∧
      t.fbit PIN_GPIO_EDGE_RISE n = (s.fbit PIN_GPIO_EDGE_RISE n || (v && !s.pins.seen.getLsbD n)) ∧
      t.fbit PIN_GPIO_EDGE_FALL n = (s.fbit PIN_GPIO_EDGE_FALL n || (!v && s.pins.seen.getLsbD n))) ∧
    (s.isGpio n = false → s.pins.seen.getLsbD n = false → t.regs = s.regs)))

/-- In reset or without UCIe module 0 a BAR2_REQUEST is not answered (the model's choice, log entry 117); before the seal,
beyond the BAR, of a function that is not bound, or of one in D3hot is answered with Unsupported Request. The physical function's
offset is the
local address, with MMU_HOST_CID; that of a virtual function bound to partition p lies in stack p, with its tenant's CID. A
claimed read of one granule of a stack without error completes with the newest bytes, a write that covers no COMMIT is posted:
each byte then reads as written, every other byte as before; without the claim either gets a completer abort and memory is as
before. What is sent is exact where no monitor counts traffic. -/
def Obligations.HostMemoryWindow : Prop :=
  (∀ (s : State) (fn : Fin 9) (off : BitVec 40) (n : Nat),
    (s.flag HDF_SEAL_SEALED = false ∨ fn.val ∈ s.pwr.d3 ∨ (fn.val = 0 ∧ 2 ^ s.early.bar2Log2 < off.toNat + n) ∨ (fn.val ≠ 0 ∧ s.vfPart (fn.val - 1) = none) →
      s.bar2Map fn off.toNat n = none) ∧
    (s.inReset = false → s.flag HDF_SEAL_SEALED = true → fn.val ∉ s.pwr.d3 →
      (fn.val = 0 → off.toNat + n ≤ 2 ^ s.early.bar2Log2 →
        s.bar2Map fn off.toNat n = some (off.toNat, ⟨s.fld MMU_HOST_CID_CID, 4, 0, s.chip, sourceStop 4 0⟩)) ∧
      (∀ p, fn.val ≠ 0 → fn.val ≤ s.early.numVfs → s.early.vfBar2Log2 ≠ 0 → off.toNat + n ≤ 2 ^ s.early.vfBar2Log2 →
        off.toNat + n ≤ 24 * 2 ^ 30 → s.vfPart (fn.val - 1) = some p →
        s.bar2Map fn off.toNat n = some (p * 2 ^ 35 + off.toNat, ⟨s.fld (PCTL_TENANT_CID p), 4, p, s.chip, sourceStop 4 0⟩))) ∧
    (s.inReset = true ∨ s.ucieLost = true → ∀ op, exec (.bar2Request fn off op) s = .next s) ∧
    (s.inReset = false → s.ucieLost = false → s.bar2Map fn off.toNat n = none →
      exec (.bar2Request fn off (.read n)) s = .next (s.send (.completion .unsupported))) ∧
    (∀ d : List Byte, s.inReset = false → s.ucieLost = false → s.bar2Map fn off.toNat d.length = none →
      exec (.bar2Request fn off (.write d)) s = .next (s.send (.completion .unsupported)))) ∧
  (∀ (s : State) (fn : Fin 9) (off : BitVec 40) (a k : Nat) (q : Req) (d : List Byte), s.bar2Map fn off.toNat d.length = some (a, q) → s.ucieLost = false →
    s.loc a = .stack k → s.role k ≠ 0 → oneGranule a d.length → s.pmuOff = true →
    (s.claimed q a true false = true → s.goodGranule a → ∃ t, exec (.bar2Request fn off (.read d.length)) s = .next t ∧
      t.mem.bytes = s.mem.bytes ∧ t.out = s.out ++ [.completion (.ok ((List.range d.length).map (fun i => s.stackByte (a + i))))]) ∧
    (s.claimed q a false true = true → s.commitSlots a d.length = [] → (s.mem.wcbOf (wcbKey k (groupOf a))).accepts ⟨a, d, 0⟩ = true →
      (∀ e ∈ (s.mem.wcbOf (wcbKey k (groupOf a))).entries, e.line = a / 128 → e.draining = none) →
      ∃ t, exec (.bar2Request fn off (.write d)) s = .next t ∧ t.out = s.out ∧
        (∀ i, i < d.length → t.stackByte (a + i) = d.getD i 0) ∧
        (∀ b, b < a ∨ a + d.length ≤ b → t.stackByte b = s.stackByte b)) ∧
    (s.claimed q a true false = false → ∃ t, exec (.bar2Request fn off (.read d.length)) s = .next t ∧ .completion .abort ∈ t.out ∧
      t.mem = s.mem ∧ t.flag CLM_STS_DENY = true) ∧
    (s.claimed q a false true = false → s.commitSlots a d.length = [] →
      ∃ t, exec (.bar2Request fn off (.write d)) s = .next t ∧ .completion .abort ∈ t.out ∧ t.mem = s.mem))

/-- GO on an idle engine by the physical function or Headframe makes it BUSY and remembers whether it uses the SYSTEM CID; on a
busy engine it starts nothing. DMA_DONE of an engine that is not BUSY changes nothing; of a transfer with no length, or a length
or address that is no multiple of 64, it ends with DONE, ERR and CODE 5; of 64 good bytes between host addresses without a Check
Unit it ends with DONE and CODE 0 and the bytes at the destination are those of the source. MSIX_UNMASK clears the mask bit; a
pending message of an enabled, unmasked function in D0 is then sent once. EVENT_LOG_WRITE, of a device whose clocks have not
stopped, with EN = 0 or a failed entry waiting
holds the event, losing the oldest of 64 with LOST one more. With EN = 1, where host memory takes it, the entry of Table 20-5
with SEQ = HEAD is written at BASE + 32 × (HEAD mod 4096) and HEAD advances; in a full ring ACK advances too and LOST counts
one. A write of EVT_LOG_ACK no more than 4096 behind HEAD sets it and arms vector 0; another sets ACK_BAD. EVT_EN_WRITE by a
master that OWNER lets: EN takes the value; set to 1 the held events go to the ring in order. The INFO of the event is the
command's. -/
def Obligations.DmaMessagesAndEvents : Prop :=
  (
  (∀ (s : State) (m : RegMaster) (d : Fin 8), s.writesAs m → s.flag (DMA_CTL_GO d) = false →
    (s.flag (DMA_STS_BUSY d) = false → ∃ t, exec (.go m d) s = .next t ∧ t.flag (DMA_STS_BUSY d) = true ∧
      t.dmaOf d = ⟨decide (m = .headframe), none⟩ ∧ t.fld (DMA_LEN_LEN d) = s.fld (DMA_LEN_LEN d)) ∧
    (s.flag (DMA_STS_BUSY d) = true → ∃ t, exec (.go m d) s = .next t ∧ t.dma = s.dma ∧ t.flag (DMA_STS_BUSY d) = true)) ∧
  (∀ (s : State) (d : Fin 8),
    let src := s.dword (DMA_SRC_ADDR d).addr
    let dst := s.dword (DMA_DST_ADDR d).addr
    let len := s.fld (DMA_LEN_LEN d)
    (s.flag (DMA_STS_BUSY d) = false → exec (.dmaDone d) s = .next s) ∧
    (s.flag (DMA_STS_BUSY d) = true → (s.dmaOf d).entry = none →
      (len = 0 ∨ len % 64 ≠ 0 ∨ src % 64 ≠ 0 ∨ dst % 64 ≠ 0 → ∃ t, exec (.dmaDone d) s = .next t ∧ t.flag (DMA_STS_BUSY d) = false ∧
        t.flag (DMA_STS_DONE d) = true ∧ t.flag (DMA_STS_ERR d) = true ∧ t.fld (DMA_STS_CODE d) = 5 ∧ t.mem = s.mem) ∧
      (len = 64 → src % 64 = 0 → dst % 64 = 0 → s.flag (DMA_CTL_SRC_HOST d) = true → s.flag (DMA_CTL_DST_HOST d) = true →
        s.dmaCtxs 0 d = [] → s.dmaCtxs 1 d = [] → s.hostFails src 64 = false → s.hostFails dst 64 = false →
        ∃ t, exec (.dmaDone d) s = .next t ∧ t.flag (DMA_STS_BUSY d) = false ∧ t.flag (DMA_STS_DONE d) = true ∧
          t.flag (DMA_STS_ERR d) = false ∧ t.fld (DMA_STS_CODE d) = 0 ∧ t.hostMem = Mem.write s.hostMem dst (Mem.read s.hostMem src 64)))) ∧
  (∀ (s : State) (fn : Fin 9) (v : Fin 256), v.val < s.msixCount fn → 16 * v.val + 12 < pbaBase fn →
    ∃ t, exec (.msixUnmask fn v) s = .next t ∧ Tbl.get msixWordReset (t.msixOf fn).table (4 * v.val + 3) = 0 ∧
      (v.val ∉ (s.msixOf fn).pend → t.out = s.out) ∧
      (v.val ∈ (s.msixOf fn).pend → (s.msixOf fn).enabled = true → (s.msixOf fn).fmask = false → fn.val ∉ s.pwr.d3 → s.ucieLost = false →
        t.out = s.out ++ [(s.msixOf fn).msg fn v] ∧ (t.msixOf fn).pend = (s.msixOf fn).pend.erase v.val))) ∧
  (
  (∀ (s : State) (e : EvArgs), s.tripped = false →
    let ev : Event := ⟨e.code.toNat, e.block.toNat, e.sev.toNat, s.beat.ts, e.info0, e.info1⟩
    let head := s.fld EVT_LOG_HEAD_SEQ
    let a := s.fld EVT_LOG_BASE_ADDR * 4096 + 32 * (head % 4096)
    (s.flag EVT_CTL_EN = false ∨ s.evt.stopped = true → ∃ t, exec (.eventLogWrite e) s = .next t ∧
      t.evt.held = (if 64 ≤ s.evt.held.length then s.evt.held.drop 1 else s.evt.held) ++ [ev] ∧
      t.fld EVT_LOST_COUNT = (if 64 ≤ s.evt.held.length then min (s.fld EVT_LOST_COUNT + 1) 0xFFFFFFFF else s.fld EVT_LOST_COUNT)) ∧
    (s.flag EVT_CTL_EN = true → s.evt.stopped = false → s.hostFails a 32 = false →
      ∃ t, exec (.eventLogWrite e) s = .next t ∧ t.hostMem = Mem.write s.hostMem a (ev.bytes head) ∧
        t.fld EVT_LOG_HEAD_SEQ = (head + 1) % 2 ^ 32 ∧ t.evt.held = s.evt.held ∧
        ((head + 2 ^ 32 - s.fld EVT_LOG_ACK_SEQ) % 2 ^ 32 = 4096 →
          t.fld EVT_LOG_ACK_SEQ = (s.fld EVT_LOG_ACK_SEQ + 1) % 2 ^ 32 ∧ t.fld EVT_LOST_COUNT = min (s.fld EVT_LOST_COUNT + 1) 0xFFFFFFFF) ∧
        ((head + 2 ^ 32 - s.fld EVT_LOG_ACK_SEQ) % 2 ^ 32 ≠ 4096 →
          t.fld EVT_LOG_ACK_SEQ = s.fld EVT_LOG_ACK_SEQ ∧ t.fld EVT_LOST_COUNT = s.fld EVT_LOST_COUNT))) ∧
  (∀ (s : State) (m : RegMaster) (v : BitVec 32), s.writesAs m →
    ∃ t, exec (.evtLogAckWrite m v) s = .next t ∧
      ((s.fld EVT_LOG_HEAD_SEQ + 2 ^ 32 - v.toNat) % 2 ^ 32 ≤ 4096 → t.fld EVT_LOG_ACK_SEQ = v.toNat ∧ t.evt.armed = true) ∧
      (4096 < (s.fld EVT_LOG_HEAD_SEQ + 2 ^ 32 - v.toNat) % 2 ^ 32 → t.flag EVT_STS_ACK_BAD = true ∧
        (s.flag EVT_CTL_EN = false → t.fld EVT_LOG_ACK_SEQ = s.fld EVT_LOG_ACK_SEQ))) ∧
  (∀ (s : State) (m : RegMaster), s.writesAs m → s.fld EVT_CTL_OWNER = 0 ∨ s.fld EVT_CTL_OWNER = masterCode m →
    (∃ t, exec (.evtEnWrite m false) s = .next t ∧ t.flag EVT_CTL_EN = false ∧ t.evt = s.evt ∧ t.flag EVT_CTL_IRQ_EN = s.flag EVT_CTL_IRQ_EN) ∧
    (s.hostErr = [] → s.ucieLost = false → ∃ t, exec (.evtEnWrite m true) s = .next t ∧ t.flag EVT_CTL_EN = true ∧ t.evt.held = [] ∧ t.evt.stopped = false ∧
      t.fld EVT_LOG_HEAD_SEQ = (s.fld EVT_LOG_HEAD_SEQ + s.evt.held.length) % 2 ^ 32)))

/-- A 4-byte REGISTER_WRITE by Headframe or, after the seal, the physical function: a LIVE field (ADM_WM_CFG) takes its bits; a
BEAT field (ADM_CTL.BODY_DL) takes them while its active value stays, and a SEALED one beside it keeps its value after the seal,
counting a violation if it would change; W1C bits (ADM_WM_STS) clear where 1 is written. A write at reserved offsets changes
nothing; one wider than 8 bytes, or misaligned across 8, changes no register outside the event block. The low half of a pair
alone changes no register, and the high half after it writes both in one. Before the seal the host's write outside HDF, EVT and
SEC is refused and counted. A write of a cluster that R263 does not allow changes nothing, and its PAIR_LOW_READ is aborted.
PAIR_LOW_READ of BEAT_TS by Headframe
or the physical function, with the device out of reset, is answered with the low word of the timestamp and fills the master's
shadow with the high word; the shadow answers a read of the high half, whatever the timestamp is by then. At a reserved offset
it is answered with zeros. A register-space load of a cluster at Tenant level is denied. -/
def Obligations.RegisterAccesses : Prop :=
  (
  (∀ (s : State) (m : RegMaster) (v : BitVec 32), s.writesAs m →
    (∃ t, exec (.registerWrite m 0x40020#26 (bytesLE 4 v.toNat)) s = .next t ∧ t.fld ADM_WM_CFG_LEVEL = bitsOf v.toNat 0 12 ∧
      t.fld ADM_WM_CFG_HYST = bitsOf v.toNat 12 12 ∧ t.fld ADM_WM_CFG_IRQ_EN = bitsOf v.toNat 24 1) ∧
    (∃ t, exec (.registerWrite m 0x40000#26 (bytesLE 4 v.toNat)) s = .next t ∧ t.fld ADM_CTL_BODY_DL = bitsOf v.toNat 8 8 ∧
      t.act ADM_CTL_BODY_DL = s.act ADM_CTL_BODY_DL ∧
      (s.flag HDF_SEAL_SEALED = true → t.fld ADM_CTL_RING_STRIDE = s.fld ADM_CTL_RING_STRIDE ∧
        t.fld HDF_SEAL_VIOL_CNT = (if bitsOf v.toNat 4 4 = s.fld ADM_CTL_RING_STRIDE ∧ bitsOf v.toNat 2 1 = s.fld ADM_CTL_PARITY_EN
          then s.fld HDF_SEAL_VIOL_CNT else min (s.fld HDF_SEAL_VIOL_CNT + 1) 0xFFFF)) ∧
      (s.flag HDF_SEAL_SEALED = false → t.fld ADM_CTL_RING_STRIDE = bitsOf v.toNat 4 4)) ∧
    (∃ t, exec (.registerWrite m 0x40024#26 (bytesLE 4 v.toNat)) s = .next t ∧
      t.flag ADM_WM_STS_CROSSED_UP = (s.flag ADM_WM_STS_CROSSED_UP && !v.toNat.testBit 1) ∧
      t.flag ADM_WM_STS_CROSSED_DOWN = (s.flag ADM_WM_STS_CROSSED_DOWN && !v.toNat.testBit 2) ∧
      t.flag ADM_WM_STS_LEVEL_ABOVE = s.flag ADM_WM_STS_LEVEL_ABOVE) ∧
    (∃ t, exec (.registerWrite m 0x20058#26 (bytesLE 4 v.toNat)) s = .next t ∧ t.regs = s.regs ∧
      (t.masterOf m).held = some ⟨0x20058, v⟩)) ∧
  (∀ (s : State) (m : RegMaster) (lo hi : BitVec 32), s.inReset = false → (m = .headframe ∨ m = .pf ∧ s.flag HDF_SEAL_SEALED = true) →
    s.winAfter 0x20058 m = 0 → (s.masterOf m).held = some ⟨0x20058, lo⟩ → ∃ t, exec (.registerWrite m 0x2005C#26 (bytesLE 4 hi.toNat)) s = .next t ∧
      t.fld BEAT_COUNT_PRESET_COUNT = (lo.toNat + hi.toNat * 2 ^ 32) % 2 ^ 48 ∧ (t.masterOf m).held = none) ∧
  (∀ (s : State) (m : RegMaster) (off : BitVec 26) (d : List Byte), s.writesAs m →
    (d.length ≤ 8 → off.toNat % 8 + d.length ≤ 8 → (∀ i, i < d.length → reservedByte (off.toNat + i) = true) →
      ∃ t, exec (.registerWrite m off d) s = .next t ∧ t.regs = s.regs ∧ t.out = s.out ∧ t.evt = s.evt) ∧
    (8 < d.length ∨ 8 < off.toNat % 8 + d.length → ∃ t, exec (.registerWrite m off d) s = .next t ∧ onlyLogged s t)) ∧
  (∀ (s : State) (v : BitVec 32), s.inReset = false → (s.masterOf .pf).held = none → s.flag HDF_SEAL_SEALED = false →
    ∃ t, exec (.registerWrite .pf 0x40020#26 (bytesLE 4 v.toNat)) s = .next t ∧ t.word 0x40020 = s.word 0x40020 ∧
      t.fld HDF_SEAL_VIOL_CNT = min (s.fld HDF_SEAL_VIOL_CNT + 1) 0xFFFF) ∧
  (∀ (s : State) (h : Hart) (off : BitVec 26) (d : List Byte), (s.own h).mon = false ∨ s.cluReach h off.toNat true = false →
    exec (.registerWrite (.clu h) off d) s = .next s) ∧
  (∀ (s : State) (h : Hart) (off : BitVec 26), (s.own h).mon = false ∨ s.cluReach h off.toNat false = false →
    exec (.pairLowRead (.clu h) off) s = .next (s.send (.completion .abort)))) ∧
  (
  (∀ (s : State) (m : RegMaster), s.inReset = false → m = .headframe ∨ m = .pf → (s.masterOf m).held = none → (s.masterOf m).shadow = none →
    ∃ t, exec (.pairLowRead m 0x20048#26) s = .next t ∧
      t.out = s.out ++ [.completion (.ok (bytesLE 4 (s.beat.ts.toNat % 2 ^ 32)))] ∧
      (t.masterOf m).shadow = some ⟨0x20048, s.beat.ts.extractLsb' 32 32⟩) ∧
  (∀ (s : State) (m : RegMaster) (w : BitVec 32), s.inReset = false → m = .headframe ∨ m = .pf → (s.masterOf m).held = none →
    (s.masterOf m).shadow = some ⟨0x20048, w⟩ → (s.regRead m 0x2004C 4).1 = some (bytesLE 4 w.toNat)) ∧
  (∀ (s : State) (m : RegMaster) (off : BitVec 26), s.inReset = false → m = .headframe ∨ m = .pf → (s.masterOf m).held = none →
    (s.masterOf m).shadow = none → off.toNat % 4 = 0 → (∀ i, i < 4 → reservedByte (off.toNat + i) = true) →
    ∃ t, exec (.pairLowRead m off) s = .next t ∧ t.out = s.out ++ [.completion (.ok [0, 0, 0, 0])]) ∧
  (∀ (s : State) (h : Hart) (pl : Place) (n : Nat) (excl strm : Bool), s.isRegs pl = true → (s.own h).mon = false →
    s.cluLoad h pl n excl strm = (.denied, s)))

/-- RUN, DRAIN, HALT and RESET by Headframe or, after the seal, the physical function: where another master has written no code
in the present arbitration window PCTL_CMD.CMD takes the code, else the higher one; it acts at the next boundary. A FAILED
partition keeps its code. CLUSTER_HALT, STEP and RESUME find the cluster's partition woken; with debug scope 2 open or before the
seal they halt the cluster, let one instruction retire, or let it run; after the seal without the scope the cluster stays as it
is. DBG_TRIG_EDGE on an input
trigger pin halts every cluster of its partitions, else changes nothing. UCIE_MODULE_LOSS after RUN is remembered, before it
changes nothing. CHALLENGE with nothing in progress sets BUSY, makes the challenge live, and shows the serial in the last four
words of SEC_DBG_CHAL (the nonce before them is open). VERIFY with nothing in progress sets BUSY and fixes the result for SCOPE
as it is; the checks need an accepted image that permits debug, a live challenge, FAIL_CNT below 8, a programmed and unrevoked
key and a signature over challenge, device and scope. While one is in progress both change nothing but the log.
VERIFICATION_DONE clears BUSY; a verification that held spends the challenge, sets UNLOCKED and SCOPE_ACTIVE, one that did not
sets FAIL and counts it. RELOCK clears UNLOCKED. -/
def Obligations.PartitionCommandsAndDebugUnlock : Prop :=
  (
  (∀ (s : State) (m : RegMaster) (p : Part), s.writesAs m →
    ∀ e ∈ [(Instr.run m p, 0), (Instr.drain m p, 1), (Instr.halt m p, 2), (Instr.reset m p, 3)],
      ∃ t, exec e.1 s = .next t ∧ t.clus = s.clus ∧
        (s.flag (PCTL_STS_FAILED p) = true → t.fld (PCTL_CMD_CMD p) = s.fld (PCTL_CMD_CMD p)) ∧
        (s.flag (PCTL_STS_FAILED p) = false →
          (s.winOthers (PCTL_CMD_CMD p).addr m = [] → t.fld (PCTL_CMD_CMD p) = e.2) ∧
          (∀ o, o < 4 → s.winOthers (PCTL_CMD_CMD p).addr m = [o] → t.fld (PCTL_CMD_CMD p) = max e.2 o))) ∧
  (∀ (s : State) (m : RegMaster) (h : Hart), s.writesAs m →
    let w := s.wakeNow h.part
    (s.flag HDF_SEAL_SEALED = false ∨ s.scopeOpen m 2 = true →
      (∃ t, exec (.clusterHalt m h) s = .next t ∧ t.own h = { w.own h with halted := true, stepping := false }) ∧
      (∃ t, exec (.step m h) s = .next t ∧ t.own h = { w.own h with halted := false, stepping := true }) ∧
      (∃ t, exec (.resume m h) s = .next t ∧ t.own h = { w.own h with halted := false, stepping := false })) ∧
    (s.flag HDF_SEAL_SEALED = true → s.scopeOpen m 2 = false → ∀ c ∈ [Instr.clusterHalt m h, .step m h, .resume m h],
      ∃ t, exec c s = .next t ∧ t.clus = w.clus ∧ t.fld HDF_SEAL_VIOL_CNT = min (s.fld HDF_SEAL_VIOL_CNT + 1) 0xFFFF) ∧
    (s.role h.part = 0 ∨ s.awake h.part = true ∧ (s.ppwr h.part).entering = none → w = s)) ∧
  (∀ (s : State) (k : Fin 4), let on := s.isAlt (8 + k) = true ∧ s.fld (DBG_TRIG_DIR k) = 0
    (on → ∃ t, exec (.dbgTrigEdge k) s = .next t ∧ ∀ (p : Part) (c : Fin 20),
      t.clu p c = (if s.fbit (DBG_TRIG_PART k) p = true then { s.clu p c with halted := true, stepping := false } else s.clu p c)) ∧
    (¬ on → exec (.dbgTrigEdge k) s = .next s)) ∧
  (∀ s : State, (s.flag HDF_SEAL_RUN = true → exec .ucieModuleLoss s = .next { s with ucieLost := true }) ∧
    (s.flag HDF_SEAL_RUN = false → exec .ucieModuleLoss s = .next s))) ∧
  (
  (∀ s : State, s.dbg.op = none →
    (∃ t, exec .challenge s = .next t ∧ t.flag SEC_DBG_STS_BUSY = true ∧ t.dbg = ⟨some .challenge, true, s.dbg.resp⟩ ∧
      ∀ i, i < 4 → t.fld (SEC_DBG_CHAL_CHAL (8 + i)) = natLE (((s.fuses.serial ++ List.replicate 16 0).drop (4 * i)).take 4)) ∧
    (∃ t, exec .verify s = .next t ∧ t.flag SEC_DBG_STS_BUSY = true ∧ t.dbg.live = s.dbg.live ∧
      t.dbg.op = some (.verify (if s.verifies (s.fld SEC_DBG_CMD_SCOPE) = true then some (s.fld SEC_DBG_CMD_SCOPE) else none)))) ∧
  (∀ (s : State) (scope : Nat), s.verifies scope = true → s.boot.accepted = true ∧ s.boot.flags.testBit 2 = true ∧ s.dbg.live = true ∧
    s.fld SEC_DBG_STS_FAIL_CNT < 8 ∧ ∃ i, i < 2 ∧ s.fuses.dbgProg.getLsbD i = true ∧ s.fuses.dbgRevoked.getLsbD i = false) ∧
  (∀ s : State, s.dbg.op ≠ none → ∀ c ∈ [Instr.challenge, Instr.verify], ∃ t, exec c s = .next t ∧ onlyLogged s t) ∧
  (∀ s : State,
    (s.dbg.op = none → exec .verificationDone s = .next s) ∧
    (s.dbg.op = some .challenge → ∃ t, exec .verificationDone s = .next t ∧ t.flag SEC_DBG_STS_BUSY = false ∧
      t.dbg = { s.dbg with op := none } ∧ t.flag SEC_DBG_STS_UNLOCKED = s.flag SEC_DBG_STS_UNLOCKED) ∧
    (∀ sc, s.dbg.op = some (.verify (some sc)) → ∃ t, exec .verificationDone s = .next t ∧ t.flag SEC_DBG_STS_BUSY = false ∧
      t.dbg = { s.dbg with op := none, live := false } ∧ t.flag SEC_DBG_STS_UNLOCKED = true ∧ t.fld SEC_DBG_STS_SCOPE_ACTIVE = sc % 16) ∧
    (s.dbg.op = some (.verify none) → ∃ t, exec .verificationDone s = .next t ∧ t.flag SEC_DBG_STS_BUSY = false ∧
      t.flag SEC_DBG_STS_FAIL = true ∧ t.fld SEC_DBG_STS_FAIL_CNT = min (s.fld SEC_DBG_STS_FAIL_CNT + 1) 255 ∧
      t.flag SEC_DBG_STS_UNLOCKED = s.flag SEC_DBG_STS_UNLOCKED)) ∧
  (∀ s : State, ∃ t, exec .relock s = .next t ∧ t.flag SEC_DBG_STS_UNLOCKED = false ∧ t.dbg = s.dbg))
end

