-- ==== Sys2Proof/Laws/Tbl.lean ====
section
/-!
SUPPORT. Laws/Tbl.lean: what a sparse table reads after a write, and that a write and a filter keep its canonical form.
-/
namespace Sys2Proof.Machine

/-- An erased key reads as its default. -/
@[simp] theorem Tbl.get_erase_same {α : Type} (d : Nat → α) (t : Tbl α) (k : Nat) : Tbl.get d (Tbl.erase t k) k = d k := by
  induction t with
  | nil => rfl
  | cons e t ih =>
    obtain ⟨j, v⟩ := e
    by_cases h : j = k <;> simp [Tbl.erase, Tbl.get, h, ih]

/-- Erasing a key leaves every other key. -/
theorem Tbl.get_erase_ne {α : Type} (d : Nat → α) (t : Tbl α) {k a : Nat} (h : a ≠ k) : Tbl.get d (Tbl.erase t k) a = Tbl.get d t a := by
  induction t with
  | nil => rfl
  | cons e t ih =>
    obtain ⟨j, v⟩ := e
    by_cases hj : j = k
    · subst hj
      simp [Tbl.erase, Tbl.get, ih, h.symm]
    · simp [Tbl.erase, Tbl.get, hj, ih]

/-- An inserted key reads as the value inserted, where it was not listed. -/
theorem Tbl.get_insert_erase_same {α : Type} (d : Nat → α) (t : Tbl α) (k : Nat) (v : α) :
    Tbl.get d (Tbl.insert (Tbl.erase t k) k v) k = v := by
  induction t with
  | nil => simp [Tbl.erase, Tbl.insert, Tbl.get]
  | cons e t ih =>
    obtain ⟨j, w⟩ := e
    by_cases hj : j = k
    · simpa [Tbl.erase, hj] using ih
    · by_cases hl : k < j <;> simp [Tbl.erase, Tbl.insert, Tbl.get, hj, hl, ih]

/-- Inserting a key leaves every other key. -/
theorem Tbl.get_insert_ne {α : Type} (d : Nat → α) (t : Tbl α) {k a : Nat} (v : α) (h : a ≠ k) :
    Tbl.get d (Tbl.insert t k v) a = Tbl.get d t a := by
  induction t with
  | nil => simp [Tbl.insert, Tbl.get, h.symm]
  | cons e t ih =>
    obtain ⟨j, w⟩ := e
    by_cases hl : k < j
    · simp [Tbl.insert, Tbl.get, hl, h.symm]
    · simp [Tbl.insert, Tbl.get, hl, ih]

/-- A key reads as what was last set at it. -/
@[simp] theorem Tbl.get_set_same {α : Type} [DecidableEq α] (d : Nat → α) (t : Tbl α) (k : Nat) (v : α) :
    Tbl.get d (Tbl.set d t k v) k = v := by
  unfold Tbl.set
  split
  · rename_i h
    rw [Tbl.get_erase_same, h]
  · exact Tbl.get_insert_erase_same d t k v

/-- Setting a key leaves every other key. -/
theorem Tbl.get_set_ne {α : Type} [DecidableEq α] (d : Nat → α) (t : Tbl α) {k a : Nat} (v : α) (h : a ≠ k) :
    Tbl.get d (Tbl.set d t k v) a = Tbl.get d t a := by
  unfold Tbl.set
  split
  · exact Tbl.get_erase_ne d t h
  · rw [Tbl.get_insert_ne d _ v h, Tbl.get_erase_ne d t h]

/-- Reading after setting, both cases at once. -/
theorem Tbl.get_set {α : Type} [DecidableEq α] (d : Nat → α) (t : Tbl α) (k a : Nat) (v : α) :
    Tbl.get d (Tbl.set d t k v) a = if a = k then v else Tbl.get d t a := by
  split
  · rename_i h
    rw [h, Tbl.get_set_same]
  · rename_i h
    exact Tbl.get_set_ne d t v h

/-! ### The canonical form -/

/-- Keys that rise from a bound rise from a smaller one. -/
theorem Tbl.risesFrom_le {α : Type} {t : Tbl α} {lo lo' : Nat} (h : lo' ≤ lo) (hr : Tbl.risesFrom lo t = true) :
    Tbl.risesFrom lo' t = true := by
  cases t with
  | nil => rfl
  | cons e t =>
    obtain ⟨j, v⟩ := e
    simp only [Tbl.risesFrom, Bool.and_eq_true, decide_eq_true_eq] at hr ⊢
    exact ⟨Nat.le_trans h hr.1, hr.2⟩

/-- Keys of an erased table rise. -/
theorem Tbl.risesFrom_erase {α : Type} (t : Tbl α) (k lo : Nat) (h : Tbl.risesFrom lo t = true) : Tbl.risesFrom lo (Tbl.erase t k) = true := by
  induction t generalizing lo with
  | nil => rfl
  | cons e t ih =>
    obtain ⟨j, v⟩ := e
    simp only [Tbl.risesFrom, Bool.and_eq_true, decide_eq_true_eq] at h
    by_cases hj : j = k
    · simp only [Tbl.erase, hj, if_true]
      exact ih lo (Tbl.risesFrom_le (by omega) h.2)
    · simp only [Tbl.erase, hj, if_false, Tbl.risesFrom, Bool.and_eq_true, decide_eq_true_eq]
      exact ⟨h.1, ih _ h.2⟩

/-- An erased table lists nothing at the key. -/
theorem Tbl.not_mem_erase {α : Type} (t : Tbl α) (k : Nat) (e : Nat × α) (h : e ∈ Tbl.erase t k) : e.1 ≠ k ∧ e ∈ t := by
  induction t with
  | nil => simp [Tbl.erase] at h
  | cons x t ih =>
    obtain ⟨j, v⟩ := x
    by_cases hj : j = k
    · simp only [Tbl.erase, hj, if_true] at h
      exact ⟨(ih h).1, List.mem_cons_of_mem _ (ih h).2⟩
    · simp only [Tbl.erase, hj, if_false, List.mem_cons] at h
      rcases h with rfl | h
      · exact ⟨hj, List.mem_cons_self⟩
      · exact ⟨(ih h).1, List.mem_cons_of_mem _ (ih h).2⟩

/-- Keys rise after an insertion of a key that is not listed. -/
theorem Tbl.risesFrom_insert {α : Type} (t : Tbl α) (k lo : Nat) (v : α) (h : Tbl.risesFrom lo t = true) (hk : lo ≤ k)
    (hn : ∀ e ∈ t, e.1 ≠ k) : Tbl.risesFrom lo (Tbl.insert t k v) = true := by
  induction t generalizing lo with
  | nil => simp [Tbl.insert, Tbl.risesFrom, hk]
  | cons e t ih =>
    obtain ⟨j, w⟩ := e
    simp only [Tbl.risesFrom, Bool.and_eq_true, decide_eq_true_eq] at h
    have hj : j ≠ k := hn (j, w) List.mem_cons_self
    by_cases hl : k < j
    · simp only [Tbl.insert, hl, if_true, Tbl.risesFrom, Bool.and_eq_true, decide_eq_true_eq]
      exact ⟨hk, hl, h.2⟩
    · simp only [Tbl.insert, hl, if_false, Tbl.risesFrom, Bool.and_eq_true, decide_eq_true_eq]
      exact ⟨h.1, ih _ h.2 (by omega) (fun e he => hn e (List.mem_cons_of_mem _ he))⟩

/-- An inserted table lists what it listed and the entry inserted. -/
theorem Tbl.mem_insert {α : Type} (t : Tbl α) (k : Nat) (v : α) (e : Nat × α) (h : e ∈ Tbl.insert t k v) : e = (k, v) ∨ e ∈ t := by
  induction t with
  | nil => simpa [Tbl.insert] using h
  | cons x t ih =>
    obtain ⟨j, w⟩ := x
    by_cases hl : k < j
    · simpa [Tbl.insert, hl] using h
    · simp only [Tbl.insert, hl, if_false, List.mem_cons] at h
      rcases h with rfl | h
      · exact .inr List.mem_cons_self
      · rcases ih h with rfl | h'
        · exact .inl rfl
        · exact .inr (List.mem_cons_of_mem _ h')

/-- The canonical form, its two parts. -/
theorem Tbl.wf_iff {α : Type} [DecidableEq α] (d : Nat → α) (t : Tbl α) :
    Tbl.wf d t = true ↔ Tbl.risesFrom 0 t = true ∧ ∀ e ∈ t, e.2 ≠ d e.1 := by
  simp [Tbl.wf, List.all_eq_true]

/-- The empty table is canonical. -/
@[simp] theorem Tbl.wf_nil {α : Type} [DecidableEq α] (d : Nat → α) : Tbl.wf d ([] : Tbl α) = true := rfl

/-- Erasing keeps the canonical form. -/
theorem Tbl.wf_erase {α : Type} [DecidableEq α] (d : Nat → α) (t : Tbl α) (k : Nat) (h : Tbl.wf d t = true) :
    Tbl.wf d (Tbl.erase t k) = true := by
  rw [Tbl.wf_iff] at h ⊢
  exact ⟨Tbl.risesFrom_erase t k 0 h.1, fun e he => h.2 e (Tbl.not_mem_erase t k e he).2⟩

/-- Setting a key keeps the canonical form. -/
theorem Tbl.wf_set {α : Type} [DecidableEq α] (d : Nat → α) (t : Tbl α) (k : Nat) (v : α) (h : Tbl.wf d t = true) :
    Tbl.wf d (Tbl.set d t k v) = true := by
  unfold Tbl.set
  split
  · exact Tbl.wf_erase d t k h
  · rename_i hv
    have he := Tbl.wf_erase d t k h
    rw [Tbl.wf_iff] at he ⊢
    refine ⟨Tbl.risesFrom_insert _ k 0 v he.1 (Nat.zero_le _) (fun e hm => (Tbl.not_mem_erase t k e hm).1), ?_⟩
    intro e hm
    rcases Tbl.mem_insert _ k v e hm with rfl | hm
    · exact hv
    · exact he.2 e hm

/-- Keys of a filtered table rise. -/
theorem Tbl.risesFrom_filter {α : Type} (p : Nat × α → Bool) (t : Tbl α) (lo : Nat) (h : Tbl.risesFrom lo t = true) :
    Tbl.risesFrom lo (t.filter p) = true := by
  induction t generalizing lo with
  | nil => rfl
  | cons e t ih =>
    obtain ⟨j, v⟩ := e
    simp only [Tbl.risesFrom, Bool.and_eq_true, decide_eq_true_eq] at h
    by_cases hp : p (j, v) = true
    · simp only [List.filter_cons, hp, if_true, Tbl.risesFrom, Bool.and_eq_true, decide_eq_true_eq]
      exact ⟨h.1, ih _ h.2⟩
    · simp only [List.filter_cons, hp, Bool.false_eq_true, if_false]
      exact ih lo (Tbl.risesFrom_le (by omega) h.2)

/-- Filtering keeps the canonical form. -/
theorem Tbl.wf_filter {α : Type} [DecidableEq α] (d : Nat → α) (p : Nat × α → Bool) (t : Tbl α) (h : Tbl.wf d t = true) :
    Tbl.wf d (t.filter p) = true := by
  rw [Tbl.wf_iff] at h ⊢
  exact ⟨Tbl.risesFrom_filter p t 0 h.1, fun e he => h.2 e ((List.mem_filter.1 he).1)⟩

end Sys2Proof.Machine
end

