-- ==== Sys2Proof/Laws/Mem.lean ====
section
/-!
SUPPORT. Laws/Mem.lean: the laws of byte memory: what is read after a write, and that every operation on it keeps its canonical form.
-/
namespace Sys2Proof.Machine

/-- A byte reads as it was last put. -/
@[simp] theorem Mem.byte_put_same (m : Mem) (a : Nat) (b : Byte) : Mem.byte (Mem.put m a b) a = b := Tbl.get_set_same _ m a b

/-- Putting a byte leaves every other. -/
theorem Mem.byte_put_ne (m : Mem) {a x : Nat} (b : Byte) (h : x ≠ a) : Mem.byte (Mem.put m a b) x = Mem.byte m x :=
  Tbl.get_set_ne _ m b h

/-- A write leaves every byte outside it. -/
theorem Mem.byte_write_out (m : Mem) (a : Nat) (d : List Byte) (x : Nat) (h : x < a ∨ a + d.length ≤ x) :
    Mem.byte (Mem.write m a d) x = Mem.byte m x := by
  induction d generalizing m a with
  | nil => rfl
  | cons b t ih =>
    simp only [List.length_cons] at h
    rw [Mem.write, ih _ _ (by omega), Mem.byte_put_ne _ _ (by omega)]

/-- A byte of a write reads as written. -/
theorem Mem.byte_write_in (m : Mem) (a : Nat) (d : List Byte) (i : Nat) (h : i < d.length) :
    Mem.byte (Mem.write m a d) (a + i) = d[i] := by
  induction d generalizing m a i with
  | nil => simp at h
  | cons b t ih =>
    cases i with
    | zero => simp [Mem.write, Mem.byte_write_out]
    | succ i =>
      have := ih (Mem.put m a b) (a + 1) i (by simpa using h)
      simpa [Mem.write, Nat.add_assoc, Nat.add_comm 1 i] using this

/-- A read of `n` bytes has `n` bytes. -/
@[simp] theorem Mem.length_read (m : Mem) (a n : Nat) : (Mem.read m a n).length = n := by
  induction n generalizing a with
  | zero => rfl
  | succ n ih => simp [Mem.read, ih]

/-- A read's bytes are the memory's. -/
theorem Mem.getElem_read (m : Mem) (a n i : Nat) (h : i < (Mem.read m a n).length) : (Mem.read m a n)[i] = Mem.byte m (a + i) := by
  induction n generalizing a i with
  | zero => simp [Mem.read] at h
  | succ n ih =>
    cases i with
    | zero => simp [Mem.read]
    | succ i => simp [Mem.read, ih, Nat.add_assoc, Nat.add_comm 1 i]

/-- A read of what was written gives it back. -/
@[simp] theorem Mem.read_write_same (m : Mem) (a : Nat) (d : List Byte) : Mem.read (Mem.write m a d) a d.length = d := by
  apply List.ext_getElem (by simp)
  intro i h1 h2
  rw [Mem.getElem_read, Mem.byte_write_in _ _ _ _ h2]

/-- A read apart from a write reads what stood there. -/
theorem Mem.read_write_apart (m : Mem) (a : Nat) (d : List Byte) (x n : Nat) (h : x + n ≤ a ∨ a + d.length ≤ x) :
    Mem.read (Mem.write m a d) x n = Mem.read m x n := by
  induction n generalizing x with
  | zero => rfl
  | succ n ih => rw [Mem.read, Mem.read, Mem.byte_write_out _ _ _ _ (by omega), ih _ (by omega)]

/-! ### The canonical form -/

/-- The empty memory is canonical. -/
@[simp] theorem Mem.wf_nil : Mem.wf [] = true := rfl

/-- Putting a byte keeps the canonical form. -/
theorem Mem.wf_put (m : Mem) (a : Nat) (b : Byte) (h : m.wf = true) : (Mem.put m a b).wf = true := Tbl.wf_set _ m a b h

/-- A write keeps the canonical form. -/
theorem Mem.wf_write (m : Mem) (a : Nat) (d : List Byte) (h : m.wf = true) : (Mem.write m a d).wf = true := by
  induction d generalizing m a with
  | nil => exact h
  | cons b t ih => exact ih _ _ (Mem.wf_put m a b h)

/-- A fold of steps that each keep the canonical form keeps it. -/
theorem Mem.wf_foldl {β : Type} (f : Mem → β → Mem) (hf : ∀ m x, m.wf = true → (f m x).wf = true) (l : List β) (m : Mem)
    (h : m.wf = true) : (l.foldl f m).wf = true := by
  induction l generalizing m with
  | nil => exact h
  | cons x t ih => exact ih _ (hf m x h)

/-- Draining half an entry of a write-combining buffer keeps the canonical form. -/
theorem Mem.wf_putEntry (m : Mem) (e : WcbEntry) (hf : Nat) (h : m.wf = true) : (Mem.putEntry m e hf).wf = true := by
  refine Mem.wf_foldl _ ?_ _ _ h
  intro m x hm
  split
  · split
    · exact Mem.wf_put _ _ _ hm
    · exact hm
  · exact hm

/-- Leaving out the bytes of a region keeps the canonical form. -/
theorem Mem.wf_filter (p : Nat × Byte → Bool) (m : Mem) (h : m.wf = true) : Mem.wf (List.filter p m) = true := Tbl.wf_filter _ p m h

end Sys2Proof.Machine
end

