-- ==== Sys2Proof/Laws/Ops.lean ====
section
/-!
SUPPORT. Laws/Ops.lean: what shared operations can do, case by case: issuing an instruction, waking a partition, direct Traverse traffic, so that no later proof unfolds it.
-/
namespace Sys2Proof.Machine

/-- A cluster that issues nothing ignores the command. -/
theorem State.issue_of_idle (s : State) (h : Hart) (w : Nat) (rep : Bool) (body : State → Done) (hi : s.issues h = false) :
    s.issue h w rep body = s := by
  simp [State.issue, hi]

/-- The parts of `ready`. -/
theorem State.ready_iff (s : State) (h : Hart) (w : Nat) (rep : Bool) :
    s.ready h w rep = true ↔ s.issues h = true ∧ (s.fetchInst h w).1 = .ok ∧
      kindOf ((s.afterFetch h w).kindCtx h) w = .assigned ∧ (rep && ((s.afterFetch h w).own h).abort.isSome) = false := by
  simp only [State.ready, Bool.and_eq_true, decide_eq_true_eq, Bool.not_eq_true', and_assoc]

/-- After a fetch that succeeds, the instruction is executed in the state the fetch left. -/
theorem State.issue_of_fetched (s : State) (h : Hart) (w : Nat) (rep : Bool) (body : State → Done) (hi : s.issues h = true)
    (hf : (s.fetchInst h w).1 = .ok) : s.issue h w rep body = (s.afterFetch h w).runInst h w rep body := by
  simp [State.issue, hi, hf, State.afterFetch]

/-- An instruction that executes normally ends as its work ends. -/
theorem State.issue_of_ready (s : State) (h : Hart) (w : Nat) (rep : Bool) (body : State → Done) (hr : s.ready h w rep = true) :
    s.issue h w rep body = (s.afterFetch h w).finishInst h w (body (s.afterFetch h w)) := by
  obtain ⟨hi, hf, hk, ha⟩ := (s.ready_iff h w rep).1 hr
  rw [s.issue_of_fetched h w rep body hi hf]
  have ha' : ¬(rep = true ∧ ((s.afterFetch h w).clu h.part h.clu).abort.isSome = true) := by
    simpa [State.own] using ha
  simp only [State.runInst, hk]
  simp [ha']

/-- A malformed encoding traps MALFORMED_OP. -/
theorem State.runInst_malformed (s : State) (h : Hart) (w : Nat) (rep : Bool) (body : State → Done)
    (hk : kindOf (s.kindCtx h) w = .malformed) : s.runInst h w rep body = s.finishInst h w (.trap s ⟨codeMalformed, 0, 0⟩) := by
  simp [State.runInst, hk]

/-- A reserved encoding traps RESERVED_OP. -/
theorem State.runInst_reserved (s : State) (h : Hart) (w : Nat) (rep : Bool) (body : State → Done)
    (hk : kindOf (s.kindCtx h) w = .reserved) : s.runInst h w rep body = s.finishInst h w (.trap s ⟨codeReserved, 0, 0⟩) := by
  simp [State.runInst, hk]

/-- A privileged encoding in Tenant traps PRIV. -/
theorem State.runInst_priv (s : State) (h : Hart) (w : Nat) (rep : Bool) (body : State → Done)
    (hk : kindOf (s.kindCtx h) w = .priv) : s.runInst h w rep body = s.finishInst h w (.trap s ⟨codePriv, 0, 0⟩) := by
  simp [State.runInst, hk]

/-- Work on the cluster alone retires with the cluster changed. -/
theorem State.finishInst_cluWork (s : State) (h : Hart) (w : Nat) (g : Cluster → Cluster) :
    s.finishInst h w (s.cluWork h g) = s.retiredFrom s h w g := rfl

/-- Work on the cluster after an access retires in the state the access left. -/
theorem State.finishInst_cluWork_of (s u : State) (h : Hart) (w : Nat) (g : Cluster → Cluster) :
    s.finishInst h w (u.cluWork h g) = s.retiredFrom u h w g := rfl

/-- A scalar load that goes through hands its bytes, as a number, to what follows. -/
theorem State.scalarLoad_of_goes (f u : State) (h : Hart) (ea n : Nat) (excl : Bool) (d : List Byte) (k : State → Nat → Done)
    (hg : f.loadGoes h ea n excl d u) : f.scalarLoad h ea n excl k = k u (natLE d) := by
  obtain ⟨ha, pl, hx, hl⟩ := hg
  simp only [State.scalarLoad, ha, hx, hl]
  simp

/-- A scalar store that goes through retires in the state it left. -/
theorem State.scalarStore_of_goes (f u : State) (h : Hart) (ea n v : Nat) (hg : f.storeGoes h ea n v u) :
    f.scalarStore h ea n v = .retire u := by
  obtain ⟨ha, pl, hx, hl⟩ := hg
  simp only [State.scalarStore, ha, hx, hl]
  simp

/-- The items of a vector or tile load that goes through are handed on with their bytes. -/
theorem State.itemLoad_of_goes (f u : State) (h : Hart) (strm : Bool) (items : List Item) (detail : List Item → Nat)
    (l : List (Item × List Byte)) (k : State → List (Item × List Byte) → Done) (hg : f.itemsLoad h strm items l u) :
    f.itemLoad h strm items detail k = k u l := by
  obtain ⟨hx, hl⟩ := hg
  simp only [State.itemLoad, hx, hl]
  simp

/-- A vector or tile store that goes through retires in the state it left. -/
theorem State.itemStore_of_goes (f u : State) (h : Hart) (strm : Bool) (items : List (Item × List Byte)) (detail : List Item → Nat)
    (hg : f.itemsStore h strm items (fun i => detail [i]) u) : f.itemStore h strm items detail = .retire u := by
  obtain ⟨hx, hl⟩ := hg
  simp only [State.itemStore, hx, hl]
  simp [State.storesDenied]

/-- A 32-bit instruction is four bytes long. -/
theorem instLen_wordOf (major hi mid lo : Nat) (h1 : major < 32) (h2 : mid < 32) (h3 : lo < 32) :
    instLen (wordOf major hi mid lo) = 4 := by
  have hb : wordOf major hi mid lo / 2 ^ 15 % 2 = 1 := by
    unfold wordOf
    omega
  rw [instLen, Nat.testBit_eq_decide_div_mod_eq, hb]; rfl

/-- A 16-bit instruction is two bytes long. -/
theorem instLen_halfOf (cg lo : Nat) (h1 : cg < 8) (h2 : lo < 4096) : instLen (halfOf cg lo) = 2 := by
  have hb : halfOf cg lo / 2 ^ 15 % 2 = 0 := by
    unfold halfOf
    omega
  rw [instLen, Nat.testBit_eq_decide_div_mod_eq, hb]; rfl

/-! ### Waking a partition and traffic that is counted at once -/

/-- An OFF partition is not woken. -/
theorem State.wakeNow_off (s : State) (p : Nat) (h : s.fld (PCTL_ROLE_ROLE_ACTIVE p) = 0) : s.wakeNow p = s := by
  simp [State.wakeNow, h]

/-- A partition in A0 with no entry in progress stays as it is. -/
theorem State.wakeNow_settled (s : State) (p : Nat) (ha : s.awake p = true) (he : (s.ppwr p).entering = none) : s.wakeNow p = s := by
  simp [State.wakeNow, State.endEntry, he, ha]

/-- Direct traffic leaves a state with no counter enabled as it is. -/
theorem State.trvUse_off (s : State) (src dst vc flits : Nat) (h : s.pmuOff = true) : s.trvUse src dst vc flits = s := by
  have h' : (List.range 8).any (fun k => s.flag (TRV_PMU_SEL_EN k)) = false := by simpa [State.pmuOff] using h
  unfold State.trvUse
  rw [h']
  simp

end Sys2Proof.Machine
end

