-- ==== Sys2Proof/Laws/State.lean ====
section
/-!
SUPPORT. Laws/State.lean: the fields of the state that each update leaves and the field it writes, so that no later proof unfolds a
record update.
-/
namespace Sys2Proof.Machine


/-! ### withMem -/

@[simp] theorem State.withMem_product (s : State) (m : MemSt) : (s.withMem m).product = s.product := rfl
@[simp] theorem State.withMem_pending (s : State) (m : MemSt) : (s.withMem m).pending = s.pending := rfl
@[simp] theorem State.withMem_regs (s : State) (m : MemSt) : (s.withMem m).regs = s.regs := rfl
@[simp] theorem State.withMem_active (s : State) (m : MemSt) : (s.withMem m).active = s.active := rfl
@[simp] theorem State.withMem_masters (s : State) (m : MemSt) : (s.withMem m).masters = s.masters := rfl
@[simp] theorem State.withMem_adm (s : State) (m : MemSt) : (s.withMem m).adm = s.adm := rfl
@[simp] theorem State.withMem_slots (s : State) (m : MemSt) : (s.withMem m).slots = s.slots := rfl
@[simp] theorem State.withMem_egr (s : State) (m : MemSt) : (s.withMem m).egr = s.egr := rfl
@[simp] theorem State.withMem_tal (s : State) (m : MemSt) : (s.withMem m).tal = s.tal := rfl
@[simp] theorem State.withMem_beat (s : State) (m : MemSt) : (s.withMem m).beat = s.beat := rfl
@[simp] theorem State.withMem_plats (s : State) (m : MemSt) : (s.withMem m).plats = s.plats := rfl
@[simp] theorem State.withMem_fo (s : State) (m : MemSt) : (s.withMem m).fo = s.fo := rfl
@[simp] theorem State.withMem_mem (s : State) (m : MemSt) : (s.withMem m).mem = m := rfl
@[simp] theorem State.withMem_claims (s : State) (m : MemSt) : (s.withMem m).claims = s.claims := rfl
@[simp] theorem State.withMem_l2 (s : State) (m : MemSt) : (s.withMem m).l2 = s.l2 := rfl
@[simp] theorem State.withMem_tlb (s : State) (m : MemSt) : (s.withMem m).tlb = s.tlb := rfl
@[simp] theorem State.withMem_walks (s : State) (m : MemSt) : (s.withMem m).walks = s.walks := rfl
@[simp] theorem State.withMem_mmu (s : State) (m : MemSt) : (s.withMem m).mmu = s.mmu := rfl
@[simp] theorem State.withMem_clus (s : State) (m : MemSt) : (s.withMem m).clus = s.clus := rfl
@[simp] theorem State.withMem_adit (s : State) (m : MemSt) : (s.withMem m).adit = s.adit := rfl
@[simp] theorem State.withMem_asy (s : State) (m : MemSt) : (s.withMem m).asy = s.asy := rfl
@[simp] theorem State.withMem_net (s : State) (m : MemSt) : (s.withMem m).net = s.net := rfl
@[simp] theorem State.withMem_pwr (s : State) (m : MemSt) : (s.withMem m).pwr = s.pwr := rfl
@[simp] theorem State.withMem_evt (s : State) (m : MemSt) : (s.withMem m).evt = s.evt := rfl
@[simp] theorem State.withMem_msix (s : State) (m : MemSt) : (s.withMem m).msix = s.msix := rfl
@[simp] theorem State.withMem_dma (s : State) (m : MemSt) : (s.withMem m).dma = s.dma := rfl
@[simp] theorem State.withMem_early (s : State) (m : MemSt) : (s.withMem m).early = s.early := rfl
@[simp] theorem State.withMem_hostMem (s : State) (m : MemSt) : (s.withMem m).hostMem = s.hostMem := rfl
@[simp] theorem State.withMem_hostErr (s : State) (m : MemSt) : (s.withMem m).hostErr = s.hostErr := rfl
@[simp] theorem State.withMem_win (s : State) (m : MemSt) : (s.withMem m).win = s.win := rfl
@[simp] theorem State.withMem_boot (s : State) (m : MemSt) : (s.withMem m).boot = s.boot := rfl
@[simp] theorem State.withMem_fuses (s : State) (m : MemSt) : (s.withMem m).fuses = s.fuses := rfl
@[simp] theorem State.withMem_dbg (s : State) (m : MemSt) : (s.withMem m).dbg = s.dbg := rfl
@[simp] theorem State.withMem_pins (s : State) (m : MemSt) : (s.withMem m).pins = s.pins := rfl
@[simp] theorem State.withMem_ucieLost (s : State) (m : MemSt) : (s.withMem m).ucieLost = s.ucieLost := rfl
@[simp] theorem State.withMem_out (s : State) (m : MemSt) : (s.withMem m).out = s.out := rfl
@[simp] theorem State.withMem_thermtrip (s : State) (m : MemSt) : (s.withMem m).thermtrip = s.thermtrip := rfl
@[simp] theorem State.withMem_freeCtr (s : State) (m : MemSt) : (s.withMem m).freeCtr = s.freeCtr := rfl

/-! ### withAdm -/

@[simp] theorem State.withAdm_product (s : State) (x : AdmSt) : (s.withAdm x).product = s.product := rfl
@[simp] theorem State.withAdm_pending (s : State) (x : AdmSt) : (s.withAdm x).pending = s.pending := rfl
@[simp] theorem State.withAdm_regs (s : State) (x : AdmSt) : (s.withAdm x).regs = s.regs := rfl
@[simp] theorem State.withAdm_active (s : State) (x : AdmSt) : (s.withAdm x).active = s.active := rfl
@[simp] theorem State.withAdm_masters (s : State) (x : AdmSt) : (s.withAdm x).masters = s.masters := rfl
@[simp] theorem State.withAdm_adm (s : State) (x : AdmSt) : (s.withAdm x).adm = x := rfl
@[simp] theorem State.withAdm_slots (s : State) (x : AdmSt) : (s.withAdm x).slots = s.slots := rfl
@[simp] theorem State.withAdm_egr (s : State) (x : AdmSt) : (s.withAdm x).egr = s.egr := rfl
@[simp] theorem State.withAdm_tal (s : State) (x : AdmSt) : (s.withAdm x).tal = s.tal := rfl
@[simp] theorem State.withAdm_beat (s : State) (x : AdmSt) : (s.withAdm x).beat = s.beat := rfl
@[simp] theorem State.withAdm_plats (s : State) (x : AdmSt) : (s.withAdm x).plats = s.plats := rfl
@[simp] theorem State.withAdm_fo (s : State) (x : AdmSt) : (s.withAdm x).fo = s.fo := rfl
@[simp] theorem State.withAdm_mem (s : State) (x : AdmSt) : (s.withAdm x).mem = s.mem := rfl
@[simp] theorem State.withAdm_claims (s : State) (x : AdmSt) : (s.withAdm x).claims = s.claims := rfl
@[simp] theorem State.withAdm_l2 (s : State) (x : AdmSt) : (s.withAdm x).l2 = s.l2 := rfl
@[simp] theorem State.withAdm_tlb (s : State) (x : AdmSt) : (s.withAdm x).tlb = s.tlb := rfl
@[simp] theorem State.withAdm_walks (s : State) (x : AdmSt) : (s.withAdm x).walks = s.walks := rfl
@[simp] theorem State.withAdm_mmu (s : State) (x : AdmSt) : (s.withAdm x).mmu = s.mmu := rfl
@[simp] theorem State.withAdm_clus (s : State) (x : AdmSt) : (s.withAdm x).clus = s.clus := rfl
@[simp] theorem State.withAdm_adit (s : State) (x : AdmSt) : (s.withAdm x).adit = s.adit := rfl
@[simp] theorem State.withAdm_asy (s : State) (x : AdmSt) : (s.withAdm x).asy = s.asy := rfl
@[simp] theorem State.withAdm_net (s : State) (x : AdmSt) : (s.withAdm x).net = s.net := rfl
@[simp] theorem State.withAdm_pwr (s : State) (x : AdmSt) : (s.withAdm x).pwr = s.pwr := rfl
@[simp] theorem State.withAdm_evt (s : State) (x : AdmSt) : (s.withAdm x).evt = s.evt := rfl
@[simp] theorem State.withAdm_msix (s : State) (x : AdmSt) : (s.withAdm x).msix = s.msix := rfl
@[simp] theorem State.withAdm_dma (s : State) (x : AdmSt) : (s.withAdm x).dma = s.dma := rfl
@[simp] theorem State.withAdm_early (s : State) (x : AdmSt) : (s.withAdm x).early = s.early := rfl
@[simp] theorem State.withAdm_hostMem (s : State) (x : AdmSt) : (s.withAdm x).hostMem = s.hostMem := rfl
@[simp] theorem State.withAdm_hostErr (s : State) (x : AdmSt) : (s.withAdm x).hostErr = s.hostErr := rfl
@[simp] theorem State.withAdm_win (s : State) (x : AdmSt) : (s.withAdm x).win = s.win := rfl
@[simp] theorem State.withAdm_boot (s : State) (x : AdmSt) : (s.withAdm x).boot = s.boot := rfl
@[simp] theorem State.withAdm_fuses (s : State) (x : AdmSt) : (s.withAdm x).fuses = s.fuses := rfl
@[simp] theorem State.withAdm_dbg (s : State) (x : AdmSt) : (s.withAdm x).dbg = s.dbg := rfl
@[simp] theorem State.withAdm_pins (s : State) (x : AdmSt) : (s.withAdm x).pins = s.pins := rfl
@[simp] theorem State.withAdm_ucieLost (s : State) (x : AdmSt) : (s.withAdm x).ucieLost = s.ucieLost := rfl
@[simp] theorem State.withAdm_out (s : State) (x : AdmSt) : (s.withAdm x).out = s.out := rfl
@[simp] theorem State.withAdm_thermtrip (s : State) (x : AdmSt) : (s.withAdm x).thermtrip = s.thermtrip := rfl
@[simp] theorem State.withAdm_freeCtr (s : State) (x : AdmSt) : (s.withAdm x).freeCtr = s.freeCtr := rfl

/-! ### withNet -/

@[simp] theorem State.withNet_product (s : State) (x : NetSt) : (s.withNet x).product = s.product := rfl
@[simp] theorem State.withNet_pending (s : State) (x : NetSt) : (s.withNet x).pending = s.pending := rfl
@[simp] theorem State.withNet_regs (s : State) (x : NetSt) : (s.withNet x).regs = s.regs := rfl
@[simp] theorem State.withNet_active (s : State) (x : NetSt) : (s.withNet x).active = s.active := rfl
@[simp] theorem State.withNet_masters (s : State) (x : NetSt) : (s.withNet x).masters = s.masters := rfl
@[simp] theorem State.withNet_adm (s : State) (x : NetSt) : (s.withNet x).adm = s.adm := rfl
@[simp] theorem State.withNet_slots (s : State) (x : NetSt) : (s.withNet x).slots = s.slots := rfl
@[simp] theorem State.withNet_egr (s : State) (x : NetSt) : (s.withNet x).egr = s.egr := rfl
@[simp] theorem State.withNet_tal (s : State) (x : NetSt) : (s.withNet x).tal = s.tal := rfl
@[simp] theorem State.withNet_beat (s : State) (x : NetSt) : (s.withNet x).beat = s.beat := rfl
@[simp] theorem State.withNet_plats (s : State) (x : NetSt) : (s.withNet x).plats = s.plats := rfl
@[simp] theorem State.withNet_fo (s : State) (x : NetSt) : (s.withNet x).fo = s.fo := rfl
@[simp] theorem State.withNet_mem (s : State) (x : NetSt) : (s.withNet x).mem = s.mem := rfl
@[simp] theorem State.withNet_claims (s : State) (x : NetSt) : (s.withNet x).claims = s.claims := rfl
@[simp] theorem State.withNet_l2 (s : State) (x : NetSt) : (s.withNet x).l2 = s.l2 := rfl
@[simp] theorem State.withNet_tlb (s : State) (x : NetSt) : (s.withNet x).tlb = s.tlb := rfl
@[simp] theorem State.withNet_walks (s : State) (x : NetSt) : (s.withNet x).walks = s.walks := rfl
@[simp] theorem State.withNet_mmu (s : State) (x : NetSt) : (s.withNet x).mmu = s.mmu := rfl
@[simp] theorem State.withNet_clus (s : State) (x : NetSt) : (s.withNet x).clus = s.clus := rfl
@[simp] theorem State.withNet_adit (s : State) (x : NetSt) : (s.withNet x).adit = s.adit := rfl
@[simp] theorem State.withNet_asy (s : State) (x : NetSt) : (s.withNet x).asy = s.asy := rfl
@[simp] theorem State.withNet_net (s : State) (x : NetSt) : (s.withNet x).net = x := rfl
@[simp] theorem State.withNet_pwr (s : State) (x : NetSt) : (s.withNet x).pwr = s.pwr := rfl
@[simp] theorem State.withNet_evt (s : State) (x : NetSt) : (s.withNet x).evt = s.evt := rfl
@[simp] theorem State.withNet_msix (s : State) (x : NetSt) : (s.withNet x).msix = s.msix := rfl
@[simp] theorem State.withNet_dma (s : State) (x : NetSt) : (s.withNet x).dma = s.dma := rfl
@[simp] theorem State.withNet_early (s : State) (x : NetSt) : (s.withNet x).early = s.early := rfl
@[simp] theorem State.withNet_hostMem (s : State) (x : NetSt) : (s.withNet x).hostMem = s.hostMem := rfl
@[simp] theorem State.withNet_hostErr (s : State) (x : NetSt) : (s.withNet x).hostErr = s.hostErr := rfl
@[simp] theorem State.withNet_win (s : State) (x : NetSt) : (s.withNet x).win = s.win := rfl
@[simp] theorem State.withNet_boot (s : State) (x : NetSt) : (s.withNet x).boot = s.boot := rfl
@[simp] theorem State.withNet_fuses (s : State) (x : NetSt) : (s.withNet x).fuses = s.fuses := rfl
@[simp] theorem State.withNet_dbg (s : State) (x : NetSt) : (s.withNet x).dbg = s.dbg := rfl
@[simp] theorem State.withNet_pins (s : State) (x : NetSt) : (s.withNet x).pins = s.pins := rfl
@[simp] theorem State.withNet_ucieLost (s : State) (x : NetSt) : (s.withNet x).ucieLost = s.ucieLost := rfl
@[simp] theorem State.withNet_out (s : State) (x : NetSt) : (s.withNet x).out = s.out := rfl
@[simp] theorem State.withNet_thermtrip (s : State) (x : NetSt) : (s.withNet x).thermtrip = s.thermtrip := rfl
@[simp] theorem State.withNet_freeCtr (s : State) (x : NetSt) : (s.withNet x).freeCtr = s.freeCtr := rfl

/-! ### withTal -/

@[simp] theorem State.withTal_product (s : State) (x : TalSt) : (s.withTal x).product = s.product := rfl
@[simp] theorem State.withTal_pending (s : State) (x : TalSt) : (s.withTal x).pending = s.pending := rfl
@[simp] theorem State.withTal_regs (s : State) (x : TalSt) : (s.withTal x).regs = s.regs := rfl
@[simp] theorem State.withTal_active (s : State) (x : TalSt) : (s.withTal x).active = s.active := rfl
@[simp] theorem State.withTal_masters (s : State) (x : TalSt) : (s.withTal x).masters = s.masters := rfl
@[simp] theorem State.withTal_adm (s : State) (x : TalSt) : (s.withTal x).adm = s.adm := rfl
@[simp] theorem State.withTal_slots (s : State) (x : TalSt) : (s.withTal x).slots = s.slots := rfl
@[simp] theorem State.withTal_egr (s : State) (x : TalSt) : (s.withTal x).egr = s.egr := rfl
@[simp] theorem State.withTal_tal (s : State) (x : TalSt) : (s.withTal x).tal = x := rfl
@[simp] theorem State.withTal_beat (s : State) (x : TalSt) : (s.withTal x).beat = s.beat := rfl
@[simp] theorem State.withTal_plats (s : State) (x : TalSt) : (s.withTal x).plats = s.plats := rfl
@[simp] theorem State.withTal_fo (s : State) (x : TalSt) : (s.withTal x).fo = s.fo := rfl
@[simp] theorem State.withTal_mem (s : State) (x : TalSt) : (s.withTal x).mem = s.mem := rfl
@[simp] theorem State.withTal_claims (s : State) (x : TalSt) : (s.withTal x).claims = s.claims := rfl
@[simp] theorem State.withTal_l2 (s : State) (x : TalSt) : (s.withTal x).l2 = s.l2 := rfl
@[simp] theorem State.withTal_tlb (s : State) (x : TalSt) : (s.withTal x).tlb = s.tlb := rfl
@[simp] theorem State.withTal_walks (s : State) (x : TalSt) : (s.withTal x).walks = s.walks := rfl
@[simp] theorem State.withTal_mmu (s : State) (x : TalSt) : (s.withTal x).mmu = s.mmu := rfl
@[simp] theorem State.withTal_clus (s : State) (x : TalSt) : (s.withTal x).clus = s.clus := rfl
@[simp] theorem State.withTal_adit (s : State) (x : TalSt) : (s.withTal x).adit = s.adit := rfl
@[simp] theorem State.withTal_asy (s : State) (x : TalSt) : (s.withTal x).asy = s.asy := rfl
@[simp] theorem State.withTal_net (s : State) (x : TalSt) : (s.withTal x).net = s.net := rfl
@[simp] theorem State.withTal_pwr (s : State) (x : TalSt) : (s.withTal x).pwr = s.pwr := rfl
@[simp] theorem State.withTal_evt (s : State) (x : TalSt) : (s.withTal x).evt = s.evt := rfl
@[simp] theorem State.withTal_msix (s : State) (x : TalSt) : (s.withTal x).msix = s.msix := rfl
@[simp] theorem State.withTal_dma (s : State) (x : TalSt) : (s.withTal x).dma = s.dma := rfl
@[simp] theorem State.withTal_early (s : State) (x : TalSt) : (s.withTal x).early = s.early := rfl
@[simp] theorem State.withTal_hostMem (s : State) (x : TalSt) : (s.withTal x).hostMem = s.hostMem := rfl
@[simp] theorem State.withTal_hostErr (s : State) (x : TalSt) : (s.withTal x).hostErr = s.hostErr := rfl
@[simp] theorem State.withTal_win (s : State) (x : TalSt) : (s.withTal x).win = s.win := rfl
@[simp] theorem State.withTal_boot (s : State) (x : TalSt) : (s.withTal x).boot = s.boot := rfl
@[simp] theorem State.withTal_fuses (s : State) (x : TalSt) : (s.withTal x).fuses = s.fuses := rfl
@[simp] theorem State.withTal_dbg (s : State) (x : TalSt) : (s.withTal x).dbg = s.dbg := rfl
@[simp] theorem State.withTal_pins (s : State) (x : TalSt) : (s.withTal x).pins = s.pins := rfl
@[simp] theorem State.withTal_ucieLost (s : State) (x : TalSt) : (s.withTal x).ucieLost = s.ucieLost := rfl
@[simp] theorem State.withTal_out (s : State) (x : TalSt) : (s.withTal x).out = s.out := rfl
@[simp] theorem State.withTal_thermtrip (s : State) (x : TalSt) : (s.withTal x).thermtrip = s.thermtrip := rfl
@[simp] theorem State.withTal_freeCtr (s : State) (x : TalSt) : (s.withTal x).freeCtr = s.freeCtr := rfl

/-! ### withBeat -/

@[simp] theorem State.withBeat_product (s : State) (x : BeatSt) : (s.withBeat x).product = s.product := rfl
@[simp] theorem State.withBeat_pending (s : State) (x : BeatSt) : (s.withBeat x).pending = s.pending := rfl
@[simp] theorem State.withBeat_regs (s : State) (x : BeatSt) : (s.withBeat x).regs = s.regs := rfl
@[simp] theorem State.withBeat_active (s : State) (x : BeatSt) : (s.withBeat x).active = s.active := rfl
@[simp] theorem State.withBeat_masters (s : State) (x : BeatSt) : (s.withBeat x).masters = s.masters := rfl
@[simp] theorem State.withBeat_adm (s : State) (x : BeatSt) : (s.withBeat x).adm = s.adm := rfl
@[simp] theorem State.withBeat_slots (s : State) (x : BeatSt) : (s.withBeat x).slots = s.slots := rfl
@[simp] theorem State.withBeat_egr (s : State) (x : BeatSt) : (s.withBeat x).egr = s.egr := rfl
@[simp] theorem State.withBeat_tal (s : State) (x : BeatSt) : (s.withBeat x).tal = s.tal := rfl
@[simp] theorem State.withBeat_beat (s : State) (x : BeatSt) : (s.withBeat x).beat = x := rfl
@[simp] theorem State.withBeat_plats (s : State) (x : BeatSt) : (s.withBeat x).plats = s.plats := rfl
@[simp] theorem State.withBeat_fo (s : State) (x : BeatSt) : (s.withBeat x).fo = s.fo := rfl
@[simp] theorem State.withBeat_mem (s : State) (x : BeatSt) : (s.withBeat x).mem = s.mem := rfl
@[simp] theorem State.withBeat_claims (s : State) (x : BeatSt) : (s.withBeat x).claims = s.claims := rfl
@[simp] theorem State.withBeat_l2 (s : State) (x : BeatSt) : (s.withBeat x).l2 = s.l2 := rfl
@[simp] theorem State.withBeat_tlb (s : State) (x : BeatSt) : (s.withBeat x).tlb = s.tlb := rfl
@[simp] theorem State.withBeat_walks (s : State) (x : BeatSt) : (s.withBeat x).walks = s.walks := rfl
@[simp] theorem State.withBeat_mmu (s : State) (x : BeatSt) : (s.withBeat x).mmu = s.mmu := rfl
@[simp] theorem State.withBeat_clus (s : State) (x : BeatSt) : (s.withBeat x).clus = s.clus := rfl
@[simp] theorem State.withBeat_adit (s : State) (x : BeatSt) : (s.withBeat x).adit = s.adit := rfl
@[simp] theorem State.withBeat_asy (s : State) (x : BeatSt) : (s.withBeat x).asy = s.asy := rfl
@[simp] theorem State.withBeat_net (s : State) (x : BeatSt) : (s.withBeat x).net = s.net := rfl
@[simp] theorem State.withBeat_pwr (s : State) (x : BeatSt) : (s.withBeat x).pwr = s.pwr := rfl
@[simp] theorem State.withBeat_evt (s : State) (x : BeatSt) : (s.withBeat x).evt = s.evt := rfl
@[simp] theorem State.withBeat_msix (s : State) (x : BeatSt) : (s.withBeat x).msix = s.msix := rfl
@[simp] theorem State.withBeat_dma (s : State) (x : BeatSt) : (s.withBeat x).dma = s.dma := rfl
@[simp] theorem State.withBeat_early (s : State) (x : BeatSt) : (s.withBeat x).early = s.early := rfl
@[simp] theorem State.withBeat_hostMem (s : State) (x : BeatSt) : (s.withBeat x).hostMem = s.hostMem := rfl
@[simp] theorem State.withBeat_hostErr (s : State) (x : BeatSt) : (s.withBeat x).hostErr = s.hostErr := rfl
@[simp] theorem State.withBeat_win (s : State) (x : BeatSt) : (s.withBeat x).win = s.win := rfl
@[simp] theorem State.withBeat_boot (s : State) (x : BeatSt) : (s.withBeat x).boot = s.boot := rfl
@[simp] theorem State.withBeat_fuses (s : State) (x : BeatSt) : (s.withBeat x).fuses = s.fuses := rfl
@[simp] theorem State.withBeat_dbg (s : State) (x : BeatSt) : (s.withBeat x).dbg = s.dbg := rfl
@[simp] theorem State.withBeat_pins (s : State) (x : BeatSt) : (s.withBeat x).pins = s.pins := rfl
@[simp] theorem State.withBeat_ucieLost (s : State) (x : BeatSt) : (s.withBeat x).ucieLost = s.ucieLost := rfl
@[simp] theorem State.withBeat_out (s : State) (x : BeatSt) : (s.withBeat x).out = s.out := rfl
@[simp] theorem State.withBeat_thermtrip (s : State) (x : BeatSt) : (s.withBeat x).thermtrip = s.thermtrip := rfl
@[simp] theorem State.withBeat_freeCtr (s : State) (x : BeatSt) : (s.withBeat x).freeCtr = s.freeCtr := rfl

/-! ### withBoot -/

@[simp] theorem State.withBoot_product (s : State) (x : BootSt) : (s.withBoot x).product = s.product := rfl
@[simp] theorem State.withBoot_pending (s : State) (x : BootSt) : (s.withBoot x).pending = s.pending := rfl
@[simp] theorem State.withBoot_regs (s : State) (x : BootSt) : (s.withBoot x).regs = s.regs := rfl
@[simp] theorem State.withBoot_active (s : State) (x : BootSt) : (s.withBoot x).active = s.active := rfl
@[simp] theorem State.withBoot_masters (s : State) (x : BootSt) : (s.withBoot x).masters = s.masters := rfl
@[simp] theorem State.withBoot_adm (s : State) (x : BootSt) : (s.withBoot x).adm = s.adm := rfl
@[simp] theorem State.withBoot_slots (s : State) (x : BootSt) : (s.withBoot x).slots = s.slots := rfl
@[simp] theorem State.withBoot_egr (s : State) (x : BootSt) : (s.withBoot x).egr = s.egr := rfl
@[simp] theorem State.withBoot_tal (s : State) (x : BootSt) : (s.withBoot x).tal = s.tal := rfl
@[simp] theorem State.withBoot_beat (s : State) (x : BootSt) : (s.withBoot x).beat = s.beat := rfl
@[simp] theorem State.withBoot_plats (s : State) (x : BootSt) : (s.withBoot x).plats = s.plats := rfl
@[simp] theorem State.withBoot_fo (s : State) (x : BootSt) : (s.withBoot x).fo = s.fo := rfl
@[simp] theorem State.withBoot_mem (s : State) (x : BootSt) : (s.withBoot x).mem = s.mem := rfl
@[simp] theorem State.withBoot_claims (s : State) (x : BootSt) : (s.withBoot x).claims = s.claims := rfl
@[simp] theorem State.withBoot_l2 (s : State) (x : BootSt) : (s.withBoot x).l2 = s.l2 := rfl
@[simp] theorem State.withBoot_tlb (s : State) (x : BootSt) : (s.withBoot x).tlb = s.tlb := rfl
@[simp] theorem State.withBoot_walks (s : State) (x : BootSt) : (s.withBoot x).walks = s.walks := rfl
@[simp] theorem State.withBoot_mmu (s : State) (x : BootSt) : (s.withBoot x).mmu = s.mmu := rfl
@[simp] theorem State.withBoot_clus (s : State) (x : BootSt) : (s.withBoot x).clus = s.clus := rfl
@[simp] theorem State.withBoot_adit (s : State) (x : BootSt) : (s.withBoot x).adit = s.adit := rfl
@[simp] theorem State.withBoot_asy (s : State) (x : BootSt) : (s.withBoot x).asy = s.asy := rfl
@[simp] theorem State.withBoot_net (s : State) (x : BootSt) : (s.withBoot x).net = s.net := rfl
@[simp] theorem State.withBoot_pwr (s : State) (x : BootSt) : (s.withBoot x).pwr = s.pwr := rfl
@[simp] theorem State.withBoot_evt (s : State) (x : BootSt) : (s.withBoot x).evt = s.evt := rfl
@[simp] theorem State.withBoot_msix (s : State) (x : BootSt) : (s.withBoot x).msix = s.msix := rfl
@[simp] theorem State.withBoot_dma (s : State) (x : BootSt) : (s.withBoot x).dma = s.dma := rfl
@[simp] theorem State.withBoot_early (s : State) (x : BootSt) : (s.withBoot x).early = s.early := rfl
@[simp] theorem State.withBoot_hostMem (s : State) (x : BootSt) : (s.withBoot x).hostMem = s.hostMem := rfl
@[simp] theorem State.withBoot_hostErr (s : State) (x : BootSt) : (s.withBoot x).hostErr = s.hostErr := rfl
@[simp] theorem State.withBoot_win (s : State) (x : BootSt) : (s.withBoot x).win = s.win := rfl
@[simp] theorem State.withBoot_boot (s : State) (x : BootSt) : (s.withBoot x).boot = x := rfl
@[simp] theorem State.withBoot_fuses (s : State) (x : BootSt) : (s.withBoot x).fuses = s.fuses := rfl
@[simp] theorem State.withBoot_dbg (s : State) (x : BootSt) : (s.withBoot x).dbg = s.dbg := rfl
@[simp] theorem State.withBoot_pins (s : State) (x : BootSt) : (s.withBoot x).pins = s.pins := rfl
@[simp] theorem State.withBoot_ucieLost (s : State) (x : BootSt) : (s.withBoot x).ucieLost = s.ucieLost := rfl
@[simp] theorem State.withBoot_out (s : State) (x : BootSt) : (s.withBoot x).out = s.out := rfl
@[simp] theorem State.withBoot_thermtrip (s : State) (x : BootSt) : (s.withBoot x).thermtrip = s.thermtrip := rfl
@[simp] theorem State.withBoot_freeCtr (s : State) (x : BootSt) : (s.withBoot x).freeCtr = s.freeCtr := rfl

/-! ### withDbg -/

@[simp] theorem State.withDbg_product (s : State) (x : DbgSt) : (s.withDbg x).product = s.product := rfl
@[simp] theorem State.withDbg_pending (s : State) (x : DbgSt) : (s.withDbg x).pending = s.pending := rfl
@[simp] theorem State.withDbg_regs (s : State) (x : DbgSt) : (s.withDbg x).regs = s.regs := rfl
@[simp] theorem State.withDbg_active (s : State) (x : DbgSt) : (s.withDbg x).active = s.active := rfl
@[simp] theorem State.withDbg_masters (s : State) (x : DbgSt) : (s.withDbg x).masters = s.masters := rfl
@[simp] theorem State.withDbg_adm (s : State) (x : DbgSt) : (s.withDbg x).adm = s.adm := rfl
@[simp] theorem State.withDbg_slots (s : State) (x : DbgSt) : (s.withDbg x).slots = s.slots := rfl
@[simp] theorem State.withDbg_egr (s : State) (x : DbgSt) : (s.withDbg x).egr = s.egr := rfl
@[simp] theorem State.withDbg_tal (s : State) (x : DbgSt) : (s.withDbg x).tal = s.tal := rfl
@[simp] theorem State.withDbg_beat (s : State) (x : DbgSt) : (s.withDbg x).beat = s.beat := rfl
@[simp] theorem State.withDbg_plats (s : State) (x : DbgSt) : (s.withDbg x).plats = s.plats := rfl
@[simp] theorem State.withDbg_fo (s : State) (x : DbgSt) : (s.withDbg x).fo = s.fo := rfl
@[simp] theorem State.withDbg_mem (s : State) (x : DbgSt) : (s.withDbg x).mem = s.mem := rfl
@[simp] theorem State.withDbg_claims (s : State) (x : DbgSt) : (s.withDbg x).claims = s.claims := rfl
@[simp] theorem State.withDbg_l2 (s : State) (x : DbgSt) : (s.withDbg x).l2 = s.l2 := rfl
@[simp] theorem State.withDbg_tlb (s : State) (x : DbgSt) : (s.withDbg x).tlb = s.tlb := rfl
@[simp] theorem State.withDbg_walks (s : State) (x : DbgSt) : (s.withDbg x).walks = s.walks := rfl
@[simp] theorem State.withDbg_mmu (s : State) (x : DbgSt) : (s.withDbg x).mmu = s.mmu := rfl
@[simp] theorem State.withDbg_clus (s : State) (x : DbgSt) : (s.withDbg x).clus = s.clus := rfl
@[simp] theorem State.withDbg_adit (s : State) (x : DbgSt) : (s.withDbg x).adit = s.adit := rfl
@[simp] theorem State.withDbg_asy (s : State) (x : DbgSt) : (s.withDbg x).asy = s.asy := rfl
@[simp] theorem State.withDbg_net (s : State) (x : DbgSt) : (s.withDbg x).net = s.net := rfl
@[simp] theorem State.withDbg_pwr (s : State) (x : DbgSt) : (s.withDbg x).pwr = s.pwr := rfl
@[simp] theorem State.withDbg_evt (s : State) (x : DbgSt) : (s.withDbg x).evt = s.evt := rfl
@[simp] theorem State.withDbg_msix (s : State) (x : DbgSt) : (s.withDbg x).msix = s.msix := rfl
@[simp] theorem State.withDbg_dma (s : State) (x : DbgSt) : (s.withDbg x).dma = s.dma := rfl
@[simp] theorem State.withDbg_early (s : State) (x : DbgSt) : (s.withDbg x).early = s.early := rfl
@[simp] theorem State.withDbg_hostMem (s : State) (x : DbgSt) : (s.withDbg x).hostMem = s.hostMem := rfl
@[simp] theorem State.withDbg_hostErr (s : State) (x : DbgSt) : (s.withDbg x).hostErr = s.hostErr := rfl
@[simp] theorem State.withDbg_win (s : State) (x : DbgSt) : (s.withDbg x).win = s.win := rfl
@[simp] theorem State.withDbg_boot (s : State) (x : DbgSt) : (s.withDbg x).boot = s.boot := rfl
@[simp] theorem State.withDbg_fuses (s : State) (x : DbgSt) : (s.withDbg x).fuses = s.fuses := rfl
@[simp] theorem State.withDbg_dbg (s : State) (x : DbgSt) : (s.withDbg x).dbg = x := rfl
@[simp] theorem State.withDbg_pins (s : State) (x : DbgSt) : (s.withDbg x).pins = s.pins := rfl
@[simp] theorem State.withDbg_ucieLost (s : State) (x : DbgSt) : (s.withDbg x).ucieLost = s.ucieLost := rfl
@[simp] theorem State.withDbg_out (s : State) (x : DbgSt) : (s.withDbg x).out = s.out := rfl
@[simp] theorem State.withDbg_thermtrip (s : State) (x : DbgSt) : (s.withDbg x).thermtrip = s.thermtrip := rfl
@[simp] theorem State.withDbg_freeCtr (s : State) (x : DbgSt) : (s.withDbg x).freeCtr = s.freeCtr := rfl

/-! ### withPins -/

@[simp] theorem State.withPins_product (s : State) (x : PinSt) : (s.withPins x).product = s.product := rfl
@[simp] theorem State.withPins_pending (s : State) (x : PinSt) : (s.withPins x).pending = s.pending := rfl
@[simp] theorem State.withPins_regs (s : State) (x : PinSt) : (s.withPins x).regs = s.regs := rfl
@[simp] theorem State.withPins_active (s : State) (x : PinSt) : (s.withPins x).active = s.active := rfl
@[simp] theorem State.withPins_masters (s : State) (x : PinSt) : (s.withPins x).masters = s.masters := rfl
@[simp] theorem State.withPins_adm (s : State) (x : PinSt) : (s.withPins x).adm = s.adm := rfl
@[simp] theorem State.withPins_slots (s : State) (x : PinSt) : (s.withPins x).slots = s.slots := rfl
@[simp] theorem State.withPins_egr (s : State) (x : PinSt) : (s.withPins x).egr = s.egr := rfl
@[simp] theorem State.withPins_tal (s : State) (x : PinSt) : (s.withPins x).tal = s.tal := rfl
@[simp] theorem State.withPins_beat (s : State) (x : PinSt) : (s.withPins x).beat = s.beat := rfl
@[simp] theorem State.withPins_plats (s : State) (x : PinSt) : (s.withPins x).plats = s.plats := rfl
@[simp] theorem State.withPins_fo (s : State) (x : PinSt) : (s.withPins x).fo = s.fo := rfl
@[simp] theorem State.withPins_mem (s : State) (x : PinSt) : (s.withPins x).mem = s.mem := rfl
@[simp] theorem State.withPins_claims (s : State) (x : PinSt) : (s.withPins x).claims = s.claims := rfl
@[simp] theorem State.withPins_l2 (s : State) (x : PinSt) : (s.withPins x).l2 = s.l2 := rfl
@[simp] theorem State.withPins_tlb (s : State) (x : PinSt) : (s.withPins x).tlb = s.tlb := rfl
@[simp] theorem State.withPins_walks (s : State) (x : PinSt) : (s.withPins x).walks = s.walks := rfl
@[simp] theorem State.withPins_mmu (s : State) (x : PinSt) : (s.withPins x).mmu = s.mmu := rfl
@[simp] theorem State.withPins_clus (s : State) (x : PinSt) : (s.withPins x).clus = s.clus := rfl
@[simp] theorem State.withPins_adit (s : State) (x : PinSt) : (s.withPins x).adit = s.adit := rfl
@[simp] theorem State.withPins_asy (s : State) (x : PinSt) : (s.withPins x).asy = s.asy := rfl
@[simp] theorem State.withPins_net (s : State) (x : PinSt) : (s.withPins x).net = s.net := rfl
@[simp] theorem State.withPins_pwr (s : State) (x : PinSt) : (s.withPins x).pwr = s.pwr := rfl
@[simp] theorem State.withPins_evt (s : State) (x : PinSt) : (s.withPins x).evt = s.evt := rfl
@[simp] theorem State.withPins_msix (s : State) (x : PinSt) : (s.withPins x).msix = s.msix := rfl
@[simp] theorem State.withPins_dma (s : State) (x : PinSt) : (s.withPins x).dma = s.dma := rfl
@[simp] theorem State.withPins_early (s : State) (x : PinSt) : (s.withPins x).early = s.early := rfl
@[simp] theorem State.withPins_hostMem (s : State) (x : PinSt) : (s.withPins x).hostMem = s.hostMem := rfl
@[simp] theorem State.withPins_hostErr (s : State) (x : PinSt) : (s.withPins x).hostErr = s.hostErr := rfl
@[simp] theorem State.withPins_win (s : State) (x : PinSt) : (s.withPins x).win = s.win := rfl
@[simp] theorem State.withPins_boot (s : State) (x : PinSt) : (s.withPins x).boot = s.boot := rfl
@[simp] theorem State.withPins_fuses (s : State) (x : PinSt) : (s.withPins x).fuses = s.fuses := rfl
@[simp] theorem State.withPins_dbg (s : State) (x : PinSt) : (s.withPins x).dbg = s.dbg := rfl
@[simp] theorem State.withPins_pins (s : State) (x : PinSt) : (s.withPins x).pins = x := rfl
@[simp] theorem State.withPins_ucieLost (s : State) (x : PinSt) : (s.withPins x).ucieLost = s.ucieLost := rfl
@[simp] theorem State.withPins_out (s : State) (x : PinSt) : (s.withPins x).out = s.out := rfl
@[simp] theorem State.withPins_thermtrip (s : State) (x : PinSt) : (s.withPins x).thermtrip = s.thermtrip := rfl
@[simp] theorem State.withPins_freeCtr (s : State) (x : PinSt) : (s.withPins x).freeCtr = s.freeCtr := rfl

/-! ### setSlot -/

@[simp] theorem State.setSlot_product (s : State) (k : Nat) (x : SlotRec) : (s.setSlot k x).product = s.product := rfl
@[simp] theorem State.setSlot_pending (s : State) (k : Nat) (x : SlotRec) : (s.setSlot k x).pending = s.pending := rfl
@[simp] theorem State.setSlot_regs (s : State) (k : Nat) (x : SlotRec) : (s.setSlot k x).regs = s.regs := rfl
@[simp] theorem State.setSlot_active (s : State) (k : Nat) (x : SlotRec) : (s.setSlot k x).active = s.active := rfl
@[simp] theorem State.setSlot_masters (s : State) (k : Nat) (x : SlotRec) : (s.setSlot k x).masters = s.masters := rfl
@[simp] theorem State.setSlot_adm (s : State) (k : Nat) (x : SlotRec) : (s.setSlot k x).adm = s.adm := rfl
@[simp] theorem State.setSlot_egr (s : State) (k : Nat) (x : SlotRec) : (s.setSlot k x).egr = s.egr := rfl
@[simp] theorem State.setSlot_tal (s : State) (k : Nat) (x : SlotRec) : (s.setSlot k x).tal = s.tal := rfl
@[simp] theorem State.setSlot_beat (s : State) (k : Nat) (x : SlotRec) : (s.setSlot k x).beat = s.beat := rfl
@[simp] theorem State.setSlot_plats (s : State) (k : Nat) (x : SlotRec) : (s.setSlot k x).plats = s.plats := rfl
@[simp] theorem State.setSlot_fo (s : State) (k : Nat) (x : SlotRec) : (s.setSlot k x).fo = s.fo := rfl
@[simp] theorem State.setSlot_mem (s : State) (k : Nat) (x : SlotRec) : (s.setSlot k x).mem = s.mem := rfl
@[simp] theorem State.setSlot_claims (s : State) (k : Nat) (x : SlotRec) : (s.setSlot k x).claims = s.claims := rfl
@[simp] theorem State.setSlot_l2 (s : State) (k : Nat) (x : SlotRec) : (s.setSlot k x).l2 = s.l2 := rfl
@[simp] theorem State.setSlot_tlb (s : State) (k : Nat) (x : SlotRec) : (s.setSlot k x).tlb = s.tlb := rfl
@[simp] theorem State.setSlot_walks (s : State) (k : Nat) (x : SlotRec) : (s.setSlot k x).walks = s.walks := rfl
@[simp] theorem State.setSlot_mmu (s : State) (k : Nat) (x : SlotRec) : (s.setSlot k x).mmu = s.mmu := rfl
@[simp] theorem State.setSlot_clus (s : State) (k : Nat) (x : SlotRec) : (s.setSlot k x).clus = s.clus := rfl
@[simp] theorem State.setSlot_adit (s : State) (k : Nat) (x : SlotRec) : (s.setSlot k x).adit = s.adit := rfl
@[simp] theorem State.setSlot_asy (s : State) (k : Nat) (x : SlotRec) : (s.setSlot k x).asy = s.asy := rfl
@[simp] theorem State.setSlot_net (s : State) (k : Nat) (x : SlotRec) : (s.setSlot k x).net = s.net := rfl
@[simp] theorem State.setSlot_pwr (s : State) (k : Nat) (x : SlotRec) : (s.setSlot k x).pwr = s.pwr := rfl
@[simp] theorem State.setSlot_evt (s : State) (k : Nat) (x : SlotRec) : (s.setSlot k x).evt = s.evt := rfl
@[simp] theorem State.setSlot_msix (s : State) (k : Nat) (x : SlotRec) : (s.setSlot k x).msix = s.msix := rfl
@[simp] theorem State.setSlot_dma (s : State) (k : Nat) (x : SlotRec) : (s.setSlot k x).dma = s.dma := rfl
@[simp] theorem State.setSlot_early (s : State) (k : Nat) (x : SlotRec) : (s.setSlot k x).early = s.early := rfl
@[simp] theorem State.setSlot_hostMem (s : State) (k : Nat) (x : SlotRec) : (s.setSlot k x).hostMem = s.hostMem := rfl
@[simp] theorem State.setSlot_hostErr (s : State) (k : Nat) (x : SlotRec) : (s.setSlot k x).hostErr = s.hostErr := rfl
@[simp] theorem State.setSlot_win (s : State) (k : Nat) (x : SlotRec) : (s.setSlot k x).win = s.win := rfl
@[simp] theorem State.setSlot_boot (s : State) (k : Nat) (x : SlotRec) : (s.setSlot k x).boot = s.boot := rfl
@[simp] theorem State.setSlot_fuses (s : State) (k : Nat) (x : SlotRec) : (s.setSlot k x).fuses = s.fuses := rfl
@[simp] theorem State.setSlot_dbg (s : State) (k : Nat) (x : SlotRec) : (s.setSlot k x).dbg = s.dbg := rfl
@[simp] theorem State.setSlot_pins (s : State) (k : Nat) (x : SlotRec) : (s.setSlot k x).pins = s.pins := rfl
@[simp] theorem State.setSlot_ucieLost (s : State) (k : Nat) (x : SlotRec) : (s.setSlot k x).ucieLost = s.ucieLost := rfl
@[simp] theorem State.setSlot_out (s : State) (k : Nat) (x : SlotRec) : (s.setSlot k x).out = s.out := rfl
@[simp] theorem State.setSlot_thermtrip (s : State) (k : Nat) (x : SlotRec) : (s.setSlot k x).thermtrip = s.thermtrip := rfl
@[simp] theorem State.setSlot_freeCtr (s : State) (k : Nat) (x : SlotRec) : (s.setSlot k x).freeCtr = s.freeCtr := rfl

/-! ### setPlat -/

@[simp] theorem State.setPlat_product (s : State) (p : Nat) (x : PlatSt) : (s.setPlat p x).product = s.product := rfl
@[simp] theorem State.setPlat_pending (s : State) (p : Nat) (x : PlatSt) : (s.setPlat p x).pending = s.pending := rfl
@[simp] theorem State.setPlat_regs (s : State) (p : Nat) (x : PlatSt) : (s.setPlat p x).regs = s.regs := rfl
@[simp] theorem State.setPlat_active (s : State) (p : Nat) (x : PlatSt) : (s.setPlat p x).active = s.active := rfl
@[simp] theorem State.setPlat_masters (s : State) (p : Nat) (x : PlatSt) : (s.setPlat p x).masters = s.masters := rfl
@[simp] theorem State.setPlat_adm (s : State) (p : Nat) (x : PlatSt) : (s.setPlat p x).adm = s.adm := rfl
@[simp] theorem State.setPlat_slots (s : State) (p : Nat) (x : PlatSt) : (s.setPlat p x).slots = s.slots := rfl
@[simp] theorem State.setPlat_egr (s : State) (p : Nat) (x : PlatSt) : (s.setPlat p x).egr = s.egr := rfl
@[simp] theorem State.setPlat_tal (s : State) (p : Nat) (x : PlatSt) : (s.setPlat p x).tal = s.tal := rfl
@[simp] theorem State.setPlat_beat (s : State) (p : Nat) (x : PlatSt) : (s.setPlat p x).beat = s.beat := rfl
@[simp] theorem State.setPlat_fo (s : State) (p : Nat) (x : PlatSt) : (s.setPlat p x).fo = s.fo := rfl
@[simp] theorem State.setPlat_mem (s : State) (p : Nat) (x : PlatSt) : (s.setPlat p x).mem = s.mem := rfl
@[simp] theorem State.setPlat_claims (s : State) (p : Nat) (x : PlatSt) : (s.setPlat p x).claims = s.claims := rfl
@[simp] theorem State.setPlat_l2 (s : State) (p : Nat) (x : PlatSt) : (s.setPlat p x).l2 = s.l2 := rfl
@[simp] theorem State.setPlat_tlb (s : State) (p : Nat) (x : PlatSt) : (s.setPlat p x).tlb = s.tlb := rfl
@[simp] theorem State.setPlat_walks (s : State) (p : Nat) (x : PlatSt) : (s.setPlat p x).walks = s.walks := rfl
@[simp] theorem State.setPlat_mmu (s : State) (p : Nat) (x : PlatSt) : (s.setPlat p x).mmu = s.mmu := rfl
@[simp] theorem State.setPlat_clus (s : State) (p : Nat) (x : PlatSt) : (s.setPlat p x).clus = s.clus := rfl
@[simp] theorem State.setPlat_adit (s : State) (p : Nat) (x : PlatSt) : (s.setPlat p x).adit = s.adit := rfl
@[simp] theorem State.setPlat_asy (s : State) (p : Nat) (x : PlatSt) : (s.setPlat p x).asy = s.asy := rfl
@[simp] theorem State.setPlat_net (s : State) (p : Nat) (x : PlatSt) : (s.setPlat p x).net = s.net := rfl
@[simp] theorem State.setPlat_pwr (s : State) (p : Nat) (x : PlatSt) : (s.setPlat p x).pwr = s.pwr := rfl
@[simp] theorem State.setPlat_evt (s : State) (p : Nat) (x : PlatSt) : (s.setPlat p x).evt = s.evt := rfl
@[simp] theorem State.setPlat_msix (s : State) (p : Nat) (x : PlatSt) : (s.setPlat p x).msix = s.msix := rfl
@[simp] theorem State.setPlat_dma (s : State) (p : Nat) (x : PlatSt) : (s.setPlat p x).dma = s.dma := rfl
@[simp] theorem State.setPlat_early (s : State) (p : Nat) (x : PlatSt) : (s.setPlat p x).early = s.early := rfl
@[simp] theorem State.setPlat_hostMem (s : State) (p : Nat) (x : PlatSt) : (s.setPlat p x).hostMem = s.hostMem := rfl
@[simp] theorem State.setPlat_hostErr (s : State) (p : Nat) (x : PlatSt) : (s.setPlat p x).hostErr = s.hostErr := rfl
@[simp] theorem State.setPlat_win (s : State) (p : Nat) (x : PlatSt) : (s.setPlat p x).win = s.win := rfl
@[simp] theorem State.setPlat_boot (s : State) (p : Nat) (x : PlatSt) : (s.setPlat p x).boot = s.boot := rfl
@[simp] theorem State.setPlat_fuses (s : State) (p : Nat) (x : PlatSt) : (s.setPlat p x).fuses = s.fuses := rfl
@[simp] theorem State.setPlat_dbg (s : State) (p : Nat) (x : PlatSt) : (s.setPlat p x).dbg = s.dbg := rfl
@[simp] theorem State.setPlat_pins (s : State) (p : Nat) (x : PlatSt) : (s.setPlat p x).pins = s.pins := rfl
@[simp] theorem State.setPlat_ucieLost (s : State) (p : Nat) (x : PlatSt) : (s.setPlat p x).ucieLost = s.ucieLost := rfl
@[simp] theorem State.setPlat_out (s : State) (p : Nat) (x : PlatSt) : (s.setPlat p x).out = s.out := rfl
@[simp] theorem State.setPlat_thermtrip (s : State) (p : Nat) (x : PlatSt) : (s.setPlat p x).thermtrip = s.thermtrip := rfl
@[simp] theorem State.setPlat_freeCtr (s : State) (p : Nat) (x : PlatSt) : (s.setPlat p x).freeCtr = s.freeCtr := rfl

/-! ### setFrame -/

@[simp] theorem State.setFrame_product (s : State) (p f : Nat) (x : Frame) : (s.setFrame p f x).product = s.product := rfl
@[simp] theorem State.setFrame_pending (s : State) (p f : Nat) (x : Frame) : (s.setFrame p f x).pending = s.pending := rfl
@[simp] theorem State.setFrame_regs (s : State) (p f : Nat) (x : Frame) : (s.setFrame p f x).regs = s.regs := rfl
@[simp] theorem State.setFrame_active (s : State) (p f : Nat) (x : Frame) : (s.setFrame p f x).active = s.active := rfl
@[simp] theorem State.setFrame_masters (s : State) (p f : Nat) (x : Frame) : (s.setFrame p f x).masters = s.masters := rfl
@[simp] theorem State.setFrame_adm (s : State) (p f : Nat) (x : Frame) : (s.setFrame p f x).adm = s.adm := rfl
@[simp] theorem State.setFrame_slots (s : State) (p f : Nat) (x : Frame) : (s.setFrame p f x).slots = s.slots := rfl
@[simp] theorem State.setFrame_egr (s : State) (p f : Nat) (x : Frame) : (s.setFrame p f x).egr = s.egr := rfl
@[simp] theorem State.setFrame_tal (s : State) (p f : Nat) (x : Frame) : (s.setFrame p f x).tal = s.tal := rfl
@[simp] theorem State.setFrame_beat (s : State) (p f : Nat) (x : Frame) : (s.setFrame p f x).beat = s.beat := rfl
@[simp] theorem State.setFrame_fo (s : State) (p f : Nat) (x : Frame) : (s.setFrame p f x).fo = s.fo := rfl
@[simp] theorem State.setFrame_mem (s : State) (p f : Nat) (x : Frame) : (s.setFrame p f x).mem = s.mem := rfl
@[simp] theorem State.setFrame_claims (s : State) (p f : Nat) (x : Frame) : (s.setFrame p f x).claims = s.claims := rfl
@[simp] theorem State.setFrame_l2 (s : State) (p f : Nat) (x : Frame) : (s.setFrame p f x).l2 = s.l2 := rfl
@[simp] theorem State.setFrame_tlb (s : State) (p f : Nat) (x : Frame) : (s.setFrame p f x).tlb = s.tlb := rfl
@[simp] theorem State.setFrame_walks (s : State) (p f : Nat) (x : Frame) : (s.setFrame p f x).walks = s.walks := rfl
@[simp] theorem State.setFrame_mmu (s : State) (p f : Nat) (x : Frame) : (s.setFrame p f x).mmu = s.mmu := rfl
@[simp] theorem State.setFrame_clus (s : State) (p f : Nat) (x : Frame) : (s.setFrame p f x).clus = s.clus := rfl
@[simp] theorem State.setFrame_adit (s : State) (p f : Nat) (x : Frame) : (s.setFrame p f x).adit = s.adit := rfl
@[simp] theorem State.setFrame_asy (s : State) (p f : Nat) (x : Frame) : (s.setFrame p f x).asy = s.asy := rfl
@[simp] theorem State.setFrame_net (s : State) (p f : Nat) (x : Frame) : (s.setFrame p f x).net = s.net := rfl
@[simp] theorem State.setFrame_pwr (s : State) (p f : Nat) (x : Frame) : (s.setFrame p f x).pwr = s.pwr := rfl
@[simp] theorem State.setFrame_evt (s : State) (p f : Nat) (x : Frame) : (s.setFrame p f x).evt = s.evt := rfl
@[simp] theorem State.setFrame_msix (s : State) (p f : Nat) (x : Frame) : (s.setFrame p f x).msix = s.msix := rfl
@[simp] theorem State.setFrame_dma (s : State) (p f : Nat) (x : Frame) : (s.setFrame p f x).dma = s.dma := rfl
@[simp] theorem State.setFrame_early (s : State) (p f : Nat) (x : Frame) : (s.setFrame p f x).early = s.early := rfl
@[simp] theorem State.setFrame_hostMem (s : State) (p f : Nat) (x : Frame) : (s.setFrame p f x).hostMem = s.hostMem := rfl
@[simp] theorem State.setFrame_hostErr (s : State) (p f : Nat) (x : Frame) : (s.setFrame p f x).hostErr = s.hostErr := rfl
@[simp] theorem State.setFrame_win (s : State) (p f : Nat) (x : Frame) : (s.setFrame p f x).win = s.win := rfl
@[simp] theorem State.setFrame_boot (s : State) (p f : Nat) (x : Frame) : (s.setFrame p f x).boot = s.boot := rfl
@[simp] theorem State.setFrame_fuses (s : State) (p f : Nat) (x : Frame) : (s.setFrame p f x).fuses = s.fuses := rfl
@[simp] theorem State.setFrame_dbg (s : State) (p f : Nat) (x : Frame) : (s.setFrame p f x).dbg = s.dbg := rfl
@[simp] theorem State.setFrame_pins (s : State) (p f : Nat) (x : Frame) : (s.setFrame p f x).pins = s.pins := rfl
@[simp] theorem State.setFrame_ucieLost (s : State) (p f : Nat) (x : Frame) : (s.setFrame p f x).ucieLost = s.ucieLost := rfl
@[simp] theorem State.setFrame_out (s : State) (p f : Nat) (x : Frame) : (s.setFrame p f x).out = s.out := rfl
@[simp] theorem State.setFrame_thermtrip (s : State) (p f : Nat) (x : Frame) : (s.setFrame p f x).thermtrip = s.thermtrip := rfl
@[simp] theorem State.setFrame_freeCtr (s : State) (p f : Nat) (x : Frame) : (s.setFrame p f x).freeCtr = s.freeCtr := rfl

/-! ### setFo -/

@[simp] theorem State.setFo_product (s : State) (p : Nat) (x : FoSt) : (s.setFo p x).product = s.product := rfl
@[simp] theorem State.setFo_pending (s : State) (p : Nat) (x : FoSt) : (s.setFo p x).pending = s.pending := rfl
@[simp] theorem State.setFo_regs (s : State) (p : Nat) (x : FoSt) : (s.setFo p x).regs = s.regs := rfl
@[simp] theorem State.setFo_active (s : State) (p : Nat) (x : FoSt) : (s.setFo p x).active = s.active := rfl
@[simp] theorem State.setFo_masters (s : State) (p : Nat) (x : FoSt) : (s.setFo p x).masters = s.masters := rfl
@[simp] theorem State.setFo_adm (s : State) (p : Nat) (x : FoSt) : (s.setFo p x).adm = s.adm := rfl
@[simp] theorem State.setFo_slots (s : State) (p : Nat) (x : FoSt) : (s.setFo p x).slots = s.slots := rfl
@[simp] theorem State.setFo_egr (s : State) (p : Nat) (x : FoSt) : (s.setFo p x).egr = s.egr := rfl
@[simp] theorem State.setFo_tal (s : State) (p : Nat) (x : FoSt) : (s.setFo p x).tal = s.tal := rfl
@[simp] theorem State.setFo_beat (s : State) (p : Nat) (x : FoSt) : (s.setFo p x).beat = s.beat := rfl
@[simp] theorem State.setFo_plats (s : State) (p : Nat) (x : FoSt) : (s.setFo p x).plats = s.plats := rfl
@[simp] theorem State.setFo_mem (s : State) (p : Nat) (x : FoSt) : (s.setFo p x).mem = s.mem := rfl
@[simp] theorem State.setFo_claims (s : State) (p : Nat) (x : FoSt) : (s.setFo p x).claims = s.claims := rfl
@[simp] theorem State.setFo_l2 (s : State) (p : Nat) (x : FoSt) : (s.setFo p x).l2 = s.l2 := rfl
@[simp] theorem State.setFo_tlb (s : State) (p : Nat) (x : FoSt) : (s.setFo p x).tlb = s.tlb := rfl
@[simp] theorem State.setFo_walks (s : State) (p : Nat) (x : FoSt) : (s.setFo p x).walks = s.walks := rfl
@[simp] theorem State.setFo_mmu (s : State) (p : Nat) (x : FoSt) : (s.setFo p x).mmu = s.mmu := rfl
@[simp] theorem State.setFo_clus (s : State) (p : Nat) (x : FoSt) : (s.setFo p x).clus = s.clus := rfl
@[simp] theorem State.setFo_adit (s : State) (p : Nat) (x : FoSt) : (s.setFo p x).adit = s.adit := rfl
@[simp] theorem State.setFo_asy (s : State) (p : Nat) (x : FoSt) : (s.setFo p x).asy = s.asy := rfl
@[simp] theorem State.setFo_net (s : State) (p : Nat) (x : FoSt) : (s.setFo p x).net = s.net := rfl
@[simp] theorem State.setFo_pwr (s : State) (p : Nat) (x : FoSt) : (s.setFo p x).pwr = s.pwr := rfl
@[simp] theorem State.setFo_evt (s : State) (p : Nat) (x : FoSt) : (s.setFo p x).evt = s.evt := rfl
@[simp] theorem State.setFo_msix (s : State) (p : Nat) (x : FoSt) : (s.setFo p x).msix = s.msix := rfl
@[simp] theorem State.setFo_dma (s : State) (p : Nat) (x : FoSt) : (s.setFo p x).dma = s.dma := rfl
@[simp] theorem State.setFo_early (s : State) (p : Nat) (x : FoSt) : (s.setFo p x).early = s.early := rfl
@[simp] theorem State.setFo_hostMem (s : State) (p : Nat) (x : FoSt) : (s.setFo p x).hostMem = s.hostMem := rfl
@[simp] theorem State.setFo_hostErr (s : State) (p : Nat) (x : FoSt) : (s.setFo p x).hostErr = s.hostErr := rfl
@[simp] theorem State.setFo_win (s : State) (p : Nat) (x : FoSt) : (s.setFo p x).win = s.win := rfl
@[simp] theorem State.setFo_boot (s : State) (p : Nat) (x : FoSt) : (s.setFo p x).boot = s.boot := rfl
@[simp] theorem State.setFo_fuses (s : State) (p : Nat) (x : FoSt) : (s.setFo p x).fuses = s.fuses := rfl
@[simp] theorem State.setFo_dbg (s : State) (p : Nat) (x : FoSt) : (s.setFo p x).dbg = s.dbg := rfl
@[simp] theorem State.setFo_pins (s : State) (p : Nat) (x : FoSt) : (s.setFo p x).pins = s.pins := rfl
@[simp] theorem State.setFo_ucieLost (s : State) (p : Nat) (x : FoSt) : (s.setFo p x).ucieLost = s.ucieLost := rfl
@[simp] theorem State.setFo_out (s : State) (p : Nat) (x : FoSt) : (s.setFo p x).out = s.out := rfl
@[simp] theorem State.setFo_thermtrip (s : State) (p : Nat) (x : FoSt) : (s.setFo p x).thermtrip = s.thermtrip := rfl
@[simp] theorem State.setFo_freeCtr (s : State) (p : Nat) (x : FoSt) : (s.setFo p x).freeCtr = s.freeCtr := rfl

/-! ### setLink -/

@[simp] theorem State.setLink_product (s : State) (p : Nat) (x : LinkSt) : (s.setLink p x).product = s.product := rfl
@[simp] theorem State.setLink_pending (s : State) (p : Nat) (x : LinkSt) : (s.setLink p x).pending = s.pending := rfl
@[simp] theorem State.setLink_regs (s : State) (p : Nat) (x : LinkSt) : (s.setLink p x).regs = s.regs := rfl
@[simp] theorem State.setLink_active (s : State) (p : Nat) (x : LinkSt) : (s.setLink p x).active = s.active := rfl
@[simp] theorem State.setLink_masters (s : State) (p : Nat) (x : LinkSt) : (s.setLink p x).masters = s.masters := rfl
@[simp] theorem State.setLink_adm (s : State) (p : Nat) (x : LinkSt) : (s.setLink p x).adm = s.adm := rfl
@[simp] theorem State.setLink_slots (s : State) (p : Nat) (x : LinkSt) : (s.setLink p x).slots = s.slots := rfl
@[simp] theorem State.setLink_egr (s : State) (p : Nat) (x : LinkSt) : (s.setLink p x).egr = s.egr := rfl
@[simp] theorem State.setLink_tal (s : State) (p : Nat) (x : LinkSt) : (s.setLink p x).tal = s.tal := rfl
@[simp] theorem State.setLink_beat (s : State) (p : Nat) (x : LinkSt) : (s.setLink p x).beat = s.beat := rfl
@[simp] theorem State.setLink_plats (s : State) (p : Nat) (x : LinkSt) : (s.setLink p x).plats = s.plats := rfl
@[simp] theorem State.setLink_fo (s : State) (p : Nat) (x : LinkSt) : (s.setLink p x).fo = s.fo := rfl
@[simp] theorem State.setLink_mem (s : State) (p : Nat) (x : LinkSt) : (s.setLink p x).mem = s.mem := rfl
@[simp] theorem State.setLink_claims (s : State) (p : Nat) (x : LinkSt) : (s.setLink p x).claims = s.claims := rfl
@[simp] theorem State.setLink_l2 (s : State) (p : Nat) (x : LinkSt) : (s.setLink p x).l2 = s.l2 := rfl
@[simp] theorem State.setLink_tlb (s : State) (p : Nat) (x : LinkSt) : (s.setLink p x).tlb = s.tlb := rfl
@[simp] theorem State.setLink_walks (s : State) (p : Nat) (x : LinkSt) : (s.setLink p x).walks = s.walks := rfl
@[simp] theorem State.setLink_mmu (s : State) (p : Nat) (x : LinkSt) : (s.setLink p x).mmu = s.mmu := rfl
@[simp] theorem State.setLink_clus (s : State) (p : Nat) (x : LinkSt) : (s.setLink p x).clus = s.clus := rfl
@[simp] theorem State.setLink_adit (s : State) (p : Nat) (x : LinkSt) : (s.setLink p x).adit = s.adit := rfl
@[simp] theorem State.setLink_asy (s : State) (p : Nat) (x : LinkSt) : (s.setLink p x).asy = s.asy := rfl
@[simp] theorem State.setLink_pwr (s : State) (p : Nat) (x : LinkSt) : (s.setLink p x).pwr = s.pwr := rfl
@[simp] theorem State.setLink_evt (s : State) (p : Nat) (x : LinkSt) : (s.setLink p x).evt = s.evt := rfl
@[simp] theorem State.setLink_msix (s : State) (p : Nat) (x : LinkSt) : (s.setLink p x).msix = s.msix := rfl
@[simp] theorem State.setLink_dma (s : State) (p : Nat) (x : LinkSt) : (s.setLink p x).dma = s.dma := rfl
@[simp] theorem State.setLink_early (s : State) (p : Nat) (x : LinkSt) : (s.setLink p x).early = s.early := rfl
@[simp] theorem State.setLink_hostMem (s : State) (p : Nat) (x : LinkSt) : (s.setLink p x).hostMem = s.hostMem := rfl
@[simp] theorem State.setLink_hostErr (s : State) (p : Nat) (x : LinkSt) : (s.setLink p x).hostErr = s.hostErr := rfl
@[simp] theorem State.setLink_win (s : State) (p : Nat) (x : LinkSt) : (s.setLink p x).win = s.win := rfl
@[simp] theorem State.setLink_boot (s : State) (p : Nat) (x : LinkSt) : (s.setLink p x).boot = s.boot := rfl
@[simp] theorem State.setLink_fuses (s : State) (p : Nat) (x : LinkSt) : (s.setLink p x).fuses = s.fuses := rfl
@[simp] theorem State.setLink_dbg (s : State) (p : Nat) (x : LinkSt) : (s.setLink p x).dbg = s.dbg := rfl
@[simp] theorem State.setLink_pins (s : State) (p : Nat) (x : LinkSt) : (s.setLink p x).pins = s.pins := rfl
@[simp] theorem State.setLink_ucieLost (s : State) (p : Nat) (x : LinkSt) : (s.setLink p x).ucieLost = s.ucieLost := rfl
@[simp] theorem State.setLink_out (s : State) (p : Nat) (x : LinkSt) : (s.setLink p x).out = s.out := rfl
@[simp] theorem State.setLink_thermtrip (s : State) (p : Nat) (x : LinkSt) : (s.setLink p x).thermtrip = s.thermtrip := rfl
@[simp] theorem State.setLink_freeCtr (s : State) (p : Nat) (x : LinkSt) : (s.setLink p x).freeCtr = s.freeCtr := rfl

/-! ### setTok -/

@[simp] theorem State.setTok_product (s : State) (k : Nat) (x : TokSt) : (s.setTok k x).product = s.product := rfl
@[simp] theorem State.setTok_pending (s : State) (k : Nat) (x : TokSt) : (s.setTok k x).pending = s.pending := rfl
@[simp] theorem State.setTok_regs (s : State) (k : Nat) (x : TokSt) : (s.setTok k x).regs = s.regs := rfl
@[simp] theorem State.setTok_active (s : State) (k : Nat) (x : TokSt) : (s.setTok k x).active = s.active := rfl
@[simp] theorem State.setTok_masters (s : State) (k : Nat) (x : TokSt) : (s.setTok k x).masters = s.masters := rfl
@[simp] theorem State.setTok_adm (s : State) (k : Nat) (x : TokSt) : (s.setTok k x).adm = s.adm := rfl
@[simp] theorem State.setTok_slots (s : State) (k : Nat) (x : TokSt) : (s.setTok k x).slots = s.slots := rfl
@[simp] theorem State.setTok_egr (s : State) (k : Nat) (x : TokSt) : (s.setTok k x).egr = s.egr := rfl
@[simp] theorem State.setTok_tal (s : State) (k : Nat) (x : TokSt) : (s.setTok k x).tal = s.tal := rfl
@[simp] theorem State.setTok_beat (s : State) (k : Nat) (x : TokSt) : (s.setTok k x).beat = s.beat := rfl
@[simp] theorem State.setTok_plats (s : State) (k : Nat) (x : TokSt) : (s.setTok k x).plats = s.plats := rfl
@[simp] theorem State.setTok_fo (s : State) (k : Nat) (x : TokSt) : (s.setTok k x).fo = s.fo := rfl
@[simp] theorem State.setTok_mem (s : State) (k : Nat) (x : TokSt) : (s.setTok k x).mem = s.mem := rfl
@[simp] theorem State.setTok_claims (s : State) (k : Nat) (x : TokSt) : (s.setTok k x).claims = s.claims := rfl
@[simp] theorem State.setTok_l2 (s : State) (k : Nat) (x : TokSt) : (s.setTok k x).l2 = s.l2 := rfl
@[simp] theorem State.setTok_tlb (s : State) (k : Nat) (x : TokSt) : (s.setTok k x).tlb = s.tlb := rfl
@[simp] theorem State.setTok_walks (s : State) (k : Nat) (x : TokSt) : (s.setTok k x).walks = s.walks := rfl
@[simp] theorem State.setTok_mmu (s : State) (k : Nat) (x : TokSt) : (s.setTok k x).mmu = s.mmu := rfl
@[simp] theorem State.setTok_clus (s : State) (k : Nat) (x : TokSt) : (s.setTok k x).clus = s.clus := rfl
@[simp] theorem State.setTok_adit (s : State) (k : Nat) (x : TokSt) : (s.setTok k x).adit = s.adit := rfl
@[simp] theorem State.setTok_asy (s : State) (k : Nat) (x : TokSt) : (s.setTok k x).asy = s.asy := rfl
@[simp] theorem State.setTok_pwr (s : State) (k : Nat) (x : TokSt) : (s.setTok k x).pwr = s.pwr := rfl
@[simp] theorem State.setTok_evt (s : State) (k : Nat) (x : TokSt) : (s.setTok k x).evt = s.evt := rfl
@[simp] theorem State.setTok_msix (s : State) (k : Nat) (x : TokSt) : (s.setTok k x).msix = s.msix := rfl
@[simp] theorem State.setTok_dma (s : State) (k : Nat) (x : TokSt) : (s.setTok k x).dma = s.dma := rfl
@[simp] theorem State.setTok_early (s : State) (k : Nat) (x : TokSt) : (s.setTok k x).early = s.early := rfl
@[simp] theorem State.setTok_hostMem (s : State) (k : Nat) (x : TokSt) : (s.setTok k x).hostMem = s.hostMem := rfl
@[simp] theorem State.setTok_hostErr (s : State) (k : Nat) (x : TokSt) : (s.setTok k x).hostErr = s.hostErr := rfl
@[simp] theorem State.setTok_win (s : State) (k : Nat) (x : TokSt) : (s.setTok k x).win = s.win := rfl
@[simp] theorem State.setTok_boot (s : State) (k : Nat) (x : TokSt) : (s.setTok k x).boot = s.boot := rfl
@[simp] theorem State.setTok_fuses (s : State) (k : Nat) (x : TokSt) : (s.setTok k x).fuses = s.fuses := rfl
@[simp] theorem State.setTok_dbg (s : State) (k : Nat) (x : TokSt) : (s.setTok k x).dbg = s.dbg := rfl
@[simp] theorem State.setTok_pins (s : State) (k : Nat) (x : TokSt) : (s.setTok k x).pins = s.pins := rfl
@[simp] theorem State.setTok_ucieLost (s : State) (k : Nat) (x : TokSt) : (s.setTok k x).ucieLost = s.ucieLost := rfl
@[simp] theorem State.setTok_out (s : State) (k : Nat) (x : TokSt) : (s.setTok k x).out = s.out := rfl
@[simp] theorem State.setTok_thermtrip (s : State) (k : Nat) (x : TokSt) : (s.setTok k x).thermtrip = s.thermtrip := rfl
@[simp] theorem State.setTok_freeCtr (s : State) (k : Nat) (x : TokSt) : (s.setTok k x).freeCtr = s.freeCtr := rfl

/-! ### setPpwr -/

@[simp] theorem State.setPpwr_product (s : State) (p : Nat) (x : PartPwr) : (s.setPpwr p x).product = s.product := rfl
@[simp] theorem State.setPpwr_pending (s : State) (p : Nat) (x : PartPwr) : (s.setPpwr p x).pending = s.pending := rfl
@[simp] theorem State.setPpwr_regs (s : State) (p : Nat) (x : PartPwr) : (s.setPpwr p x).regs = s.regs := rfl
@[simp] theorem State.setPpwr_active (s : State) (p : Nat) (x : PartPwr) : (s.setPpwr p x).active = s.active := rfl
@[simp] theorem State.setPpwr_masters (s : State) (p : Nat) (x : PartPwr) : (s.setPpwr p x).masters = s.masters := rfl
@[simp] theorem State.setPpwr_adm (s : State) (p : Nat) (x : PartPwr) : (s.setPpwr p x).adm = s.adm := rfl
@[simp] theorem State.setPpwr_slots (s : State) (p : Nat) (x : PartPwr) : (s.setPpwr p x).slots = s.slots := rfl
@[simp] theorem State.setPpwr_egr (s : State) (p : Nat) (x : PartPwr) : (s.setPpwr p x).egr = s.egr := rfl
@[simp] theorem State.setPpwr_tal (s : State) (p : Nat) (x : PartPwr) : (s.setPpwr p x).tal = s.tal := rfl
@[simp] theorem State.setPpwr_beat (s : State) (p : Nat) (x : PartPwr) : (s.setPpwr p x).beat = s.beat := rfl
@[simp] theorem State.setPpwr_plats (s : State) (p : Nat) (x : PartPwr) : (s.setPpwr p x).plats = s.plats := rfl
@[simp] theorem State.setPpwr_fo (s : State) (p : Nat) (x : PartPwr) : (s.setPpwr p x).fo = s.fo := rfl
@[simp] theorem State.setPpwr_mem (s : State) (p : Nat) (x : PartPwr) : (s.setPpwr p x).mem = s.mem := rfl
@[simp] theorem State.setPpwr_claims (s : State) (p : Nat) (x : PartPwr) : (s.setPpwr p x).claims = s.claims := rfl
@[simp] theorem State.setPpwr_l2 (s : State) (p : Nat) (x : PartPwr) : (s.setPpwr p x).l2 = s.l2 := rfl
@[simp] theorem State.setPpwr_tlb (s : State) (p : Nat) (x : PartPwr) : (s.setPpwr p x).tlb = s.tlb := rfl
@[simp] theorem State.setPpwr_walks (s : State) (p : Nat) (x : PartPwr) : (s.setPpwr p x).walks = s.walks := rfl
@[simp] theorem State.setPpwr_mmu (s : State) (p : Nat) (x : PartPwr) : (s.setPpwr p x).mmu = s.mmu := rfl
@[simp] theorem State.setPpwr_clus (s : State) (p : Nat) (x : PartPwr) : (s.setPpwr p x).clus = s.clus := rfl
@[simp] theorem State.setPpwr_adit (s : State) (p : Nat) (x : PartPwr) : (s.setPpwr p x).adit = s.adit := rfl
@[simp] theorem State.setPpwr_asy (s : State) (p : Nat) (x : PartPwr) : (s.setPpwr p x).asy = s.asy := rfl
@[simp] theorem State.setPpwr_net (s : State) (p : Nat) (x : PartPwr) : (s.setPpwr p x).net = s.net := rfl
@[simp] theorem State.setPpwr_evt (s : State) (p : Nat) (x : PartPwr) : (s.setPpwr p x).evt = s.evt := rfl
@[simp] theorem State.setPpwr_msix (s : State) (p : Nat) (x : PartPwr) : (s.setPpwr p x).msix = s.msix := rfl
@[simp] theorem State.setPpwr_dma (s : State) (p : Nat) (x : PartPwr) : (s.setPpwr p x).dma = s.dma := rfl
@[simp] theorem State.setPpwr_early (s : State) (p : Nat) (x : PartPwr) : (s.setPpwr p x).early = s.early := rfl
@[simp] theorem State.setPpwr_hostMem (s : State) (p : Nat) (x : PartPwr) : (s.setPpwr p x).hostMem = s.hostMem := rfl
@[simp] theorem State.setPpwr_hostErr (s : State) (p : Nat) (x : PartPwr) : (s.setPpwr p x).hostErr = s.hostErr := rfl
@[simp] theorem State.setPpwr_win (s : State) (p : Nat) (x : PartPwr) : (s.setPpwr p x).win = s.win := rfl
@[simp] theorem State.setPpwr_boot (s : State) (p : Nat) (x : PartPwr) : (s.setPpwr p x).boot = s.boot := rfl
@[simp] theorem State.setPpwr_fuses (s : State) (p : Nat) (x : PartPwr) : (s.setPpwr p x).fuses = s.fuses := rfl
@[simp] theorem State.setPpwr_dbg (s : State) (p : Nat) (x : PartPwr) : (s.setPpwr p x).dbg = s.dbg := rfl
@[simp] theorem State.setPpwr_pins (s : State) (p : Nat) (x : PartPwr) : (s.setPpwr p x).pins = s.pins := rfl
@[simp] theorem State.setPpwr_ucieLost (s : State) (p : Nat) (x : PartPwr) : (s.setPpwr p x).ucieLost = s.ucieLost := rfl
@[simp] theorem State.setPpwr_out (s : State) (p : Nat) (x : PartPwr) : (s.setPpwr p x).out = s.out := rfl
@[simp] theorem State.setPpwr_thermtrip (s : State) (p : Nat) (x : PartPwr) : (s.setPpwr p x).thermtrip = s.thermtrip := rfl
@[simp] theorem State.setPpwr_freeCtr (s : State) (p : Nat) (x : PartPwr) : (s.setPpwr p x).freeCtr = s.freeCtr := rfl

/-! ### setMaster -/

@[simp] theorem State.setMaster_product (s : State) (m : RegMaster) (x : MasterSt) : (s.setMaster m x).product = s.product := rfl
@[simp] theorem State.setMaster_pending (s : State) (m : RegMaster) (x : MasterSt) : (s.setMaster m x).pending = s.pending := rfl
@[simp] theorem State.setMaster_regs (s : State) (m : RegMaster) (x : MasterSt) : (s.setMaster m x).regs = s.regs := rfl
@[simp] theorem State.setMaster_active (s : State) (m : RegMaster) (x : MasterSt) : (s.setMaster m x).active = s.active := rfl
@[simp] theorem State.setMaster_adm (s : State) (m : RegMaster) (x : MasterSt) : (s.setMaster m x).adm = s.adm := rfl
@[simp] theorem State.setMaster_slots (s : State) (m : RegMaster) (x : MasterSt) : (s.setMaster m x).slots = s.slots := rfl
@[simp] theorem State.setMaster_egr (s : State) (m : RegMaster) (x : MasterSt) : (s.setMaster m x).egr = s.egr := rfl
@[simp] theorem State.setMaster_tal (s : State) (m : RegMaster) (x : MasterSt) : (s.setMaster m x).tal = s.tal := rfl
@[simp] theorem State.setMaster_beat (s : State) (m : RegMaster) (x : MasterSt) : (s.setMaster m x).beat = s.beat := rfl
@[simp] theorem State.setMaster_plats (s : State) (m : RegMaster) (x : MasterSt) : (s.setMaster m x).plats = s.plats := rfl
@[simp] theorem State.setMaster_fo (s : State) (m : RegMaster) (x : MasterSt) : (s.setMaster m x).fo = s.fo := rfl
@[simp] theorem State.setMaster_mem (s : State) (m : RegMaster) (x : MasterSt) : (s.setMaster m x).mem = s.mem := rfl
@[simp] theorem State.setMaster_claims (s : State) (m : RegMaster) (x : MasterSt) : (s.setMaster m x).claims = s.claims := rfl
@[simp] theorem State.setMaster_l2 (s : State) (m : RegMaster) (x : MasterSt) : (s.setMaster m x).l2 = s.l2 := rfl
@[simp] theorem State.setMaster_tlb (s : State) (m : RegMaster) (x : MasterSt) : (s.setMaster m x).tlb = s.tlb := rfl
@[simp] theorem State.setMaster_walks (s : State) (m : RegMaster) (x : MasterSt) : (s.setMaster m x).walks = s.walks := rfl
@[simp] theorem State.setMaster_mmu (s : State) (m : RegMaster) (x : MasterSt) : (s.setMaster m x).mmu = s.mmu := rfl
@[simp] theorem State.setMaster_clus (s : State) (m : RegMaster) (x : MasterSt) : (s.setMaster m x).clus = s.clus := rfl
@[simp] theorem State.setMaster_adit (s : State) (m : RegMaster) (x : MasterSt) : (s.setMaster m x).adit = s.adit := rfl
@[simp] theorem State.setMaster_asy (s : State) (m : RegMaster) (x : MasterSt) : (s.setMaster m x).asy = s.asy := rfl
@[simp] theorem State.setMaster_net (s : State) (m : RegMaster) (x : MasterSt) : (s.setMaster m x).net = s.net := rfl
@[simp] theorem State.setMaster_pwr (s : State) (m : RegMaster) (x : MasterSt) : (s.setMaster m x).pwr = s.pwr := rfl
@[simp] theorem State.setMaster_evt (s : State) (m : RegMaster) (x : MasterSt) : (s.setMaster m x).evt = s.evt := rfl
@[simp] theorem State.setMaster_msix (s : State) (m : RegMaster) (x : MasterSt) : (s.setMaster m x).msix = s.msix := rfl
@[simp] theorem State.setMaster_dma (s : State) (m : RegMaster) (x : MasterSt) : (s.setMaster m x).dma = s.dma := rfl
@[simp] theorem State.setMaster_early (s : State) (m : RegMaster) (x : MasterSt) : (s.setMaster m x).early = s.early := rfl
@[simp] theorem State.setMaster_hostMem (s : State) (m : RegMaster) (x : MasterSt) : (s.setMaster m x).hostMem = s.hostMem := rfl
@[simp] theorem State.setMaster_hostErr (s : State) (m : RegMaster) (x : MasterSt) : (s.setMaster m x).hostErr = s.hostErr := rfl
@[simp] theorem State.setMaster_win (s : State) (m : RegMaster) (x : MasterSt) : (s.setMaster m x).win = s.win := rfl
@[simp] theorem State.setMaster_boot (s : State) (m : RegMaster) (x : MasterSt) : (s.setMaster m x).boot = s.boot := rfl
@[simp] theorem State.setMaster_fuses (s : State) (m : RegMaster) (x : MasterSt) : (s.setMaster m x).fuses = s.fuses := rfl
@[simp] theorem State.setMaster_dbg (s : State) (m : RegMaster) (x : MasterSt) : (s.setMaster m x).dbg = s.dbg := rfl
@[simp] theorem State.setMaster_pins (s : State) (m : RegMaster) (x : MasterSt) : (s.setMaster m x).pins = s.pins := rfl
@[simp] theorem State.setMaster_ucieLost (s : State) (m : RegMaster) (x : MasterSt) : (s.setMaster m x).ucieLost = s.ucieLost := rfl
@[simp] theorem State.setMaster_out (s : State) (m : RegMaster) (x : MasterSt) : (s.setMaster m x).out = s.out := rfl
@[simp] theorem State.setMaster_thermtrip (s : State) (m : RegMaster) (x : MasterSt) : (s.setMaster m x).thermtrip = s.thermtrip := rfl
@[simp] theorem State.setMaster_freeCtr (s : State) (m : RegMaster) (x : MasterSt) : (s.setMaster m x).freeCtr = s.freeCtr := rfl

/-! ### setMsix -/

@[simp] theorem State.setMsix_product (s : State) (f : Nat) (x : MsixSt) : (s.setMsix f x).product = s.product := rfl
@[simp] theorem State.setMsix_pending (s : State) (f : Nat) (x : MsixSt) : (s.setMsix f x).pending = s.pending := rfl
@[simp] theorem State.setMsix_regs (s : State) (f : Nat) (x : MsixSt) : (s.setMsix f x).regs = s.regs := rfl
@[simp] theorem State.setMsix_active (s : State) (f : Nat) (x : MsixSt) : (s.setMsix f x).active = s.active := rfl
@[simp] theorem State.setMsix_masters (s : State) (f : Nat) (x : MsixSt) : (s.setMsix f x).masters = s.masters := rfl
@[simp] theorem State.setMsix_adm (s : State) (f : Nat) (x : MsixSt) : (s.setMsix f x).adm = s.adm := rfl
@[simp] theorem State.setMsix_slots (s : State) (f : Nat) (x : MsixSt) : (s.setMsix f x).slots = s.slots := rfl
@[simp] theorem State.setMsix_egr (s : State) (f : Nat) (x : MsixSt) : (s.setMsix f x).egr = s.egr := rfl
@[simp] theorem State.setMsix_tal (s : State) (f : Nat) (x : MsixSt) : (s.setMsix f x).tal = s.tal := rfl
@[simp] theorem State.setMsix_beat (s : State) (f : Nat) (x : MsixSt) : (s.setMsix f x).beat = s.beat := rfl
@[simp] theorem State.setMsix_plats (s : State) (f : Nat) (x : MsixSt) : (s.setMsix f x).plats = s.plats := rfl
@[simp] theorem State.setMsix_fo (s : State) (f : Nat) (x : MsixSt) : (s.setMsix f x).fo = s.fo := rfl
@[simp] theorem State.setMsix_mem (s : State) (f : Nat) (x : MsixSt) : (s.setMsix f x).mem = s.mem := rfl
@[simp] theorem State.setMsix_claims (s : State) (f : Nat) (x : MsixSt) : (s.setMsix f x).claims = s.claims := rfl
@[simp] theorem State.setMsix_l2 (s : State) (f : Nat) (x : MsixSt) : (s.setMsix f x).l2 = s.l2 := rfl
@[simp] theorem State.setMsix_tlb (s : State) (f : Nat) (x : MsixSt) : (s.setMsix f x).tlb = s.tlb := rfl
@[simp] theorem State.setMsix_walks (s : State) (f : Nat) (x : MsixSt) : (s.setMsix f x).walks = s.walks := rfl
@[simp] theorem State.setMsix_mmu (s : State) (f : Nat) (x : MsixSt) : (s.setMsix f x).mmu = s.mmu := rfl
@[simp] theorem State.setMsix_clus (s : State) (f : Nat) (x : MsixSt) : (s.setMsix f x).clus = s.clus := rfl
@[simp] theorem State.setMsix_adit (s : State) (f : Nat) (x : MsixSt) : (s.setMsix f x).adit = s.adit := rfl
@[simp] theorem State.setMsix_asy (s : State) (f : Nat) (x : MsixSt) : (s.setMsix f x).asy = s.asy := rfl
@[simp] theorem State.setMsix_net (s : State) (f : Nat) (x : MsixSt) : (s.setMsix f x).net = s.net := rfl
@[simp] theorem State.setMsix_pwr (s : State) (f : Nat) (x : MsixSt) : (s.setMsix f x).pwr = s.pwr := rfl
@[simp] theorem State.setMsix_evt (s : State) (f : Nat) (x : MsixSt) : (s.setMsix f x).evt = s.evt := rfl
@[simp] theorem State.setMsix_dma (s : State) (f : Nat) (x : MsixSt) : (s.setMsix f x).dma = s.dma := rfl
@[simp] theorem State.setMsix_early (s : State) (f : Nat) (x : MsixSt) : (s.setMsix f x).early = s.early := rfl
@[simp] theorem State.setMsix_hostMem (s : State) (f : Nat) (x : MsixSt) : (s.setMsix f x).hostMem = s.hostMem := rfl
@[simp] theorem State.setMsix_hostErr (s : State) (f : Nat) (x : MsixSt) : (s.setMsix f x).hostErr = s.hostErr := rfl
@[simp] theorem State.setMsix_win (s : State) (f : Nat) (x : MsixSt) : (s.setMsix f x).win = s.win := rfl
@[simp] theorem State.setMsix_boot (s : State) (f : Nat) (x : MsixSt) : (s.setMsix f x).boot = s.boot := rfl
@[simp] theorem State.setMsix_fuses (s : State) (f : Nat) (x : MsixSt) : (s.setMsix f x).fuses = s.fuses := rfl
@[simp] theorem State.setMsix_dbg (s : State) (f : Nat) (x : MsixSt) : (s.setMsix f x).dbg = s.dbg := rfl
@[simp] theorem State.setMsix_pins (s : State) (f : Nat) (x : MsixSt) : (s.setMsix f x).pins = s.pins := rfl
@[simp] theorem State.setMsix_ucieLost (s : State) (f : Nat) (x : MsixSt) : (s.setMsix f x).ucieLost = s.ucieLost := rfl
@[simp] theorem State.setMsix_out (s : State) (f : Nat) (x : MsixSt) : (s.setMsix f x).out = s.out := rfl
@[simp] theorem State.setMsix_thermtrip (s : State) (f : Nat) (x : MsixSt) : (s.setMsix f x).thermtrip = s.thermtrip := rfl
@[simp] theorem State.setMsix_freeCtr (s : State) (f : Nat) (x : MsixSt) : (s.setMsix f x).freeCtr = s.freeCtr := rfl

/-! ### setDma -/

@[simp] theorem State.setDma_product (s : State) (d : Nat) (x : DmaSt) : (s.setDma d x).product = s.product := rfl
@[simp] theorem State.setDma_pending (s : State) (d : Nat) (x : DmaSt) : (s.setDma d x).pending = s.pending := rfl
@[simp] theorem State.setDma_regs (s : State) (d : Nat) (x : DmaSt) : (s.setDma d x).regs = s.regs := rfl
@[simp] theorem State.setDma_active (s : State) (d : Nat) (x : DmaSt) : (s.setDma d x).active = s.active := rfl
@[simp] theorem State.setDma_masters (s : State) (d : Nat) (x : DmaSt) : (s.setDma d x).masters = s.masters := rfl
@[simp] theorem State.setDma_adm (s : State) (d : Nat) (x : DmaSt) : (s.setDma d x).adm = s.adm := rfl
@[simp] theorem State.setDma_slots (s : State) (d : Nat) (x : DmaSt) : (s.setDma d x).slots = s.slots := rfl
@[simp] theorem State.setDma_egr (s : State) (d : Nat) (x : DmaSt) : (s.setDma d x).egr = s.egr := rfl
@[simp] theorem State.setDma_tal (s : State) (d : Nat) (x : DmaSt) : (s.setDma d x).tal = s.tal := rfl
@[simp] theorem State.setDma_beat (s : State) (d : Nat) (x : DmaSt) : (s.setDma d x).beat = s.beat := rfl
@[simp] theorem State.setDma_plats (s : State) (d : Nat) (x : DmaSt) : (s.setDma d x).plats = s.plats := rfl
@[simp] theorem State.setDma_fo (s : State) (d : Nat) (x : DmaSt) : (s.setDma d x).fo = s.fo := rfl
@[simp] theorem State.setDma_mem (s : State) (d : Nat) (x : DmaSt) : (s.setDma d x).mem = s.mem := rfl
@[simp] theorem State.setDma_claims (s : State) (d : Nat) (x : DmaSt) : (s.setDma d x).claims = s.claims := rfl
@[simp] theorem State.setDma_l2 (s : State) (d : Nat) (x : DmaSt) : (s.setDma d x).l2 = s.l2 := rfl
@[simp] theorem State.setDma_tlb (s : State) (d : Nat) (x : DmaSt) : (s.setDma d x).tlb = s.tlb := rfl
@[simp] theorem State.setDma_walks (s : State) (d : Nat) (x : DmaSt) : (s.setDma d x).walks = s.walks := rfl
@[simp] theorem State.setDma_mmu (s : State) (d : Nat) (x : DmaSt) : (s.setDma d x).mmu = s.mmu := rfl
@[simp] theorem State.setDma_clus (s : State) (d : Nat) (x : DmaSt) : (s.setDma d x).clus = s.clus := rfl
@[simp] theorem State.setDma_adit (s : State) (d : Nat) (x : DmaSt) : (s.setDma d x).adit = s.adit := rfl
@[simp] theorem State.setDma_asy (s : State) (d : Nat) (x : DmaSt) : (s.setDma d x).asy = s.asy := rfl
@[simp] theorem State.setDma_net (s : State) (d : Nat) (x : DmaSt) : (s.setDma d x).net = s.net := rfl
@[simp] theorem State.setDma_pwr (s : State) (d : Nat) (x : DmaSt) : (s.setDma d x).pwr = s.pwr := rfl
@[simp] theorem State.setDma_evt (s : State) (d : Nat) (x : DmaSt) : (s.setDma d x).evt = s.evt := rfl
@[simp] theorem State.setDma_msix (s : State) (d : Nat) (x : DmaSt) : (s.setDma d x).msix = s.msix := rfl
@[simp] theorem State.setDma_early (s : State) (d : Nat) (x : DmaSt) : (s.setDma d x).early = s.early := rfl
@[simp] theorem State.setDma_hostMem (s : State) (d : Nat) (x : DmaSt) : (s.setDma d x).hostMem = s.hostMem := rfl
@[simp] theorem State.setDma_hostErr (s : State) (d : Nat) (x : DmaSt) : (s.setDma d x).hostErr = s.hostErr := rfl
@[simp] theorem State.setDma_win (s : State) (d : Nat) (x : DmaSt) : (s.setDma d x).win = s.win := rfl
@[simp] theorem State.setDma_boot (s : State) (d : Nat) (x : DmaSt) : (s.setDma d x).boot = s.boot := rfl
@[simp] theorem State.setDma_fuses (s : State) (d : Nat) (x : DmaSt) : (s.setDma d x).fuses = s.fuses := rfl
@[simp] theorem State.setDma_dbg (s : State) (d : Nat) (x : DmaSt) : (s.setDma d x).dbg = s.dbg := rfl
@[simp] theorem State.setDma_pins (s : State) (d : Nat) (x : DmaSt) : (s.setDma d x).pins = s.pins := rfl
@[simp] theorem State.setDma_ucieLost (s : State) (d : Nat) (x : DmaSt) : (s.setDma d x).ucieLost = s.ucieLost := rfl
@[simp] theorem State.setDma_out (s : State) (d : Nat) (x : DmaSt) : (s.setDma d x).out = s.out := rfl
@[simp] theorem State.setDma_thermtrip (s : State) (d : Nat) (x : DmaSt) : (s.setDma d x).thermtrip = s.thermtrip := rfl
@[simp] theorem State.setDma_freeCtr (s : State) (d : Nat) (x : DmaSt) : (s.setDma d x).freeCtr = s.freeCtr := rfl

/-! ### setAdit -/

@[simp] theorem State.setAdit_product (s : State) (p : Nat) (x : AditSt) : (s.setAdit p x).product = s.product := rfl
@[simp] theorem State.setAdit_pending (s : State) (p : Nat) (x : AditSt) : (s.setAdit p x).pending = s.pending := rfl
@[simp] theorem State.setAdit_regs (s : State) (p : Nat) (x : AditSt) : (s.setAdit p x).regs = s.regs := rfl
@[simp] theorem State.setAdit_active (s : State) (p : Nat) (x : AditSt) : (s.setAdit p x).active = s.active := rfl
@[simp] theorem State.setAdit_masters (s : State) (p : Nat) (x : AditSt) : (s.setAdit p x).masters = s.masters := rfl
@[simp] theorem State.setAdit_adm (s : State) (p : Nat) (x : AditSt) : (s.setAdit p x).adm = s.adm := rfl
@[simp] theorem State.setAdit_slots (s : State) (p : Nat) (x : AditSt) : (s.setAdit p x).slots = s.slots := rfl
@[simp] theorem State.setAdit_egr (s : State) (p : Nat) (x : AditSt) : (s.setAdit p x).egr = s.egr := rfl
@[simp] theorem State.setAdit_tal (s : State) (p : Nat) (x : AditSt) : (s.setAdit p x).tal = s.tal := rfl
@[simp] theorem State.setAdit_beat (s : State) (p : Nat) (x : AditSt) : (s.setAdit p x).beat = s.beat := rfl
@[simp] theorem State.setAdit_plats (s : State) (p : Nat) (x : AditSt) : (s.setAdit p x).plats = s.plats := rfl
@[simp] theorem State.setAdit_fo (s : State) (p : Nat) (x : AditSt) : (s.setAdit p x).fo = s.fo := rfl
@[simp] theorem State.setAdit_mem (s : State) (p : Nat) (x : AditSt) : (s.setAdit p x).mem = s.mem := rfl
@[simp] theorem State.setAdit_claims (s : State) (p : Nat) (x : AditSt) : (s.setAdit p x).claims = s.claims := rfl
@[simp] theorem State.setAdit_l2 (s : State) (p : Nat) (x : AditSt) : (s.setAdit p x).l2 = s.l2 := rfl
@[simp] theorem State.setAdit_tlb (s : State) (p : Nat) (x : AditSt) : (s.setAdit p x).tlb = s.tlb := rfl
@[simp] theorem State.setAdit_walks (s : State) (p : Nat) (x : AditSt) : (s.setAdit p x).walks = s.walks := rfl
@[simp] theorem State.setAdit_mmu (s : State) (p : Nat) (x : AditSt) : (s.setAdit p x).mmu = s.mmu := rfl
@[simp] theorem State.setAdit_clus (s : State) (p : Nat) (x : AditSt) : (s.setAdit p x).clus = s.clus := rfl
@[simp] theorem State.setAdit_asy (s : State) (p : Nat) (x : AditSt) : (s.setAdit p x).asy = s.asy := rfl
@[simp] theorem State.setAdit_net (s : State) (p : Nat) (x : AditSt) : (s.setAdit p x).net = s.net := rfl
@[simp] theorem State.setAdit_pwr (s : State) (p : Nat) (x : AditSt) : (s.setAdit p x).pwr = s.pwr := rfl
@[simp] theorem State.setAdit_evt (s : State) (p : Nat) (x : AditSt) : (s.setAdit p x).evt = s.evt := rfl
@[simp] theorem State.setAdit_msix (s : State) (p : Nat) (x : AditSt) : (s.setAdit p x).msix = s.msix := rfl
@[simp] theorem State.setAdit_dma (s : State) (p : Nat) (x : AditSt) : (s.setAdit p x).dma = s.dma := rfl
@[simp] theorem State.setAdit_early (s : State) (p : Nat) (x : AditSt) : (s.setAdit p x).early = s.early := rfl
@[simp] theorem State.setAdit_hostMem (s : State) (p : Nat) (x : AditSt) : (s.setAdit p x).hostMem = s.hostMem := rfl
@[simp] theorem State.setAdit_hostErr (s : State) (p : Nat) (x : AditSt) : (s.setAdit p x).hostErr = s.hostErr := rfl
@[simp] theorem State.setAdit_win (s : State) (p : Nat) (x : AditSt) : (s.setAdit p x).win = s.win := rfl
@[simp] theorem State.setAdit_boot (s : State) (p : Nat) (x : AditSt) : (s.setAdit p x).boot = s.boot := rfl
@[simp] theorem State.setAdit_fuses (s : State) (p : Nat) (x : AditSt) : (s.setAdit p x).fuses = s.fuses := rfl
@[simp] theorem State.setAdit_dbg (s : State) (p : Nat) (x : AditSt) : (s.setAdit p x).dbg = s.dbg := rfl
@[simp] theorem State.setAdit_pins (s : State) (p : Nat) (x : AditSt) : (s.setAdit p x).pins = s.pins := rfl
@[simp] theorem State.setAdit_ucieLost (s : State) (p : Nat) (x : AditSt) : (s.setAdit p x).ucieLost = s.ucieLost := rfl
@[simp] theorem State.setAdit_out (s : State) (p : Nat) (x : AditSt) : (s.setAdit p x).out = s.out := rfl
@[simp] theorem State.setAdit_thermtrip (s : State) (p : Nat) (x : AditSt) : (s.setAdit p x).thermtrip = s.thermtrip := rfl
@[simp] theorem State.setAdit_freeCtr (s : State) (p : Nat) (x : AditSt) : (s.setAdit p x).freeCtr = s.freeCtr := rfl

/-! ### setAsy -/

@[simp] theorem State.setAsy_product (s : State) (p : Nat) (x : AsySt) : (s.setAsy p x).product = s.product := rfl
@[simp] theorem State.setAsy_pending (s : State) (p : Nat) (x : AsySt) : (s.setAsy p x).pending = s.pending := rfl
@[simp] theorem State.setAsy_regs (s : State) (p : Nat) (x : AsySt) : (s.setAsy p x).regs = s.regs := rfl
@[simp] theorem State.setAsy_active (s : State) (p : Nat) (x : AsySt) : (s.setAsy p x).active = s.active := rfl
@[simp] theorem State.setAsy_masters (s : State) (p : Nat) (x : AsySt) : (s.setAsy p x).masters = s.masters := rfl
@[simp] theorem State.setAsy_adm (s : State) (p : Nat) (x : AsySt) : (s.setAsy p x).adm = s.adm := rfl
@[simp] theorem State.setAsy_slots (s : State) (p : Nat) (x : AsySt) : (s.setAsy p x).slots = s.slots := rfl
@[simp] theorem State.setAsy_egr (s : State) (p : Nat) (x : AsySt) : (s.setAsy p x).egr = s.egr := rfl
@[simp] theorem State.setAsy_tal (s : State) (p : Nat) (x : AsySt) : (s.setAsy p x).tal = s.tal := rfl
@[simp] theorem State.setAsy_beat (s : State) (p : Nat) (x : AsySt) : (s.setAsy p x).beat = s.beat := rfl
@[simp] theorem State.setAsy_plats (s : State) (p : Nat) (x : AsySt) : (s.setAsy p x).plats = s.plats := rfl
@[simp] theorem State.setAsy_fo (s : State) (p : Nat) (x : AsySt) : (s.setAsy p x).fo = s.fo := rfl
@[simp] theorem State.setAsy_mem (s : State) (p : Nat) (x : AsySt) : (s.setAsy p x).mem = s.mem := rfl
@[simp] theorem State.setAsy_claims (s : State) (p : Nat) (x : AsySt) : (s.setAsy p x).claims = s.claims := rfl
@[simp] theorem State.setAsy_l2 (s : State) (p : Nat) (x : AsySt) : (s.setAsy p x).l2 = s.l2 := rfl
@[simp] theorem State.setAsy_tlb (s : State) (p : Nat) (x : AsySt) : (s.setAsy p x).tlb = s.tlb := rfl
@[simp] theorem State.setAsy_walks (s : State) (p : Nat) (x : AsySt) : (s.setAsy p x).walks = s.walks := rfl
@[simp] theorem State.setAsy_mmu (s : State) (p : Nat) (x : AsySt) : (s.setAsy p x).mmu = s.mmu := rfl
@[simp] theorem State.setAsy_clus (s : State) (p : Nat) (x : AsySt) : (s.setAsy p x).clus = s.clus := rfl
@[simp] theorem State.setAsy_adit (s : State) (p : Nat) (x : AsySt) : (s.setAsy p x).adit = s.adit := rfl
@[simp] theorem State.setAsy_net (s : State) (p : Nat) (x : AsySt) : (s.setAsy p x).net = s.net := rfl
@[simp] theorem State.setAsy_pwr (s : State) (p : Nat) (x : AsySt) : (s.setAsy p x).pwr = s.pwr := rfl
@[simp] theorem State.setAsy_evt (s : State) (p : Nat) (x : AsySt) : (s.setAsy p x).evt = s.evt := rfl
@[simp] theorem State.setAsy_msix (s : State) (p : Nat) (x : AsySt) : (s.setAsy p x).msix = s.msix := rfl
@[simp] theorem State.setAsy_dma (s : State) (p : Nat) (x : AsySt) : (s.setAsy p x).dma = s.dma := rfl
@[simp] theorem State.setAsy_early (s : State) (p : Nat) (x : AsySt) : (s.setAsy p x).early = s.early := rfl
@[simp] theorem State.setAsy_hostMem (s : State) (p : Nat) (x : AsySt) : (s.setAsy p x).hostMem = s.hostMem := rfl
@[simp] theorem State.setAsy_hostErr (s : State) (p : Nat) (x : AsySt) : (s.setAsy p x).hostErr = s.hostErr := rfl
@[simp] theorem State.setAsy_win (s : State) (p : Nat) (x : AsySt) : (s.setAsy p x).win = s.win := rfl
@[simp] theorem State.setAsy_boot (s : State) (p : Nat) (x : AsySt) : (s.setAsy p x).boot = s.boot := rfl
@[simp] theorem State.setAsy_fuses (s : State) (p : Nat) (x : AsySt) : (s.setAsy p x).fuses = s.fuses := rfl
@[simp] theorem State.setAsy_dbg (s : State) (p : Nat) (x : AsySt) : (s.setAsy p x).dbg = s.dbg := rfl
@[simp] theorem State.setAsy_pins (s : State) (p : Nat) (x : AsySt) : (s.setAsy p x).pins = s.pins := rfl
@[simp] theorem State.setAsy_ucieLost (s : State) (p : Nat) (x : AsySt) : (s.setAsy p x).ucieLost = s.ucieLost := rfl
@[simp] theorem State.setAsy_out (s : State) (p : Nat) (x : AsySt) : (s.setAsy p x).out = s.out := rfl
@[simp] theorem State.setAsy_thermtrip (s : State) (p : Nat) (x : AsySt) : (s.setAsy p x).thermtrip = s.thermtrip := rfl
@[simp] theorem State.setAsy_freeCtr (s : State) (p : Nat) (x : AsySt) : (s.setAsy p x).freeCtr = s.freeCtr := rfl

/-! ### setL2 -/

@[simp] theorem State.setL2_product (s : State) (p : Nat) (x : L2St) : (s.setL2 p x).product = s.product := rfl
@[simp] theorem State.setL2_pending (s : State) (p : Nat) (x : L2St) : (s.setL2 p x).pending = s.pending := rfl
@[simp] theorem State.setL2_regs (s : State) (p : Nat) (x : L2St) : (s.setL2 p x).regs = s.regs := rfl
@[simp] theorem State.setL2_active (s : State) (p : Nat) (x : L2St) : (s.setL2 p x).active = s.active := rfl
@[simp] theorem State.setL2_masters (s : State) (p : Nat) (x : L2St) : (s.setL2 p x).masters = s.masters := rfl
@[simp] theorem State.setL2_adm (s : State) (p : Nat) (x : L2St) : (s.setL2 p x).adm = s.adm := rfl
@[simp] theorem State.setL2_slots (s : State) (p : Nat) (x : L2St) : (s.setL2 p x).slots = s.slots := rfl
@[simp] theorem State.setL2_egr (s : State) (p : Nat) (x : L2St) : (s.setL2 p x).egr = s.egr := rfl
@[simp] theorem State.setL2_tal (s : State) (p : Nat) (x : L2St) : (s.setL2 p x).tal = s.tal := rfl
@[simp] theorem State.setL2_beat (s : State) (p : Nat) (x : L2St) : (s.setL2 p x).beat = s.beat := rfl
@[simp] theorem State.setL2_plats (s : State) (p : Nat) (x : L2St) : (s.setL2 p x).plats = s.plats := rfl
@[simp] theorem State.setL2_fo (s : State) (p : Nat) (x : L2St) : (s.setL2 p x).fo = s.fo := rfl
@[simp] theorem State.setL2_mem (s : State) (p : Nat) (x : L2St) : (s.setL2 p x).mem = s.mem := rfl
@[simp] theorem State.setL2_claims (s : State) (p : Nat) (x : L2St) : (s.setL2 p x).claims = s.claims := rfl
@[simp] theorem State.setL2_tlb (s : State) (p : Nat) (x : L2St) : (s.setL2 p x).tlb = s.tlb := rfl
@[simp] theorem State.setL2_walks (s : State) (p : Nat) (x : L2St) : (s.setL2 p x).walks = s.walks := rfl
@[simp] theorem State.setL2_mmu (s : State) (p : Nat) (x : L2St) : (s.setL2 p x).mmu = s.mmu := rfl
@[simp] theorem State.setL2_clus (s : State) (p : Nat) (x : L2St) : (s.setL2 p x).clus = s.clus := rfl
@[simp] theorem State.setL2_adit (s : State) (p : Nat) (x : L2St) : (s.setL2 p x).adit = s.adit := rfl
@[simp] theorem State.setL2_asy (s : State) (p : Nat) (x : L2St) : (s.setL2 p x).asy = s.asy := rfl
@[simp] theorem State.setL2_net (s : State) (p : Nat) (x : L2St) : (s.setL2 p x).net = s.net := rfl
@[simp] theorem State.setL2_pwr (s : State) (p : Nat) (x : L2St) : (s.setL2 p x).pwr = s.pwr := rfl
@[simp] theorem State.setL2_evt (s : State) (p : Nat) (x : L2St) : (s.setL2 p x).evt = s.evt := rfl
@[simp] theorem State.setL2_msix (s : State) (p : Nat) (x : L2St) : (s.setL2 p x).msix = s.msix := rfl
@[simp] theorem State.setL2_dma (s : State) (p : Nat) (x : L2St) : (s.setL2 p x).dma = s.dma := rfl
@[simp] theorem State.setL2_early (s : State) (p : Nat) (x : L2St) : (s.setL2 p x).early = s.early := rfl
@[simp] theorem State.setL2_hostMem (s : State) (p : Nat) (x : L2St) : (s.setL2 p x).hostMem = s.hostMem := rfl
@[simp] theorem State.setL2_hostErr (s : State) (p : Nat) (x : L2St) : (s.setL2 p x).hostErr = s.hostErr := rfl
@[simp] theorem State.setL2_win (s : State) (p : Nat) (x : L2St) : (s.setL2 p x).win = s.win := rfl
@[simp] theorem State.setL2_boot (s : State) (p : Nat) (x : L2St) : (s.setL2 p x).boot = s.boot := rfl
@[simp] theorem State.setL2_fuses (s : State) (p : Nat) (x : L2St) : (s.setL2 p x).fuses = s.fuses := rfl
@[simp] theorem State.setL2_dbg (s : State) (p : Nat) (x : L2St) : (s.setL2 p x).dbg = s.dbg := rfl
@[simp] theorem State.setL2_pins (s : State) (p : Nat) (x : L2St) : (s.setL2 p x).pins = s.pins := rfl
@[simp] theorem State.setL2_ucieLost (s : State) (p : Nat) (x : L2St) : (s.setL2 p x).ucieLost = s.ucieLost := rfl
@[simp] theorem State.setL2_out (s : State) (p : Nat) (x : L2St) : (s.setL2 p x).out = s.out := rfl
@[simp] theorem State.setL2_thermtrip (s : State) (p : Nat) (x : L2St) : (s.setL2 p x).thermtrip = s.thermtrip := rfl
@[simp] theorem State.setL2_freeCtr (s : State) (p : Nat) (x : L2St) : (s.setL2 p x).freeCtr = s.freeCtr := rfl

/-! ### setClu -/

@[simp] theorem State.setClu_product (s : State) (p c : Nat) (x : Cluster) : (s.setClu p c x).product = s.product := rfl
@[simp] theorem State.setClu_pending (s : State) (p c : Nat) (x : Cluster) : (s.setClu p c x).pending = s.pending := rfl
@[simp] theorem State.setClu_regs (s : State) (p c : Nat) (x : Cluster) : (s.setClu p c x).regs = s.regs := rfl
@[simp] theorem State.setClu_active (s : State) (p c : Nat) (x : Cluster) : (s.setClu p c x).active = s.active := rfl
@[simp] theorem State.setClu_masters (s : State) (p c : Nat) (x : Cluster) : (s.setClu p c x).masters = s.masters := rfl
@[simp] theorem State.setClu_adm (s : State) (p c : Nat) (x : Cluster) : (s.setClu p c x).adm = s.adm := rfl
@[simp] theorem State.setClu_slots (s : State) (p c : Nat) (x : Cluster) : (s.setClu p c x).slots = s.slots := rfl
@[simp] theorem State.setClu_egr (s : State) (p c : Nat) (x : Cluster) : (s.setClu p c x).egr = s.egr := rfl
@[simp] theorem State.setClu_tal (s : State) (p c : Nat) (x : Cluster) : (s.setClu p c x).tal = s.tal := rfl
@[simp] theorem State.setClu_beat (s : State) (p c : Nat) (x : Cluster) : (s.setClu p c x).beat = s.beat := rfl
@[simp] theorem State.setClu_plats (s : State) (p c : Nat) (x : Cluster) : (s.setClu p c x).plats = s.plats := rfl
@[simp] theorem State.setClu_fo (s : State) (p c : Nat) (x : Cluster) : (s.setClu p c x).fo = s.fo := rfl
@[simp] theorem State.setClu_mem (s : State) (p c : Nat) (x : Cluster) : (s.setClu p c x).mem = s.mem := rfl
@[simp] theorem State.setClu_claims (s : State) (p c : Nat) (x : Cluster) : (s.setClu p c x).claims = s.claims := rfl
@[simp] theorem State.setClu_l2 (s : State) (p c : Nat) (x : Cluster) : (s.setClu p c x).l2 = s.l2 := rfl
@[simp] theorem State.setClu_tlb (s : State) (p c : Nat) (x : Cluster) : (s.setClu p c x).tlb = s.tlb := rfl
@[simp] theorem State.setClu_walks (s : State) (p c : Nat) (x : Cluster) : (s.setClu p c x).walks = s.walks := rfl
@[simp] theorem State.setClu_mmu (s : State) (p c : Nat) (x : Cluster) : (s.setClu p c x).mmu = s.mmu := rfl
@[simp] theorem State.setClu_adit (s : State) (p c : Nat) (x : Cluster) : (s.setClu p c x).adit = s.adit := rfl
@[simp] theorem State.setClu_asy (s : State) (p c : Nat) (x : Cluster) : (s.setClu p c x).asy = s.asy := rfl
@[simp] theorem State.setClu_net (s : State) (p c : Nat) (x : Cluster) : (s.setClu p c x).net = s.net := rfl
@[simp] theorem State.setClu_pwr (s : State) (p c : Nat) (x : Cluster) : (s.setClu p c x).pwr = s.pwr := rfl
@[simp] theorem State.setClu_evt (s : State) (p c : Nat) (x : Cluster) : (s.setClu p c x).evt = s.evt := rfl
@[simp] theorem State.setClu_msix (s : State) (p c : Nat) (x : Cluster) : (s.setClu p c x).msix = s.msix := rfl
@[simp] theorem State.setClu_dma (s : State) (p c : Nat) (x : Cluster) : (s.setClu p c x).dma = s.dma := rfl
@[simp] theorem State.setClu_early (s : State) (p c : Nat) (x : Cluster) : (s.setClu p c x).early = s.early := rfl
@[simp] theorem State.setClu_hostMem (s : State) (p c : Nat) (x : Cluster) : (s.setClu p c x).hostMem = s.hostMem := rfl
@[simp] theorem State.setClu_hostErr (s : State) (p c : Nat) (x : Cluster) : (s.setClu p c x).hostErr = s.hostErr := rfl
@[simp] theorem State.setClu_win (s : State) (p c : Nat) (x : Cluster) : (s.setClu p c x).win = s.win := rfl
@[simp] theorem State.setClu_boot (s : State) (p c : Nat) (x : Cluster) : (s.setClu p c x).boot = s.boot := rfl
@[simp] theorem State.setClu_fuses (s : State) (p c : Nat) (x : Cluster) : (s.setClu p c x).fuses = s.fuses := rfl
@[simp] theorem State.setClu_dbg (s : State) (p c : Nat) (x : Cluster) : (s.setClu p c x).dbg = s.dbg := rfl
@[simp] theorem State.setClu_pins (s : State) (p c : Nat) (x : Cluster) : (s.setClu p c x).pins = s.pins := rfl
@[simp] theorem State.setClu_ucieLost (s : State) (p c : Nat) (x : Cluster) : (s.setClu p c x).ucieLost = s.ucieLost := rfl
@[simp] theorem State.setClu_out (s : State) (p c : Nat) (x : Cluster) : (s.setClu p c x).out = s.out := rfl
@[simp] theorem State.setClu_thermtrip (s : State) (p c : Nat) (x : Cluster) : (s.setClu p c x).thermtrip = s.thermtrip := rfl
@[simp] theorem State.setClu_freeCtr (s : State) (p c : Nat) (x : Cluster) : (s.setClu p c x).freeCtr = s.freeCtr := rfl

/-! ### setEgr -/

@[simp] theorem State.setEgr_product (s : State) (k : Nat) (e : EgrRec) : (s.setEgr k e).product = s.product := rfl
@[simp] theorem State.setEgr_pending (s : State) (k : Nat) (e : EgrRec) : (s.setEgr k e).pending = s.pending := rfl
@[simp] theorem State.setEgr_regs (s : State) (k : Nat) (e : EgrRec) : (s.setEgr k e).regs = s.regs := rfl
@[simp] theorem State.setEgr_active (s : State) (k : Nat) (e : EgrRec) : (s.setEgr k e).active = s.active := rfl
@[simp] theorem State.setEgr_masters (s : State) (k : Nat) (e : EgrRec) : (s.setEgr k e).masters = s.masters := rfl
@[simp] theorem State.setEgr_adm (s : State) (k : Nat) (e : EgrRec) : (s.setEgr k e).adm = s.adm := rfl
@[simp] theorem State.setEgr_slots (s : State) (k : Nat) (e : EgrRec) : (s.setEgr k e).slots = s.slots := rfl
@[simp] theorem State.setEgr_egr (s : State) (k : Nat) (e : EgrRec) :
    (s.setEgr k e).egr = Tbl.set (fun _ => egrNone) s.egr k e := rfl
@[simp] theorem State.setEgr_tal (s : State) (k : Nat) (e : EgrRec) : (s.setEgr k e).tal = s.tal := rfl
@[simp] theorem State.setEgr_beat (s : State) (k : Nat) (e : EgrRec) : (s.setEgr k e).beat = s.beat := rfl
@[simp] theorem State.setEgr_plats (s : State) (k : Nat) (e : EgrRec) : (s.setEgr k e).plats = s.plats := rfl
@[simp] theorem State.setEgr_fo (s : State) (k : Nat) (e : EgrRec) : (s.setEgr k e).fo = s.fo := rfl
@[simp] theorem State.setEgr_mem (s : State) (k : Nat) (e : EgrRec) : (s.setEgr k e).mem = s.mem := rfl
@[simp] theorem State.setEgr_claims (s : State) (k : Nat) (e : EgrRec) : (s.setEgr k e).claims = s.claims := rfl
@[simp] theorem State.setEgr_l2 (s : State) (k : Nat) (e : EgrRec) : (s.setEgr k e).l2 = s.l2 := rfl
@[simp] theorem State.setEgr_tlb (s : State) (k : Nat) (e : EgrRec) : (s.setEgr k e).tlb = s.tlb := rfl
@[simp] theorem State.setEgr_walks (s : State) (k : Nat) (e : EgrRec) : (s.setEgr k e).walks = s.walks := rfl
@[simp] theorem State.setEgr_mmu (s : State) (k : Nat) (e : EgrRec) : (s.setEgr k e).mmu = s.mmu := rfl
@[simp] theorem State.setEgr_clus (s : State) (k : Nat) (e : EgrRec) : (s.setEgr k e).clus = s.clus := rfl
@[simp] theorem State.setEgr_adit (s : State) (k : Nat) (e : EgrRec) : (s.setEgr k e).adit = s.adit := rfl
@[simp] theorem State.setEgr_asy (s : State) (k : Nat) (e : EgrRec) : (s.setEgr k e).asy = s.asy := rfl
@[simp] theorem State.setEgr_net (s : State) (k : Nat) (e : EgrRec) : (s.setEgr k e).net = s.net := rfl
@[simp] theorem State.setEgr_pwr (s : State) (k : Nat) (e : EgrRec) : (s.setEgr k e).pwr = s.pwr := rfl
@[simp] theorem State.setEgr_evt (s : State) (k : Nat) (e : EgrRec) : (s.setEgr k e).evt = s.evt := rfl
@[simp] theorem State.setEgr_msix (s : State) (k : Nat) (e : EgrRec) : (s.setEgr k e).msix = s.msix := rfl
@[simp] theorem State.setEgr_dma (s : State) (k : Nat) (e : EgrRec) : (s.setEgr k e).dma = s.dma := rfl
@[simp] theorem State.setEgr_early (s : State) (k : Nat) (e : EgrRec) : (s.setEgr k e).early = s.early := rfl
@[simp] theorem State.setEgr_hostMem (s : State) (k : Nat) (e : EgrRec) : (s.setEgr k e).hostMem = s.hostMem := rfl
@[simp] theorem State.setEgr_hostErr (s : State) (k : Nat) (e : EgrRec) : (s.setEgr k e).hostErr = s.hostErr := rfl
@[simp] theorem State.setEgr_win (s : State) (k : Nat) (e : EgrRec) : (s.setEgr k e).win = s.win := rfl
@[simp] theorem State.setEgr_boot (s : State) (k : Nat) (e : EgrRec) : (s.setEgr k e).boot = s.boot := rfl
@[simp] theorem State.setEgr_fuses (s : State) (k : Nat) (e : EgrRec) : (s.setEgr k e).fuses = s.fuses := rfl
@[simp] theorem State.setEgr_dbg (s : State) (k : Nat) (e : EgrRec) : (s.setEgr k e).dbg = s.dbg := rfl
@[simp] theorem State.setEgr_pins (s : State) (k : Nat) (e : EgrRec) : (s.setEgr k e).pins = s.pins := rfl
@[simp] theorem State.setEgr_ucieLost (s : State) (k : Nat) (e : EgrRec) : (s.setEgr k e).ucieLost = s.ucieLost := rfl
@[simp] theorem State.setEgr_out (s : State) (k : Nat) (e : EgrRec) : (s.setEgr k e).out = s.out := rfl
@[simp] theorem State.setEgr_thermtrip (s : State) (k : Nat) (e : EgrRec) : (s.setEgr k e).thermtrip = s.thermtrip := rfl
@[simp] theorem State.setEgr_freeCtr (s : State) (k : Nat) (e : EgrRec) : (s.setEgr k e).freeCtr = s.freeCtr := rfl

/-! ### withMesh -/

@[simp] theorem State.withMesh_product (s : State) (m : MeshSt) : (s.withMesh m).product = s.product := rfl
@[simp] theorem State.withMesh_pending (s : State) (m : MeshSt) : (s.withMesh m).pending = s.pending := rfl
@[simp] theorem State.withMesh_regs (s : State) (m : MeshSt) : (s.withMesh m).regs = s.regs := rfl
@[simp] theorem State.withMesh_active (s : State) (m : MeshSt) : (s.withMesh m).active = s.active := rfl
@[simp] theorem State.withMesh_masters (s : State) (m : MeshSt) : (s.withMesh m).masters = s.masters := rfl
@[simp] theorem State.withMesh_adm (s : State) (m : MeshSt) : (s.withMesh m).adm = s.adm := rfl
@[simp] theorem State.withMesh_slots (s : State) (m : MeshSt) : (s.withMesh m).slots = s.slots := rfl
@[simp] theorem State.withMesh_egr (s : State) (m : MeshSt) : (s.withMesh m).egr = s.egr := rfl
@[simp] theorem State.withMesh_tal (s : State) (m : MeshSt) : (s.withMesh m).tal = s.tal := rfl
@[simp] theorem State.withMesh_beat (s : State) (m : MeshSt) : (s.withMesh m).beat = s.beat := rfl
@[simp] theorem State.withMesh_plats (s : State) (m : MeshSt) : (s.withMesh m).plats = s.plats := rfl
@[simp] theorem State.withMesh_fo (s : State) (m : MeshSt) : (s.withMesh m).fo = s.fo := rfl
@[simp] theorem State.withMesh_mem (s : State) (m : MeshSt) : (s.withMesh m).mem = s.mem := rfl
@[simp] theorem State.withMesh_claims (s : State) (m : MeshSt) : (s.withMesh m).claims = s.claims := rfl
@[simp] theorem State.withMesh_l2 (s : State) (m : MeshSt) : (s.withMesh m).l2 = s.l2 := rfl
@[simp] theorem State.withMesh_tlb (s : State) (m : MeshSt) : (s.withMesh m).tlb = s.tlb := rfl
@[simp] theorem State.withMesh_walks (s : State) (m : MeshSt) : (s.withMesh m).walks = s.walks := rfl
@[simp] theorem State.withMesh_mmu (s : State) (m : MeshSt) : (s.withMesh m).mmu = s.mmu := rfl
@[simp] theorem State.withMesh_clus (s : State) (m : MeshSt) : (s.withMesh m).clus = s.clus := rfl
@[simp] theorem State.withMesh_adit (s : State) (m : MeshSt) : (s.withMesh m).adit = s.adit := rfl
@[simp] theorem State.withMesh_asy (s : State) (m : MeshSt) : (s.withMesh m).asy = s.asy := rfl
@[simp] theorem State.withMesh_net (s : State) (m : MeshSt) : (s.withMesh m).net = { s.net with mesh := m } := rfl
@[simp] theorem State.withMesh_pwr (s : State) (m : MeshSt) : (s.withMesh m).pwr = s.pwr := rfl
@[simp] theorem State.withMesh_evt (s : State) (m : MeshSt) : (s.withMesh m).evt = s.evt := rfl
@[simp] theorem State.withMesh_msix (s : State) (m : MeshSt) : (s.withMesh m).msix = s.msix := rfl
@[simp] theorem State.withMesh_dma (s : State) (m : MeshSt) : (s.withMesh m).dma = s.dma := rfl
@[simp] theorem State.withMesh_early (s : State) (m : MeshSt) : (s.withMesh m).early = s.early := rfl
@[simp] theorem State.withMesh_hostMem (s : State) (m : MeshSt) : (s.withMesh m).hostMem = s.hostMem := rfl
@[simp] theorem State.withMesh_hostErr (s : State) (m : MeshSt) : (s.withMesh m).hostErr = s.hostErr := rfl
@[simp] theorem State.withMesh_win (s : State) (m : MeshSt) : (s.withMesh m).win = s.win := rfl
@[simp] theorem State.withMesh_boot (s : State) (m : MeshSt) : (s.withMesh m).boot = s.boot := rfl
@[simp] theorem State.withMesh_fuses (s : State) (m : MeshSt) : (s.withMesh m).fuses = s.fuses := rfl
@[simp] theorem State.withMesh_dbg (s : State) (m : MeshSt) : (s.withMesh m).dbg = s.dbg := rfl
@[simp] theorem State.withMesh_pins (s : State) (m : MeshSt) : (s.withMesh m).pins = s.pins := rfl
@[simp] theorem State.withMesh_ucieLost (s : State) (m : MeshSt) : (s.withMesh m).ucieLost = s.ucieLost := rfl
@[simp] theorem State.withMesh_out (s : State) (m : MeshSt) : (s.withMesh m).out = s.out := rfl
@[simp] theorem State.withMesh_thermtrip (s : State) (m : MeshSt) : (s.withMesh m).thermtrip = s.thermtrip := rfl
@[simp] theorem State.withMesh_freeCtr (s : State) (m : MeshSt) : (s.withMesh m).freeCtr = s.freeCtr := rfl

/-! ### setScrub -/

@[simp] theorem State.setScrub_product (s : State) (k o : Nat) : (s.setScrub k o).product = s.product := rfl
@[simp] theorem State.setScrub_pending (s : State) (k o : Nat) : (s.setScrub k o).pending = s.pending := rfl
@[simp] theorem State.setScrub_regs (s : State) (k o : Nat) : (s.setScrub k o).regs = s.regs := rfl
@[simp] theorem State.setScrub_active (s : State) (k o : Nat) : (s.setScrub k o).active = s.active := rfl
@[simp] theorem State.setScrub_masters (s : State) (k o : Nat) : (s.setScrub k o).masters = s.masters := rfl
@[simp] theorem State.setScrub_adm (s : State) (k o : Nat) : (s.setScrub k o).adm = s.adm := rfl
@[simp] theorem State.setScrub_slots (s : State) (k o : Nat) : (s.setScrub k o).slots = s.slots := rfl
@[simp] theorem State.setScrub_egr (s : State) (k o : Nat) : (s.setScrub k o).egr = s.egr := rfl
@[simp] theorem State.setScrub_tal (s : State) (k o : Nat) : (s.setScrub k o).tal = s.tal := rfl
@[simp] theorem State.setScrub_beat (s : State) (k o : Nat) : (s.setScrub k o).beat = s.beat := rfl
@[simp] theorem State.setScrub_plats (s : State) (k o : Nat) : (s.setScrub k o).plats = s.plats := rfl
@[simp] theorem State.setScrub_fo (s : State) (k o : Nat) : (s.setScrub k o).fo = s.fo := rfl
@[simp] theorem State.setScrub_mem (s : State) (k o : Nat) :
    (s.setScrub k o).mem = { s.mem with scrub := Tbl.set (fun _ => 0) s.mem.scrub k o } := rfl
@[simp] theorem State.setScrub_claims (s : State) (k o : Nat) : (s.setScrub k o).claims = s.claims := rfl
@[simp] theorem State.setScrub_l2 (s : State) (k o : Nat) : (s.setScrub k o).l2 = s.l2 := rfl
@[simp] theorem State.setScrub_tlb (s : State) (k o : Nat) : (s.setScrub k o).tlb = s.tlb := rfl
@[simp] theorem State.setScrub_walks (s : State) (k o : Nat) : (s.setScrub k o).walks = s.walks := rfl
@[simp] theorem State.setScrub_mmu (s : State) (k o : Nat) : (s.setScrub k o).mmu = s.mmu := rfl
@[simp] theorem State.setScrub_clus (s : State) (k o : Nat) : (s.setScrub k o).clus = s.clus := rfl
@[simp] theorem State.setScrub_adit (s : State) (k o : Nat) : (s.setScrub k o).adit = s.adit := rfl
@[simp] theorem State.setScrub_asy (s : State) (k o : Nat) : (s.setScrub k o).asy = s.asy := rfl
@[simp] theorem State.setScrub_net (s : State) (k o : Nat) : (s.setScrub k o).net = s.net := rfl
@[simp] theorem State.setScrub_pwr (s : State) (k o : Nat) : (s.setScrub k o).pwr = s.pwr := rfl
@[simp] theorem State.setScrub_evt (s : State) (k o : Nat) : (s.setScrub k o).evt = s.evt := rfl
@[simp] theorem State.setScrub_msix (s : State) (k o : Nat) : (s.setScrub k o).msix = s.msix := rfl
@[simp] theorem State.setScrub_dma (s : State) (k o : Nat) : (s.setScrub k o).dma = s.dma := rfl
@[simp] theorem State.setScrub_early (s : State) (k o : Nat) : (s.setScrub k o).early = s.early := rfl
@[simp] theorem State.setScrub_hostMem (s : State) (k o : Nat) : (s.setScrub k o).hostMem = s.hostMem := rfl
@[simp] theorem State.setScrub_hostErr (s : State) (k o : Nat) : (s.setScrub k o).hostErr = s.hostErr := rfl
@[simp] theorem State.setScrub_win (s : State) (k o : Nat) : (s.setScrub k o).win = s.win := rfl
@[simp] theorem State.setScrub_boot (s : State) (k o : Nat) : (s.setScrub k o).boot = s.boot := rfl
@[simp] theorem State.setScrub_fuses (s : State) (k o : Nat) : (s.setScrub k o).fuses = s.fuses := rfl
@[simp] theorem State.setScrub_dbg (s : State) (k o : Nat) : (s.setScrub k o).dbg = s.dbg := rfl
@[simp] theorem State.setScrub_pins (s : State) (k o : Nat) : (s.setScrub k o).pins = s.pins := rfl
@[simp] theorem State.setScrub_ucieLost (s : State) (k o : Nat) : (s.setScrub k o).ucieLost = s.ucieLost := rfl
@[simp] theorem State.setScrub_out (s : State) (k o : Nat) : (s.setScrub k o).out = s.out := rfl
@[simp] theorem State.setScrub_thermtrip (s : State) (k o : Nat) : (s.setScrub k o).thermtrip = s.thermtrip := rfl
@[simp] theorem State.setScrub_freeCtr (s : State) (k o : Nat) : (s.setScrub k o).freeCtr = s.freeCtr := rfl

/-! ### send -/

@[simp] theorem State.send_product (s : State) (m : OutMsg) : (s.send m).product = s.product := rfl
@[simp] theorem State.send_pending (s : State) (m : OutMsg) : (s.send m).pending = s.pending := rfl
@[simp] theorem State.send_regs (s : State) (m : OutMsg) : (s.send m).regs = s.regs := rfl
@[simp] theorem State.send_active (s : State) (m : OutMsg) : (s.send m).active = s.active := rfl
@[simp] theorem State.send_masters (s : State) (m : OutMsg) : (s.send m).masters = s.masters := rfl
@[simp] theorem State.send_adm (s : State) (m : OutMsg) : (s.send m).adm = s.adm := rfl
@[simp] theorem State.send_slots (s : State) (m : OutMsg) : (s.send m).slots = s.slots := rfl
@[simp] theorem State.send_egr (s : State) (m : OutMsg) : (s.send m).egr = s.egr := rfl
@[simp] theorem State.send_tal (s : State) (m : OutMsg) : (s.send m).tal = s.tal := rfl
@[simp] theorem State.send_beat (s : State) (m : OutMsg) : (s.send m).beat = s.beat := rfl
@[simp] theorem State.send_plats (s : State) (m : OutMsg) : (s.send m).plats = s.plats := rfl
@[simp] theorem State.send_fo (s : State) (m : OutMsg) : (s.send m).fo = s.fo := rfl
@[simp] theorem State.send_mem (s : State) (m : OutMsg) : (s.send m).mem = s.mem := rfl
@[simp] theorem State.send_claims (s : State) (m : OutMsg) : (s.send m).claims = s.claims := rfl
@[simp] theorem State.send_l2 (s : State) (m : OutMsg) : (s.send m).l2 = s.l2 := rfl
@[simp] theorem State.send_tlb (s : State) (m : OutMsg) : (s.send m).tlb = s.tlb := rfl
@[simp] theorem State.send_walks (s : State) (m : OutMsg) : (s.send m).walks = s.walks := rfl
@[simp] theorem State.send_mmu (s : State) (m : OutMsg) : (s.send m).mmu = s.mmu := rfl
@[simp] theorem State.send_clus (s : State) (m : OutMsg) : (s.send m).clus = s.clus := rfl
@[simp] theorem State.send_adit (s : State) (m : OutMsg) : (s.send m).adit = s.adit := rfl
@[simp] theorem State.send_asy (s : State) (m : OutMsg) : (s.send m).asy = s.asy := rfl
@[simp] theorem State.send_net (s : State) (m : OutMsg) : (s.send m).net = s.net := rfl
@[simp] theorem State.send_pwr (s : State) (m : OutMsg) : (s.send m).pwr = s.pwr := rfl
@[simp] theorem State.send_evt (s : State) (m : OutMsg) : (s.send m).evt = s.evt := rfl
@[simp] theorem State.send_msix (s : State) (m : OutMsg) : (s.send m).msix = s.msix := rfl
@[simp] theorem State.send_dma (s : State) (m : OutMsg) : (s.send m).dma = s.dma := rfl
@[simp] theorem State.send_early (s : State) (m : OutMsg) : (s.send m).early = s.early := rfl
@[simp] theorem State.send_hostMem (s : State) (m : OutMsg) : (s.send m).hostMem = s.hostMem := rfl
@[simp] theorem State.send_hostErr (s : State) (m : OutMsg) : (s.send m).hostErr = s.hostErr := rfl
@[simp] theorem State.send_win (s : State) (m : OutMsg) : (s.send m).win = s.win := rfl
@[simp] theorem State.send_boot (s : State) (m : OutMsg) : (s.send m).boot = s.boot := rfl
@[simp] theorem State.send_fuses (s : State) (m : OutMsg) : (s.send m).fuses = s.fuses := rfl
@[simp] theorem State.send_dbg (s : State) (m : OutMsg) : (s.send m).dbg = s.dbg := rfl
@[simp] theorem State.send_pins (s : State) (m : OutMsg) : (s.send m).pins = s.pins := rfl
@[simp] theorem State.send_ucieLost (s : State) (m : OutMsg) : (s.send m).ucieLost = s.ucieLost := rfl
@[simp] theorem State.send_out (s : State) (m : OutMsg) : (s.send m).out = s.out ++ [m] := rfl
@[simp] theorem State.send_thermtrip (s : State) (m : OutMsg) : (s.send m).thermtrip = s.thermtrip := rfl
@[simp] theorem State.send_freeCtr (s : State) (m : OutMsg) : (s.send m).freeCtr = s.freeCtr := rfl

/-! ### setWord -/

@[simp] theorem State.setWord_product (s : State) (a : Nat) (v : BitVec 32) : (s.setWord a v).product = s.product := rfl
@[simp] theorem State.setWord_pending (s : State) (a : Nat) (v : BitVec 32) : (s.setWord a v).pending = s.pending := rfl
@[simp] theorem State.setWord_active (s : State) (a : Nat) (v : BitVec 32) : (s.setWord a v).active = s.active := rfl
@[simp] theorem State.setWord_masters (s : State) (a : Nat) (v : BitVec 32) : (s.setWord a v).masters = s.masters := rfl
@[simp] theorem State.setWord_adm (s : State) (a : Nat) (v : BitVec 32) : (s.setWord a v).adm = s.adm := rfl
@[simp] theorem State.setWord_slots (s : State) (a : Nat) (v : BitVec 32) : (s.setWord a v).slots = s.slots := rfl
@[simp] theorem State.setWord_egr (s : State) (a : Nat) (v : BitVec 32) : (s.setWord a v).egr = s.egr := rfl
@[simp] theorem State.setWord_tal (s : State) (a : Nat) (v : BitVec 32) : (s.setWord a v).tal = s.tal := rfl
@[simp] theorem State.setWord_beat (s : State) (a : Nat) (v : BitVec 32) : (s.setWord a v).beat = s.beat := rfl
@[simp] theorem State.setWord_plats (s : State) (a : Nat) (v : BitVec 32) : (s.setWord a v).plats = s.plats := rfl
@[simp] theorem State.setWord_fo (s : State) (a : Nat) (v : BitVec 32) : (s.setWord a v).fo = s.fo := rfl
@[simp] theorem State.setWord_mem (s : State) (a : Nat) (v : BitVec 32) : (s.setWord a v).mem = s.mem := rfl
@[simp] theorem State.setWord_claims (s : State) (a : Nat) (v : BitVec 32) : (s.setWord a v).claims = s.claims := rfl
@[simp] theorem State.setWord_l2 (s : State) (a : Nat) (v : BitVec 32) : (s.setWord a v).l2 = s.l2 := rfl
@[simp] theorem State.setWord_tlb (s : State) (a : Nat) (v : BitVec 32) : (s.setWord a v).tlb = s.tlb := rfl
@[simp] theorem State.setWord_walks (s : State) (a : Nat) (v : BitVec 32) : (s.setWord a v).walks = s.walks := rfl
@[simp] theorem State.setWord_mmu (s : State) (a : Nat) (v : BitVec 32) : (s.setWord a v).mmu = s.mmu := rfl
@[simp] theorem State.setWord_clus (s : State) (a : Nat) (v : BitVec 32) : (s.setWord a v).clus = s.clus := rfl
@[simp] theorem State.setWord_adit (s : State) (a : Nat) (v : BitVec 32) : (s.setWord a v).adit = s.adit := rfl
@[simp] theorem State.setWord_asy (s : State) (a : Nat) (v : BitVec 32) : (s.setWord a v).asy = s.asy := rfl
@[simp] theorem State.setWord_net (s : State) (a : Nat) (v : BitVec 32) : (s.setWord a v).net = s.net := rfl
@[simp] theorem State.setWord_pwr (s : State) (a : Nat) (v : BitVec 32) : (s.setWord a v).pwr = s.pwr := rfl
@[simp] theorem State.setWord_evt (s : State) (a : Nat) (v : BitVec 32) : (s.setWord a v).evt = s.evt := rfl
@[simp] theorem State.setWord_msix (s : State) (a : Nat) (v : BitVec 32) : (s.setWord a v).msix = s.msix := rfl
@[simp] theorem State.setWord_dma (s : State) (a : Nat) (v : BitVec 32) : (s.setWord a v).dma = s.dma := rfl
@[simp] theorem State.setWord_early (s : State) (a : Nat) (v : BitVec 32) : (s.setWord a v).early = s.early := rfl
@[simp] theorem State.setWord_hostMem (s : State) (a : Nat) (v : BitVec 32) : (s.setWord a v).hostMem = s.hostMem := rfl
@[simp] theorem State.setWord_hostErr (s : State) (a : Nat) (v : BitVec 32) : (s.setWord a v).hostErr = s.hostErr := rfl
@[simp] theorem State.setWord_win (s : State) (a : Nat) (v : BitVec 32) : (s.setWord a v).win = s.win := rfl
@[simp] theorem State.setWord_boot (s : State) (a : Nat) (v : BitVec 32) : (s.setWord a v).boot = s.boot := rfl
@[simp] theorem State.setWord_fuses (s : State) (a : Nat) (v : BitVec 32) : (s.setWord a v).fuses = s.fuses := rfl
@[simp] theorem State.setWord_dbg (s : State) (a : Nat) (v : BitVec 32) : (s.setWord a v).dbg = s.dbg := rfl
@[simp] theorem State.setWord_pins (s : State) (a : Nat) (v : BitVec 32) : (s.setWord a v).pins = s.pins := rfl
@[simp] theorem State.setWord_ucieLost (s : State) (a : Nat) (v : BitVec 32) : (s.setWord a v).ucieLost = s.ucieLost := rfl
@[simp] theorem State.setWord_out (s : State) (a : Nat) (v : BitVec 32) : (s.setWord a v).out = s.out := rfl
@[simp] theorem State.setWord_thermtrip (s : State) (a : Nat) (v : BitVec 32) : (s.setWord a v).thermtrip = s.thermtrip := rfl
@[simp] theorem State.setWord_freeCtr (s : State) (a : Nat) (v : BitVec 32) : (s.setWord a v).freeCtr = s.freeCtr := rfl

/-! ### setFld -/

/-- What storing a word leaves, writing a field leaves. -/
theorem State.setFld_frame {α : Type} (P : State → α) (hp : ∀ t a v, P (State.setWord t a v) = P t) (s : State) (f : Fld) (v : Nat) :
    P (s.setFld f v) = P s := by
  unfold State.setFld
  by_cases h : f.lo + f.w ≤ 32
  · rw [if_pos h, hp]
  · rw [if_neg h]
    exact (hp _ _ _).trans (hp _ _ _)

@[simp] theorem State.setFld_product (s : State) (f : Fld) (v : Nat) : (s.setFld f v).product = s.product :=
  State.setFld_frame State.product State.setWord_product s f v
@[simp] theorem State.setFld_pending (s : State) (f : Fld) (v : Nat) : (s.setFld f v).pending = s.pending :=
  State.setFld_frame State.pending State.setWord_pending s f v
@[simp] theorem State.setFld_active (s : State) (f : Fld) (v : Nat) : (s.setFld f v).active = s.active :=
  State.setFld_frame State.active State.setWord_active s f v
@[simp] theorem State.setFld_masters (s : State) (f : Fld) (v : Nat) : (s.setFld f v).masters = s.masters :=
  State.setFld_frame State.masters State.setWord_masters s f v
@[simp] theorem State.setFld_adm (s : State) (f : Fld) (v : Nat) : (s.setFld f v).adm = s.adm :=
  State.setFld_frame State.adm State.setWord_adm s f v
@[simp] theorem State.setFld_slots (s : State) (f : Fld) (v : Nat) : (s.setFld f v).slots = s.slots :=
  State.setFld_frame State.slots State.setWord_slots s f v
@[simp] theorem State.setFld_egr (s : State) (f : Fld) (v : Nat) : (s.setFld f v).egr = s.egr :=
  State.setFld_frame State.egr State.setWord_egr s f v
@[simp] theorem State.setFld_tal (s : State) (f : Fld) (v : Nat) : (s.setFld f v).tal = s.tal :=
  State.setFld_frame State.tal State.setWord_tal s f v
@[simp] theorem State.setFld_beat (s : State) (f : Fld) (v : Nat) : (s.setFld f v).beat = s.beat :=
  State.setFld_frame State.beat State.setWord_beat s f v
@[simp] theorem State.setFld_plats (s : State) (f : Fld) (v : Nat) : (s.setFld f v).plats = s.plats :=
  State.setFld_frame State.plats State.setWord_plats s f v
@[simp] theorem State.setFld_fo (s : State) (f : Fld) (v : Nat) : (s.setFld f v).fo = s.fo :=
  State.setFld_frame State.fo State.setWord_fo s f v
@[simp] theorem State.setFld_mem (s : State) (f : Fld) (v : Nat) : (s.setFld f v).mem = s.mem :=
  State.setFld_frame State.mem State.setWord_mem s f v
@[simp] theorem State.setFld_claims (s : State) (f : Fld) (v : Nat) : (s.setFld f v).claims = s.claims :=
  State.setFld_frame State.claims State.setWord_claims s f v
@[simp] theorem State.setFld_l2 (s : State) (f : Fld) (v : Nat) : (s.setFld f v).l2 = s.l2 :=
  State.setFld_frame State.l2 State.setWord_l2 s f v
@[simp] theorem State.setFld_tlb (s : State) (f : Fld) (v : Nat) : (s.setFld f v).tlb = s.tlb :=
  State.setFld_frame State.tlb State.setWord_tlb s f v
@[simp] theorem State.setFld_walks (s : State) (f : Fld) (v : Nat) : (s.setFld f v).walks = s.walks :=
  State.setFld_frame State.walks State.setWord_walks s f v
@[simp] theorem State.setFld_mmu (s : State) (f : Fld) (v : Nat) : (s.setFld f v).mmu = s.mmu :=
  State.setFld_frame State.mmu State.setWord_mmu s f v
@[simp] theorem State.setFld_clus (s : State) (f : Fld) (v : Nat) : (s.setFld f v).clus = s.clus :=
  State.setFld_frame State.clus State.setWord_clus s f v
@[simp] theorem State.setFld_adit (s : State) (f : Fld) (v : Nat) : (s.setFld f v).adit = s.adit :=
  State.setFld_frame State.adit State.setWord_adit s f v
@[simp] theorem State.setFld_asy (s : State) (f : Fld) (v : Nat) : (s.setFld f v).asy = s.asy :=
  State.setFld_frame State.asy State.setWord_asy s f v
@[simp] theorem State.setFld_net (s : State) (f : Fld) (v : Nat) : (s.setFld f v).net = s.net :=
  State.setFld_frame State.net State.setWord_net s f v
@[simp] theorem State.setFld_pwr (s : State) (f : Fld) (v : Nat) : (s.setFld f v).pwr = s.pwr :=
  State.setFld_frame State.pwr State.setWord_pwr s f v
@[simp] theorem State.setFld_evt (s : State) (f : Fld) (v : Nat) : (s.setFld f v).evt = s.evt :=
  State.setFld_frame State.evt State.setWord_evt s f v
@[simp] theorem State.setFld_msix (s : State) (f : Fld) (v : Nat) : (s.setFld f v).msix = s.msix :=
  State.setFld_frame State.msix State.setWord_msix s f v
@[simp] theorem State.setFld_dma (s : State) (f : Fld) (v : Nat) : (s.setFld f v).dma = s.dma :=
  State.setFld_frame State.dma State.setWord_dma s f v
@[simp] theorem State.setFld_early (s : State) (f : Fld) (v : Nat) : (s.setFld f v).early = s.early :=
  State.setFld_frame State.early State.setWord_early s f v
@[simp] theorem State.setFld_hostMem (s : State) (f : Fld) (v : Nat) : (s.setFld f v).hostMem = s.hostMem :=
  State.setFld_frame State.hostMem State.setWord_hostMem s f v
@[simp] theorem State.setFld_hostErr (s : State) (f : Fld) (v : Nat) : (s.setFld f v).hostErr = s.hostErr :=
  State.setFld_frame State.hostErr State.setWord_hostErr s f v
@[simp] theorem State.setFld_win (s : State) (f : Fld) (v : Nat) : (s.setFld f v).win = s.win :=
  State.setFld_frame State.win State.setWord_win s f v
@[simp] theorem State.setFld_boot (s : State) (f : Fld) (v : Nat) : (s.setFld f v).boot = s.boot :=
  State.setFld_frame State.boot State.setWord_boot s f v
@[simp] theorem State.setFld_fuses (s : State) (f : Fld) (v : Nat) : (s.setFld f v).fuses = s.fuses :=
  State.setFld_frame State.fuses State.setWord_fuses s f v
@[simp] theorem State.setFld_dbg (s : State) (f : Fld) (v : Nat) : (s.setFld f v).dbg = s.dbg :=
  State.setFld_frame State.dbg State.setWord_dbg s f v
@[simp] theorem State.setFld_pins (s : State) (f : Fld) (v : Nat) : (s.setFld f v).pins = s.pins :=
  State.setFld_frame State.pins State.setWord_pins s f v
@[simp] theorem State.setFld_ucieLost (s : State) (f : Fld) (v : Nat) : (s.setFld f v).ucieLost = s.ucieLost :=
  State.setFld_frame State.ucieLost State.setWord_ucieLost s f v
@[simp] theorem State.setFld_out (s : State) (f : Fld) (v : Nat) : (s.setFld f v).out = s.out :=
  State.setFld_frame State.out State.setWord_out s f v
@[simp] theorem State.setFld_thermtrip (s : State) (f : Fld) (v : Nat) : (s.setFld f v).thermtrip = s.thermtrip :=
  State.setFld_frame State.thermtrip State.setWord_thermtrip s f v
@[simp] theorem State.setFld_freeCtr (s : State) (f : Fld) (v : Nat) : (s.setFld f v).freeCtr = s.freeCtr :=
  State.setFld_frame State.freeCtr State.setWord_freeCtr s f v

/-! ### setFlag -/

@[simp] theorem State.setFlag_product (s : State) (f : Fld) (b : Bool) : (s.setFlag f b).product = s.product := by
  rw [State.setFlag, State.setFld_product]
@[simp] theorem State.setFlag_pending (s : State) (f : Fld) (b : Bool) : (s.setFlag f b).pending = s.pending := by
  rw [State.setFlag, State.setFld_pending]
@[simp] theorem State.setFlag_active (s : State) (f : Fld) (b : Bool) : (s.setFlag f b).active = s.active := by
  rw [State.setFlag, State.setFld_active]
@[simp] theorem State.setFlag_masters (s : State) (f : Fld) (b : Bool) : (s.setFlag f b).masters = s.masters := by
  rw [State.setFlag, State.setFld_masters]
@[simp] theorem State.setFlag_adm (s : State) (f : Fld) (b : Bool) : (s.setFlag f b).adm = s.adm := by
  rw [State.setFlag, State.setFld_adm]
@[simp] theorem State.setFlag_slots (s : State) (f : Fld) (b : Bool) : (s.setFlag f b).slots = s.slots := by
  rw [State.setFlag, State.setFld_slots]
@[simp] theorem State.setFlag_egr (s : State) (f : Fld) (b : Bool) : (s.setFlag f b).egr = s.egr := by
  rw [State.setFlag, State.setFld_egr]
@[simp] theorem State.setFlag_tal (s : State) (f : Fld) (b : Bool) : (s.setFlag f b).tal = s.tal := by
  rw [State.setFlag, State.setFld_tal]
@[simp] theorem State.setFlag_beat (s : State) (f : Fld) (b : Bool) : (s.setFlag f b).beat = s.beat := by
  rw [State.setFlag, State.setFld_beat]
@[simp] theorem State.setFlag_plats (s : State) (f : Fld) (b : Bool) : (s.setFlag f b).plats = s.plats := by
  rw [State.setFlag, State.setFld_plats]
@[simp] theorem State.setFlag_fo (s : State) (f : Fld) (b : Bool) : (s.setFlag f b).fo = s.fo := by
  rw [State.setFlag, State.setFld_fo]
@[simp] theorem State.setFlag_mem (s : State) (f : Fld) (b : Bool) : (s.setFlag f b).mem = s.mem := by
  rw [State.setFlag, State.setFld_mem]
@[simp] theorem State.setFlag_claims (s : State) (f : Fld) (b : Bool) : (s.setFlag f b).claims = s.claims := by
  rw [State.setFlag, State.setFld_claims]
@[simp] theorem State.setFlag_l2 (s : State) (f : Fld) (b : Bool) : (s.setFlag f b).l2 = s.l2 := by
  rw [State.setFlag, State.setFld_l2]
@[simp] theorem State.setFlag_tlb (s : State) (f : Fld) (b : Bool) : (s.setFlag f b).tlb = s.tlb := by
  rw [State.setFlag, State.setFld_tlb]
@[simp] theorem State.setFlag_walks (s : State) (f : Fld) (b : Bool) : (s.setFlag f b).walks = s.walks := by
  rw [State.setFlag, State.setFld_walks]
@[simp] theorem State.setFlag_mmu (s : State) (f : Fld) (b : Bool) : (s.setFlag f b).mmu = s.mmu := by
  rw [State.setFlag, State.setFld_mmu]
@[simp] theorem State.setFlag_clus (s : State) (f : Fld) (b : Bool) : (s.setFlag f b).clus = s.clus := by
  rw [State.setFlag, State.setFld_clus]
@[simp] theorem State.setFlag_adit (s : State) (f : Fld) (b : Bool) : (s.setFlag f b).adit = s.adit := by
  rw [State.setFlag, State.setFld_adit]
@[simp] theorem State.setFlag_asy (s : State) (f : Fld) (b : Bool) : (s.setFlag f b).asy = s.asy := by
  rw [State.setFlag, State.setFld_asy]
@[simp] theorem State.setFlag_net (s : State) (f : Fld) (b : Bool) : (s.setFlag f b).net = s.net := by
  rw [State.setFlag, State.setFld_net]
@[simp] theorem State.setFlag_pwr (s : State) (f : Fld) (b : Bool) : (s.setFlag f b).pwr = s.pwr := by
  rw [State.setFlag, State.setFld_pwr]
@[simp] theorem State.setFlag_evt (s : State) (f : Fld) (b : Bool) : (s.setFlag f b).evt = s.evt := by
  rw [State.setFlag, State.setFld_evt]
@[simp] theorem State.setFlag_msix (s : State) (f : Fld) (b : Bool) : (s.setFlag f b).msix = s.msix := by
  rw [State.setFlag, State.setFld_msix]
@[simp] theorem State.setFlag_dma (s : State) (f : Fld) (b : Bool) : (s.setFlag f b).dma = s.dma := by
  rw [State.setFlag, State.setFld_dma]
@[simp] theorem State.setFlag_early (s : State) (f : Fld) (b : Bool) : (s.setFlag f b).early = s.early := by
  rw [State.setFlag, State.setFld_early]
@[simp] theorem State.setFlag_hostMem (s : State) (f : Fld) (b : Bool) : (s.setFlag f b).hostMem = s.hostMem := by
  rw [State.setFlag, State.setFld_hostMem]
@[simp] theorem State.setFlag_hostErr (s : State) (f : Fld) (b : Bool) : (s.setFlag f b).hostErr = s.hostErr := by
  rw [State.setFlag, State.setFld_hostErr]
@[simp] theorem State.setFlag_win (s : State) (f : Fld) (b : Bool) : (s.setFlag f b).win = s.win := by
  rw [State.setFlag, State.setFld_win]
@[simp] theorem State.setFlag_boot (s : State) (f : Fld) (b : Bool) : (s.setFlag f b).boot = s.boot := by
  rw [State.setFlag, State.setFld_boot]
@[simp] theorem State.setFlag_fuses (s : State) (f : Fld) (b : Bool) : (s.setFlag f b).fuses = s.fuses := by
  rw [State.setFlag, State.setFld_fuses]
@[simp] theorem State.setFlag_dbg (s : State) (f : Fld) (b : Bool) : (s.setFlag f b).dbg = s.dbg := by
  rw [State.setFlag, State.setFld_dbg]
@[simp] theorem State.setFlag_pins (s : State) (f : Fld) (b : Bool) : (s.setFlag f b).pins = s.pins := by
  rw [State.setFlag, State.setFld_pins]
@[simp] theorem State.setFlag_ucieLost (s : State) (f : Fld) (b : Bool) : (s.setFlag f b).ucieLost = s.ucieLost := by
  rw [State.setFlag, State.setFld_ucieLost]
@[simp] theorem State.setFlag_out (s : State) (f : Fld) (b : Bool) : (s.setFlag f b).out = s.out := by
  rw [State.setFlag, State.setFld_out]
@[simp] theorem State.setFlag_thermtrip (s : State) (f : Fld) (b : Bool) : (s.setFlag f b).thermtrip = s.thermtrip := by
  rw [State.setFlag, State.setFld_thermtrip]
@[simp] theorem State.setFlag_freeCtr (s : State) (f : Fld) (b : Bool) : (s.setFlag f b).freeCtr = s.freeCtr := by
  rw [State.setFlag, State.setFld_freeCtr]

/-! ### countUp -/

@[simp] theorem State.countUp_product (s : State) (f : Fld) : (s.countUp f).product = s.product := by
  rw [State.countUp, State.setFld_product]
@[simp] theorem State.countUp_pending (s : State) (f : Fld) : (s.countUp f).pending = s.pending := by
  rw [State.countUp, State.setFld_pending]
@[simp] theorem State.countUp_active (s : State) (f : Fld) : (s.countUp f).active = s.active := by
  rw [State.countUp, State.setFld_active]
@[simp] theorem State.countUp_masters (s : State) (f : Fld) : (s.countUp f).masters = s.masters := by
  rw [State.countUp, State.setFld_masters]
@[simp] theorem State.countUp_adm (s : State) (f : Fld) : (s.countUp f).adm = s.adm := by
  rw [State.countUp, State.setFld_adm]
@[simp] theorem State.countUp_slots (s : State) (f : Fld) : (s.countUp f).slots = s.slots := by
  rw [State.countUp, State.setFld_slots]
@[simp] theorem State.countUp_egr (s : State) (f : Fld) : (s.countUp f).egr = s.egr := by
  rw [State.countUp, State.setFld_egr]
@[simp] theorem State.countUp_tal (s : State) (f : Fld) : (s.countUp f).tal = s.tal := by
  rw [State.countUp, State.setFld_tal]
@[simp] theorem State.countUp_beat (s : State) (f : Fld) : (s.countUp f).beat = s.beat := by
  rw [State.countUp, State.setFld_beat]
@[simp] theorem State.countUp_plats (s : State) (f : Fld) : (s.countUp f).plats = s.plats := by
  rw [State.countUp, State.setFld_plats]
@[simp] theorem State.countUp_fo (s : State) (f : Fld) : (s.countUp f).fo = s.fo := by
  rw [State.countUp, State.setFld_fo]
@[simp] theorem State.countUp_mem (s : State) (f : Fld) : (s.countUp f).mem = s.mem := by
  rw [State.countUp, State.setFld_mem]
@[simp] theorem State.countUp_claims (s : State) (f : Fld) : (s.countUp f).claims = s.claims := by
  rw [State.countUp, State.setFld_claims]
@[simp] theorem State.countUp_l2 (s : State) (f : Fld) : (s.countUp f).l2 = s.l2 := by
  rw [State.countUp, State.setFld_l2]
@[simp] theorem State.countUp_tlb (s : State) (f : Fld) : (s.countUp f).tlb = s.tlb := by
  rw [State.countUp, State.setFld_tlb]
@[simp] theorem State.countUp_walks (s : State) (f : Fld) : (s.countUp f).walks = s.walks := by
  rw [State.countUp, State.setFld_walks]
@[simp] theorem State.countUp_mmu (s : State) (f : Fld) : (s.countUp f).mmu = s.mmu := by
  rw [State.countUp, State.setFld_mmu]
@[simp] theorem State.countUp_clus (s : State) (f : Fld) : (s.countUp f).clus = s.clus := by
  rw [State.countUp, State.setFld_clus]
@[simp] theorem State.countUp_adit (s : State) (f : Fld) : (s.countUp f).adit = s.adit := by
  rw [State.countUp, State.setFld_adit]
@[simp] theorem State.countUp_asy (s : State) (f : Fld) : (s.countUp f).asy = s.asy := by
  rw [State.countUp, State.setFld_asy]
@[simp] theorem State.countUp_net (s : State) (f : Fld) : (s.countUp f).net = s.net := by
  rw [State.countUp, State.setFld_net]
@[simp] theorem State.countUp_pwr (s : State) (f : Fld) : (s.countUp f).pwr = s.pwr := by
  rw [State.countUp, State.setFld_pwr]
@[simp] theorem State.countUp_evt (s : State) (f : Fld) : (s.countUp f).evt = s.evt := by
  rw [State.countUp, State.setFld_evt]
@[simp] theorem State.countUp_msix (s : State) (f : Fld) : (s.countUp f).msix = s.msix := by
  rw [State.countUp, State.setFld_msix]
@[simp] theorem State.countUp_dma (s : State) (f : Fld) : (s.countUp f).dma = s.dma := by
  rw [State.countUp, State.setFld_dma]
@[simp] theorem State.countUp_early (s : State) (f : Fld) : (s.countUp f).early = s.early := by
  rw [State.countUp, State.setFld_early]
@[simp] theorem State.countUp_hostMem (s : State) (f : Fld) : (s.countUp f).hostMem = s.hostMem := by
  rw [State.countUp, State.setFld_hostMem]
@[simp] theorem State.countUp_hostErr (s : State) (f : Fld) : (s.countUp f).hostErr = s.hostErr := by
  rw [State.countUp, State.setFld_hostErr]
@[simp] theorem State.countUp_win (s : State) (f : Fld) : (s.countUp f).win = s.win := by
  rw [State.countUp, State.setFld_win]
@[simp] theorem State.countUp_boot (s : State) (f : Fld) : (s.countUp f).boot = s.boot := by
  rw [State.countUp, State.setFld_boot]
@[simp] theorem State.countUp_fuses (s : State) (f : Fld) : (s.countUp f).fuses = s.fuses := by
  rw [State.countUp, State.setFld_fuses]
@[simp] theorem State.countUp_dbg (s : State) (f : Fld) : (s.countUp f).dbg = s.dbg := by
  rw [State.countUp, State.setFld_dbg]
@[simp] theorem State.countUp_pins (s : State) (f : Fld) : (s.countUp f).pins = s.pins := by
  rw [State.countUp, State.setFld_pins]
@[simp] theorem State.countUp_ucieLost (s : State) (f : Fld) : (s.countUp f).ucieLost = s.ucieLost := by
  rw [State.countUp, State.setFld_ucieLost]
@[simp] theorem State.countUp_out (s : State) (f : Fld) : (s.countUp f).out = s.out := by
  rw [State.countUp, State.setFld_out]
@[simp] theorem State.countUp_thermtrip (s : State) (f : Fld) : (s.countUp f).thermtrip = s.thermtrip := by
  rw [State.countUp, State.setFld_thermtrip]
@[simp] theorem State.countUp_freeCtr (s : State) (f : Fld) : (s.countUp f).freeCtr = s.freeCtr := by
  rw [State.countUp, State.setFld_freeCtr]

/-! ### countBy -/

@[simp] theorem State.countBy_product (s : State) (f : Fld) (n : Nat) : (s.countBy f n).product = s.product := by
  rw [State.countBy, State.setFld_product]
@[simp] theorem State.countBy_pending (s : State) (f : Fld) (n : Nat) : (s.countBy f n).pending = s.pending := by
  rw [State.countBy, State.setFld_pending]
@[simp] theorem State.countBy_active (s : State) (f : Fld) (n : Nat) : (s.countBy f n).active = s.active := by
  rw [State.countBy, State.setFld_active]
@[simp] theorem State.countBy_masters (s : State) (f : Fld) (n : Nat) : (s.countBy f n).masters = s.masters := by
  rw [State.countBy, State.setFld_masters]
@[simp] theorem State.countBy_adm (s : State) (f : Fld) (n : Nat) : (s.countBy f n).adm = s.adm := by
  rw [State.countBy, State.setFld_adm]
@[simp] theorem State.countBy_slots (s : State) (f : Fld) (n : Nat) : (s.countBy f n).slots = s.slots := by
  rw [State.countBy, State.setFld_slots]
@[simp] theorem State.countBy_egr (s : State) (f : Fld) (n : Nat) : (s.countBy f n).egr = s.egr := by
  rw [State.countBy, State.setFld_egr]
@[simp] theorem State.countBy_tal (s : State) (f : Fld) (n : Nat) : (s.countBy f n).tal = s.tal := by
  rw [State.countBy, State.setFld_tal]
@[simp] theorem State.countBy_beat (s : State) (f : Fld) (n : Nat) : (s.countBy f n).beat = s.beat := by
  rw [State.countBy, State.setFld_beat]
@[simp] theorem State.countBy_plats (s : State) (f : Fld) (n : Nat) : (s.countBy f n).plats = s.plats := by
  rw [State.countBy, State.setFld_plats]
@[simp] theorem State.countBy_fo (s : State) (f : Fld) (n : Nat) : (s.countBy f n).fo = s.fo := by
  rw [State.countBy, State.setFld_fo]
@[simp] theorem State.countBy_mem (s : State) (f : Fld) (n : Nat) : (s.countBy f n).mem = s.mem := by
  rw [State.countBy, State.setFld_mem]
@[simp] theorem State.countBy_claims (s : State) (f : Fld) (n : Nat) : (s.countBy f n).claims = s.claims := by
  rw [State.countBy, State.setFld_claims]
@[simp] theorem State.countBy_l2 (s : State) (f : Fld) (n : Nat) : (s.countBy f n).l2 = s.l2 := by
  rw [State.countBy, State.setFld_l2]
@[simp] theorem State.countBy_tlb (s : State) (f : Fld) (n : Nat) : (s.countBy f n).tlb = s.tlb := by
  rw [State.countBy, State.setFld_tlb]
@[simp] theorem State.countBy_walks (s : State) (f : Fld) (n : Nat) : (s.countBy f n).walks = s.walks := by
  rw [State.countBy, State.setFld_walks]
@[simp] theorem State.countBy_mmu (s : State) (f : Fld) (n : Nat) : (s.countBy f n).mmu = s.mmu := by
  rw [State.countBy, State.setFld_mmu]
@[simp] theorem State.countBy_clus (s : State) (f : Fld) (n : Nat) : (s.countBy f n).clus = s.clus := by
  rw [State.countBy, State.setFld_clus]
@[simp] theorem State.countBy_adit (s : State) (f : Fld) (n : Nat) : (s.countBy f n).adit = s.adit := by
  rw [State.countBy, State.setFld_adit]
@[simp] theorem State.countBy_asy (s : State) (f : Fld) (n : Nat) : (s.countBy f n).asy = s.asy := by
  rw [State.countBy, State.setFld_asy]
@[simp] theorem State.countBy_net (s : State) (f : Fld) (n : Nat) : (s.countBy f n).net = s.net := by
  rw [State.countBy, State.setFld_net]
@[simp] theorem State.countBy_pwr (s : State) (f : Fld) (n : Nat) : (s.countBy f n).pwr = s.pwr := by
  rw [State.countBy, State.setFld_pwr]
@[simp] theorem State.countBy_evt (s : State) (f : Fld) (n : Nat) : (s.countBy f n).evt = s.evt := by
  rw [State.countBy, State.setFld_evt]
@[simp] theorem State.countBy_msix (s : State) (f : Fld) (n : Nat) : (s.countBy f n).msix = s.msix := by
  rw [State.countBy, State.setFld_msix]
@[simp] theorem State.countBy_dma (s : State) (f : Fld) (n : Nat) : (s.countBy f n).dma = s.dma := by
  rw [State.countBy, State.setFld_dma]
@[simp] theorem State.countBy_early (s : State) (f : Fld) (n : Nat) : (s.countBy f n).early = s.early := by
  rw [State.countBy, State.setFld_early]
@[simp] theorem State.countBy_hostMem (s : State) (f : Fld) (n : Nat) : (s.countBy f n).hostMem = s.hostMem := by
  rw [State.countBy, State.setFld_hostMem]
@[simp] theorem State.countBy_hostErr (s : State) (f : Fld) (n : Nat) : (s.countBy f n).hostErr = s.hostErr := by
  rw [State.countBy, State.setFld_hostErr]
@[simp] theorem State.countBy_win (s : State) (f : Fld) (n : Nat) : (s.countBy f n).win = s.win := by
  rw [State.countBy, State.setFld_win]
@[simp] theorem State.countBy_boot (s : State) (f : Fld) (n : Nat) : (s.countBy f n).boot = s.boot := by
  rw [State.countBy, State.setFld_boot]
@[simp] theorem State.countBy_fuses (s : State) (f : Fld) (n : Nat) : (s.countBy f n).fuses = s.fuses := by
  rw [State.countBy, State.setFld_fuses]
@[simp] theorem State.countBy_dbg (s : State) (f : Fld) (n : Nat) : (s.countBy f n).dbg = s.dbg := by
  rw [State.countBy, State.setFld_dbg]
@[simp] theorem State.countBy_pins (s : State) (f : Fld) (n : Nat) : (s.countBy f n).pins = s.pins := by
  rw [State.countBy, State.setFld_pins]
@[simp] theorem State.countBy_ucieLost (s : State) (f : Fld) (n : Nat) : (s.countBy f n).ucieLost = s.ucieLost := by
  rw [State.countBy, State.setFld_ucieLost]
@[simp] theorem State.countBy_out (s : State) (f : Fld) (n : Nat) : (s.countBy f n).out = s.out := by
  rw [State.countBy, State.setFld_out]
@[simp] theorem State.countBy_thermtrip (s : State) (f : Fld) (n : Nat) : (s.countBy f n).thermtrip = s.thermtrip := by
  rw [State.countBy, State.setFld_thermtrip]
@[simp] theorem State.countBy_freeCtr (s : State) (f : Fld) (n : Nat) : (s.countBy f n).freeCtr = s.freeCtr := by
  rw [State.countBy, State.setFld_freeCtr]

/-! ### countSat -/

@[simp] theorem State.countSat_product (s : State) (f : Fld) : (s.countSat f).product = s.product := by
  rw [State.countSat, State.setFld_product]
@[simp] theorem State.countSat_pending (s : State) (f : Fld) : (s.countSat f).pending = s.pending := by
  rw [State.countSat, State.setFld_pending]
@[simp] theorem State.countSat_active (s : State) (f : Fld) : (s.countSat f).active = s.active := by
  rw [State.countSat, State.setFld_active]
@[simp] theorem State.countSat_masters (s : State) (f : Fld) : (s.countSat f).masters = s.masters := by
  rw [State.countSat, State.setFld_masters]
@[simp] theorem State.countSat_adm (s : State) (f : Fld) : (s.countSat f).adm = s.adm := by
  rw [State.countSat, State.setFld_adm]
@[simp] theorem State.countSat_slots (s : State) (f : Fld) : (s.countSat f).slots = s.slots := by
  rw [State.countSat, State.setFld_slots]
@[simp] theorem State.countSat_egr (s : State) (f : Fld) : (s.countSat f).egr = s.egr := by
  rw [State.countSat, State.setFld_egr]
@[simp] theorem State.countSat_tal (s : State) (f : Fld) : (s.countSat f).tal = s.tal := by
  rw [State.countSat, State.setFld_tal]
@[simp] theorem State.countSat_beat (s : State) (f : Fld) : (s.countSat f).beat = s.beat := by
  rw [State.countSat, State.setFld_beat]
@[simp] theorem State.countSat_plats (s : State) (f : Fld) : (s.countSat f).plats = s.plats := by
  rw [State.countSat, State.setFld_plats]
@[simp] theorem State.countSat_fo (s : State) (f : Fld) : (s.countSat f).fo = s.fo := by
  rw [State.countSat, State.setFld_fo]
@[simp] theorem State.countSat_mem (s : State) (f : Fld) : (s.countSat f).mem = s.mem := by
  rw [State.countSat, State.setFld_mem]
@[simp] theorem State.countSat_claims (s : State) (f : Fld) : (s.countSat f).claims = s.claims := by
  rw [State.countSat, State.setFld_claims]
@[simp] theorem State.countSat_l2 (s : State) (f : Fld) : (s.countSat f).l2 = s.l2 := by
  rw [State.countSat, State.setFld_l2]
@[simp] theorem State.countSat_tlb (s : State) (f : Fld) : (s.countSat f).tlb = s.tlb := by
  rw [State.countSat, State.setFld_tlb]
@[simp] theorem State.countSat_walks (s : State) (f : Fld) : (s.countSat f).walks = s.walks := by
  rw [State.countSat, State.setFld_walks]
@[simp] theorem State.countSat_mmu (s : State) (f : Fld) : (s.countSat f).mmu = s.mmu := by
  rw [State.countSat, State.setFld_mmu]
@[simp] theorem State.countSat_clus (s : State) (f : Fld) : (s.countSat f).clus = s.clus := by
  rw [State.countSat, State.setFld_clus]
@[simp] theorem State.countSat_adit (s : State) (f : Fld) : (s.countSat f).adit = s.adit := by
  rw [State.countSat, State.setFld_adit]
@[simp] theorem State.countSat_asy (s : State) (f : Fld) : (s.countSat f).asy = s.asy := by
  rw [State.countSat, State.setFld_asy]
@[simp] theorem State.countSat_net (s : State) (f : Fld) : (s.countSat f).net = s.net := by
  rw [State.countSat, State.setFld_net]
@[simp] theorem State.countSat_pwr (s : State) (f : Fld) : (s.countSat f).pwr = s.pwr := by
  rw [State.countSat, State.setFld_pwr]
@[simp] theorem State.countSat_evt (s : State) (f : Fld) : (s.countSat f).evt = s.evt := by
  rw [State.countSat, State.setFld_evt]
@[simp] theorem State.countSat_msix (s : State) (f : Fld) : (s.countSat f).msix = s.msix := by
  rw [State.countSat, State.setFld_msix]
@[simp] theorem State.countSat_dma (s : State) (f : Fld) : (s.countSat f).dma = s.dma := by
  rw [State.countSat, State.setFld_dma]
@[simp] theorem State.countSat_early (s : State) (f : Fld) : (s.countSat f).early = s.early := by
  rw [State.countSat, State.setFld_early]
@[simp] theorem State.countSat_hostMem (s : State) (f : Fld) : (s.countSat f).hostMem = s.hostMem := by
  rw [State.countSat, State.setFld_hostMem]
@[simp] theorem State.countSat_hostErr (s : State) (f : Fld) : (s.countSat f).hostErr = s.hostErr := by
  rw [State.countSat, State.setFld_hostErr]
@[simp] theorem State.countSat_win (s : State) (f : Fld) : (s.countSat f).win = s.win := by
  rw [State.countSat, State.setFld_win]
@[simp] theorem State.countSat_boot (s : State) (f : Fld) : (s.countSat f).boot = s.boot := by
  rw [State.countSat, State.setFld_boot]
@[simp] theorem State.countSat_fuses (s : State) (f : Fld) : (s.countSat f).fuses = s.fuses := by
  rw [State.countSat, State.setFld_fuses]
@[simp] theorem State.countSat_dbg (s : State) (f : Fld) : (s.countSat f).dbg = s.dbg := by
  rw [State.countSat, State.setFld_dbg]
@[simp] theorem State.countSat_pins (s : State) (f : Fld) : (s.countSat f).pins = s.pins := by
  rw [State.countSat, State.setFld_pins]
@[simp] theorem State.countSat_ucieLost (s : State) (f : Fld) : (s.countSat f).ucieLost = s.ucieLost := by
  rw [State.countSat, State.setFld_ucieLost]
@[simp] theorem State.countSat_out (s : State) (f : Fld) : (s.countSat f).out = s.out := by
  rw [State.countSat, State.setFld_out]
@[simp] theorem State.countSat_thermtrip (s : State) (f : Fld) : (s.countSat f).thermtrip = s.thermtrip := by
  rw [State.countSat, State.setFld_thermtrip]
@[simp] theorem State.countSat_freeCtr (s : State) (f : Fld) : (s.countSat f).freeCtr = s.freeCtr := by
  rw [State.countSat, State.setFld_freeCtr]

/-! ### setFbit -/

@[simp] theorem State.setFbit_product (s : State) (f : Fld) (i : Nat) (b : Bool) : (s.setFbit f i b).product = s.product := by
  rw [State.setFbit, State.setFld_product]
@[simp] theorem State.setFbit_pending (s : State) (f : Fld) (i : Nat) (b : Bool) : (s.setFbit f i b).pending = s.pending := by
  rw [State.setFbit, State.setFld_pending]
@[simp] theorem State.setFbit_active (s : State) (f : Fld) (i : Nat) (b : Bool) : (s.setFbit f i b).active = s.active := by
  rw [State.setFbit, State.setFld_active]
@[simp] theorem State.setFbit_masters (s : State) (f : Fld) (i : Nat) (b : Bool) : (s.setFbit f i b).masters = s.masters := by
  rw [State.setFbit, State.setFld_masters]
@[simp] theorem State.setFbit_adm (s : State) (f : Fld) (i : Nat) (b : Bool) : (s.setFbit f i b).adm = s.adm := by
  rw [State.setFbit, State.setFld_adm]
@[simp] theorem State.setFbit_slots (s : State) (f : Fld) (i : Nat) (b : Bool) : (s.setFbit f i b).slots = s.slots := by
  rw [State.setFbit, State.setFld_slots]
@[simp] theorem State.setFbit_egr (s : State) (f : Fld) (i : Nat) (b : Bool) : (s.setFbit f i b).egr = s.egr := by
  rw [State.setFbit, State.setFld_egr]
@[simp] theorem State.setFbit_tal (s : State) (f : Fld) (i : Nat) (b : Bool) : (s.setFbit f i b).tal = s.tal := by
  rw [State.setFbit, State.setFld_tal]
@[simp] theorem State.setFbit_beat (s : State) (f : Fld) (i : Nat) (b : Bool) : (s.setFbit f i b).beat = s.beat := by
  rw [State.setFbit, State.setFld_beat]
@[simp] theorem State.setFbit_plats (s : State) (f : Fld) (i : Nat) (b : Bool) : (s.setFbit f i b).plats = s.plats := by
  rw [State.setFbit, State.setFld_plats]
@[simp] theorem State.setFbit_fo (s : State) (f : Fld) (i : Nat) (b : Bool) : (s.setFbit f i b).fo = s.fo := by
  rw [State.setFbit, State.setFld_fo]
@[simp] theorem State.setFbit_mem (s : State) (f : Fld) (i : Nat) (b : Bool) : (s.setFbit f i b).mem = s.mem := by
  rw [State.setFbit, State.setFld_mem]
@[simp] theorem State.setFbit_claims (s : State) (f : Fld) (i : Nat) (b : Bool) : (s.setFbit f i b).claims = s.claims := by
  rw [State.setFbit, State.setFld_claims]
@[simp] theorem State.setFbit_l2 (s : State) (f : Fld) (i : Nat) (b : Bool) : (s.setFbit f i b).l2 = s.l2 := by
  rw [State.setFbit, State.setFld_l2]
@[simp] theorem State.setFbit_tlb (s : State) (f : Fld) (i : Nat) (b : Bool) : (s.setFbit f i b).tlb = s.tlb := by
  rw [State.setFbit, State.setFld_tlb]
@[simp] theorem State.setFbit_walks (s : State) (f : Fld) (i : Nat) (b : Bool) : (s.setFbit f i b).walks = s.walks := by
  rw [State.setFbit, State.setFld_walks]
@[simp] theorem State.setFbit_mmu (s : State) (f : Fld) (i : Nat) (b : Bool) : (s.setFbit f i b).mmu = s.mmu := by
  rw [State.setFbit, State.setFld_mmu]
@[simp] theorem State.setFbit_clus (s : State) (f : Fld) (i : Nat) (b : Bool) : (s.setFbit f i b).clus = s.clus := by
  rw [State.setFbit, State.setFld_clus]
@[simp] theorem State.setFbit_adit (s : State) (f : Fld) (i : Nat) (b : Bool) : (s.setFbit f i b).adit = s.adit := by
  rw [State.setFbit, State.setFld_adit]
@[simp] theorem State.setFbit_asy (s : State) (f : Fld) (i : Nat) (b : Bool) : (s.setFbit f i b).asy = s.asy := by
  rw [State.setFbit, State.setFld_asy]
@[simp] theorem State.setFbit_net (s : State) (f : Fld) (i : Nat) (b : Bool) : (s.setFbit f i b).net = s.net := by
  rw [State.setFbit, State.setFld_net]
@[simp] theorem State.setFbit_pwr (s : State) (f : Fld) (i : Nat) (b : Bool) : (s.setFbit f i b).pwr = s.pwr := by
  rw [State.setFbit, State.setFld_pwr]
@[simp] theorem State.setFbit_evt (s : State) (f : Fld) (i : Nat) (b : Bool) : (s.setFbit f i b).evt = s.evt := by
  rw [State.setFbit, State.setFld_evt]
@[simp] theorem State.setFbit_msix (s : State) (f : Fld) (i : Nat) (b : Bool) : (s.setFbit f i b).msix = s.msix := by
  rw [State.setFbit, State.setFld_msix]
@[simp] theorem State.setFbit_dma (s : State) (f : Fld) (i : Nat) (b : Bool) : (s.setFbit f i b).dma = s.dma := by
  rw [State.setFbit, State.setFld_dma]
@[simp] theorem State.setFbit_early (s : State) (f : Fld) (i : Nat) (b : Bool) : (s.setFbit f i b).early = s.early := by
  rw [State.setFbit, State.setFld_early]
@[simp] theorem State.setFbit_hostMem (s : State) (f : Fld) (i : Nat) (b : Bool) : (s.setFbit f i b).hostMem = s.hostMem := by
  rw [State.setFbit, State.setFld_hostMem]
@[simp] theorem State.setFbit_hostErr (s : State) (f : Fld) (i : Nat) (b : Bool) : (s.setFbit f i b).hostErr = s.hostErr := by
  rw [State.setFbit, State.setFld_hostErr]
@[simp] theorem State.setFbit_win (s : State) (f : Fld) (i : Nat) (b : Bool) : (s.setFbit f i b).win = s.win := by
  rw [State.setFbit, State.setFld_win]
@[simp] theorem State.setFbit_boot (s : State) (f : Fld) (i : Nat) (b : Bool) : (s.setFbit f i b).boot = s.boot := by
  rw [State.setFbit, State.setFld_boot]
@[simp] theorem State.setFbit_fuses (s : State) (f : Fld) (i : Nat) (b : Bool) : (s.setFbit f i b).fuses = s.fuses := by
  rw [State.setFbit, State.setFld_fuses]
@[simp] theorem State.setFbit_dbg (s : State) (f : Fld) (i : Nat) (b : Bool) : (s.setFbit f i b).dbg = s.dbg := by
  rw [State.setFbit, State.setFld_dbg]
@[simp] theorem State.setFbit_pins (s : State) (f : Fld) (i : Nat) (b : Bool) : (s.setFbit f i b).pins = s.pins := by
  rw [State.setFbit, State.setFld_pins]
@[simp] theorem State.setFbit_ucieLost (s : State) (f : Fld) (i : Nat) (b : Bool) : (s.setFbit f i b).ucieLost = s.ucieLost := by
  rw [State.setFbit, State.setFld_ucieLost]
@[simp] theorem State.setFbit_out (s : State) (f : Fld) (i : Nat) (b : Bool) : (s.setFbit f i b).out = s.out := by
  rw [State.setFbit, State.setFld_out]
@[simp] theorem State.setFbit_thermtrip (s : State) (f : Fld) (i : Nat) (b : Bool) : (s.setFbit f i b).thermtrip = s.thermtrip := by
  rw [State.setFbit, State.setFld_thermtrip]
@[simp] theorem State.setFbit_freeCtr (s : State) (f : Fld) (i : Nat) (b : Bool) : (s.setFbit f i b).freeCtr = s.freeCtr := by
  rw [State.setFbit, State.setFld_freeCtr]

end Sys2Proof.Machine
end

