-- ==== Sys2Proof/Laws/Regs.lean ====
section
/-!
SUPPORT. Laws/Regs.lean: what words, fields and per-unit records read after one of them is written.
-/
namespace Sys2Proof.Machine

/-! ### Fields of numbers -/

/-- A field reads as it was last put. -/
@[simp] theorem bitsOf_putBits_same (x lo w v : Nat) : bitsOf (putBits x lo w v) lo w = v % 2 ^ w := by
  unfold bitsOf putBits
  have h1 : x % 2 ^ lo < 2 ^ lo := Nat.mod_lt _ (by positivity)
  have h2 : x % 2 ^ lo + v % 2 ^ w * 2 ^ lo + x / 2 ^ (lo + w) * 2 ^ (lo + w) =
      x % 2 ^ lo + 2 ^ lo * (v % 2 ^ w + 2 ^ w * (x / 2 ^ (lo + w))) := by rw [pow_add]; ring
  rw [h2, Nat.add_mul_div_left _ _ (by positivity), Nat.div_eq_of_lt h1, Nat.zero_add, Nat.add_mul_mod_self_left, Nat.mod_mod]

/-- Bit `i` of a number with a field replaced. -/
theorem testBit_putBits (x lo w v i : Nat) :
    (putBits x lo w v).testBit i = if lo ≤ i ∧ i < lo + w then v.testBit (i - lo) else x.testBit i := by
  have h1 : x % 2 ^ lo < 2 ^ lo := Nat.mod_lt _ (by positivity)
  have h2 : v % 2 ^ w < 2 ^ w := Nat.mod_lt _ (by positivity)
  have h3 : putBits x lo w v = 2 ^ lo * (2 ^ w * (x / 2 ^ (lo + w)) + v % 2 ^ w) + x % 2 ^ lo := by
    unfold putBits
    rw [pow_add]
    ring
  rw [h3, Nat.testBit_two_pow_mul_add _ h1]
  by_cases hl : i < lo
  · simp [hl, Nat.testBit_mod_two_pow, Nat.not_le.2 hl]
  · rw [if_neg hl, Nat.testBit_two_pow_mul_add _ h2]
    by_cases hw : i - lo < w
    · have : lo ≤ i ∧ i < lo + w := by omega
      simp [hw, this, Nat.testBit_mod_two_pow]
    · have : ¬(lo ≤ i ∧ i < lo + w) := by omega
      rw [if_neg hw, if_neg this, ← Nat.shiftRight_eq_div_pow, Nat.testBit_shiftRight]
      congr 1
      omega

/-- Putting a field leaves every field apart from it. -/
theorem bitsOf_putBits_apart (x lo w v lo' w' : Nat) (h : lo' + w' ≤ lo ∨ lo + w ≤ lo') :
    bitsOf (putBits x lo w v) lo' w' = bitsOf x lo' w' := by
  apply Nat.eq_of_testBit_eq
  intro i
  unfold bitsOf
  rw [Nat.testBit_mod_two_pow, Nat.testBit_mod_two_pow, ← Nat.shiftRight_eq_div_pow, ← Nat.shiftRight_eq_div_pow,
    Nat.testBit_shiftRight, Nat.testBit_shiftRight, testBit_putBits]
  by_cases hi : i < w'
  · have : ¬(lo ≤ lo' + i ∧ lo' + i < lo + w) := by omega
    rw [if_neg this]
  · simp [hi]

/-- A number with a field of it replaced keeps its width. -/
theorem putBits_lt (x lo w v n : Nat) (hx : x < 2 ^ n) (hn : lo + w ≤ n) : putBits x lo w v < 2 ^ n := by
  apply Nat.lt_pow_two_of_testBit
  intro i hi
  rw [testBit_putBits, if_neg (by omega)]
  exact Nat.testBit_lt_two_pow (lt_of_lt_of_le hx (Nat.pow_le_pow_right (by norm_num) hi))

/-- A field lies below its width. -/
theorem State.fld_lt (s : State) (f : Fld) : s.fld f < 2 ^ f.w := by
  unfold State.fld bitsOf
  split <;> exact Nat.mod_lt _ (by positivity)

/-! ### Words and fields of registers -/

/-- A word reads as it was last stored. -/
@[simp] theorem State.word_setWord_same (s : State) (a : Nat) (v : BitVec 32) : (s.setWord a v).word a = v := Tbl.get_set_same _ _ a v

/-- Storing a word leaves every other. -/
theorem State.word_setWord_ne (s : State) {a b : Nat} (v : BitVec 32) (h : b ≠ a) : (s.setWord a v).word b = s.word b :=
  Tbl.get_set_ne _ _ v h

/-- Storing a word keeps the register words canonical. -/
theorem State.regsWf_setWord (s : State) (a : Nat) (v : BitVec 32) (h : s.regsWf = true) : (s.setWord a v).regsWf = true :=
  Tbl.wf_set _ _ a v h

/-- Writing a field keeps the register words canonical. -/
theorem State.regsWf_setFld (s : State) (f : Fld) (v : Nat) (h : s.regsWf = true) : (s.setFld f v).regsWf = true := by
  unfold State.setFld
  by_cases hw : f.lo + f.w ≤ 32
  · rw [if_pos hw]
    exact State.regsWf_setWord _ _ _ h
  · rw [if_neg hw]
    exact State.regsWf_setWord _ _ _ (State.regsWf_setWord _ _ _ h)

/-- Writing a field leaves every word outside its register. -/
theorem State.word_setFld_ne (s : State) (f : Fld) (v a : Nat) (h : a ≠ f.addr ∧ (f.lo + f.w ≤ 32 ∨ a ≠ f.addr + 4)) :
    (s.setFld f v).word a = s.word a := by
  unfold State.setFld
  by_cases hw : f.lo + f.w ≤ 32
  · rw [if_pos hw, State.word_setWord_ne _ _ h.1]
  · rw [if_neg hw]
    have h2 : a ≠ f.addr + 4 := h.2.resolve_left hw
    exact (State.word_setWord_ne _ _ h2).trans (State.word_setWord_ne _ _ h.1)

/-- A field within one word reads as it was last written. -/
theorem State.fld_setFld_same (s : State) (f : Fld) (v : Nat) (h : f.lo + f.w ≤ 32) : (s.setFld f v).fld f = v % 2 ^ f.w := by
  unfold State.setFld State.fld
  rw [if_pos h, if_pos h, State.word_setWord_same, BitVec.toNat_ofNat,
    Nat.mod_eq_of_lt (putBits_lt _ _ _ _ 32 (s.word f.addr).isLt h), bitsOf_putBits_same]

/-- A field of a pair reads as it was last written. -/
theorem State.fld_setFld_same_pair (s : State) (f : Fld) (v : Nat) (h : ¬f.lo + f.w ≤ 32) (h64 : f.lo + f.w ≤ 64) :
    (s.setFld f v).fld f = v % 2 ^ f.w := by
  unfold State.setFld State.fld
  rw [if_neg h, if_neg h]
  have hd : s.dword f.addr < 2 ^ 64 := by
    unfold State.dword
    have h1 := (s.word f.addr).isLt
    have h2 := (s.word (f.addr + 4)).isLt
    omega
  have hx := putBits_lt (s.dword f.addr) f.lo f.w v 64 hd h64
  generalize hp : putBits (s.dword f.addr) f.lo f.w v = x at hx ⊢
  have hdw : State.dword ((s.setWord f.addr (BitVec.ofNat 32 x)).setWord (f.addr + 4) (BitVec.ofNat 32 (x / 2 ^ 32))) f.addr = x := by
    unfold State.dword
    rw [State.word_setWord_ne _ _ (by omega), State.word_setWord_same, State.word_setWord_same, BitVec.toNat_ofNat, BitVec.toNat_ofNat]
    omega
  rw [hdw, ← hp, bitsOf_putBits_same]

/-- Writing a field leaves every field of one word of another register, and every field apart from it in the same word. -/
theorem State.fld_setFld_apart (s : State) (f g : Fld) (v : Nat) (hf : f.lo + f.w ≤ 32) (hg : g.lo + g.w ≤ 32)
    (h : g.addr ≠ f.addr ∨ g.lo + g.w ≤ f.lo ∨ f.lo + f.w ≤ g.lo) : (s.setFld f v).fld g = s.fld g := by
  unfold State.fld
  rw [if_pos hg, if_pos hg]
  by_cases ha : g.addr = f.addr
  · have hb := h.resolve_left (fun hn => hn ha)
    unfold State.setFld
    rw [if_pos hf, ha, State.word_setWord_same, BitVec.toNat_ofNat,
      Nat.mod_eq_of_lt (putBits_lt _ _ _ _ 32 (s.word f.addr).isLt hf), bitsOf_putBits_apart _ _ _ _ _ _ hb]
  · rw [State.word_setFld_ne _ _ _ _ ⟨ha, .inl hf⟩]

/-! ### Records of units -/

/-- The record of a cluster reads as it was last set. -/
@[simp] theorem State.clu_setClu_same (s : State) (p c : Nat) (x : Cluster) : (s.setClu p c x).clu p c = x := Tbl.get_set_same _ _ _ x

/-- Setting one cluster's record leaves the others'. -/
theorem State.clu_setClu_ne (s : State) (p c p' c' : Nat) (x : Cluster) (hc : c < 20) (hc' : c' < 20) (h : p' ≠ p ∨ c' ≠ c) :
    (s.setClu p c x).clu p' c' = s.clu p' c' := by
  apply Tbl.get_set_ne
  unfold cluKey
  omega

/-- The issuing cluster after its record is set. -/
@[simp] theorem State.own_setClu_same (s : State) (h : Hart) (x : Cluster) : (s.setClu h.part h.clu x).own h = x :=
  State.clu_setClu_same s _ _ x

/-- The record of a slot reads as it was last set. -/
@[simp] theorem State.slot_setSlot_same (s : State) (k : Nat) (x : SlotRec) : (s.setSlot k x).slot k = x := Tbl.get_set_same _ _ k x

/-- Setting one slot's record leaves the others'. -/
theorem State.slot_setSlot_ne (s : State) {k j : Nat} (x : SlotRec) (h : j ≠ k) : (s.setSlot k x).slot j = s.slot j :=
  Tbl.get_set_ne _ _ x h

/-- The record of a plat reads as it was last set. -/
@[simp] theorem State.plat_setPlat_same (s : State) (p : Nat) (x : PlatSt) : (s.setPlat p x).plat p = x := Tbl.get_set_same _ _ p x

/-- Setting one plat's record leaves the others'. -/
theorem State.plat_setPlat_ne (s : State) {p q : Nat} (x : PlatSt) (h : q ≠ p) : (s.setPlat p x).plat q = s.plat q :=
  Tbl.get_set_ne _ _ x h

/-- A function's vectors read as they were last set. -/
@[simp] theorem State.msixOf_setMsix_same (s : State) (f : Nat) (x : MsixSt) : (s.setMsix f x).msixOf f = x := Tbl.get_set_same _ _ f x

/-- Setting one function's vectors leaves the others'. -/
theorem State.msixOf_setMsix_ne (s : State) {f g : Nat} (x : MsixSt) (h : g ≠ f) : (s.setMsix f x).msixOf g = s.msixOf g :=
  Tbl.get_set_ne _ _ x h

/-- A link's record reads as it was last set. -/
@[simp] theorem State.linkOf_setLink_same (s : State) (p : Nat) (x : LinkSt) : (s.setLink p x).linkOf p = x := Tbl.get_set_same _ _ p x

/-- A token pool reads as it was last set. -/
@[simp] theorem State.tokOf_setTok_same (s : State) (k : Nat) (x : TokSt) : (s.setTok k x).tokOf k = x := Tbl.get_set_same _ _ k x

end Sys2Proof.Machine
end

