-- ==== Sys2Proof/WellFormed.lean ====
section
/-!
DEFINITION. WellFormed.lean: what the operand types do not say: lengths and ranges that the interfaces of the specification give.
The meanings are total: a command that is not well-formed is one that no sender makes.
-/
namespace Sys2Proof

/-- A request moves at least one byte. -/
def MemOp.wf : MemOp → Bool
  | .read n => decide (0 < n)
  | .write d => !d.isEmpty

/-- The stops of Traverse (Table 14-1): 9-bit numbers below 384. -/
def stopWf (s : BitVec 9) : Bool := decide (s.toNat < 384)

/-- The virtual channels (Table 14-4): 0 to 5. -/
def vcWf (v : BitVec 3) : Bool := decide (v.toNat < 6)

/-- The routers of a plane (R281): 8-bit numbers below 192, with ports 0 to 5 (Table 14-6). -/
def FlitErr.wf : FlitErr → Bool
  | .none => true
  | .single r _ po => decide (r.toNat < 192) && decide (po.toNat < 6)
  | .payload r _ po => decide (r.toNat < 192) && decide (po.toNat < 6)
  | .head r _ po => decide (r.toNat < 192) && decide (po.toNat < 6)

/-- A Traverse packet (Table 14-3): stops and channel exist, bits [63:57] are 0, and LEN flits of 64 bytes hold the payload. -/
def TrvPkt.wf (k : TrvPkt) : Bool :=
  stopWf (k.hdr.extractLsb' 0 9) && stopWf (k.hdr.extractLsb' 9 9) && vcWf (k.hdr.extractLsb' 18 3) &&
    decide (k.hdr.extractLsb' 57 7 = 0) &&
    decide (max ((k.data.length + 63) / 64) 1 = (k.hdr.extractLsb' 21 4).toNat + 1) && k.err.wf

/-- A piece from the flash is not empty. -/
def FlashPiece.wf : FlashPiece → Bool
  | .none => true
  | .header b => !b.isEmpty
  | .table b => !b.isEmpty
  | .signature b => !b.isEmpty
  | .sect _ b => !b.isEmpty

/-- A command whose operands a sender can make: a request moves bytes, a retirement record counts every class (R41), a flit carries
248 bytes (R301), a sensor sample has eight readings and two Tsumbe readings (R247, R359), a Traverse stop and channel exist, the far tier
has two DDR5 channels (R249). -/
def Instr.wf : Instr → Bool
  | .registerWrite _ _ d => !d.isEmpty
  | .retirementRecord _ used => used.length == 8
  | .stretchEvent _ n => decide (0 < n)
  | .stretchDepthChange _ n => decide (0 < n)
  | .resultWrite _ a => !a.data.isEmpty
  | .stackRead _ _ n => decide (0 < n)
  | .bulkRead _ _ n => decide (0 < n)
  | .stackWrite _ _ d => !d.isEmpty
  | .sensorSample _ a => a.readings.length == 8 && a.ts.length == 2
  | .farRequest _ _ op => op.wf
  | .remoteRequest src _ _ op => stopWf src.stop && op.wf
  | .scrubRead .ddr g => decide (g.val < 2)
  | .hostRegisterRequest _ _ _ op => op.wf
  | .bar2Request _ _ op => op.wf
  | .dataFlit _ f => f.payload.length == 248
  | .traversePacket k => k.wf
  | .tokenRequest t v st => stopWf t && vcWf v && stopWf st
  | .tokenGrant t v => stopWf t && vcWf v
  | .tokenReturn t v st => stopWf t && vcWf v && stopWf st
  | .reqTimeout st _ _ => stopWf st
  | .flashDataArrival x => x.wf
  | _ => true

end Sys2Proof
end

