-- ==== Sys2Proof/Tests/Slice0.lean ====
section
/-!
SUPPORT. Tests/Slice0.lean: ill-formed commands that the check refuses, words written out from the encodings of the specification,
check values it states, and for the statements with hypotheses states and operands that meet them.
-/
namespace Sys2Proof.Tests
open Sys2Proof.Machine
set_option Elab.async false

/-! ### Ill-formed commands -/

def hz : PutHdr := ⟨0, 0, 1, 0, 0, false, false, false, 0, 0, 0, 0, 64, 0, 0, 0⟩
def rq : ReqArgs := ⟨5, 0, 0, 0⟩

theorem test_wf_requests : Instr.wf (.registerWrite .pf 0 []) = false ∧ Instr.wf (.stackRead rq 0 0) = false ∧
    Instr.wf (.bulkRead rq 0 0) = false ∧ Instr.wf (.stackWrite rq 0 []) = false ∧ Instr.wf (.farRequest rq 0 (.read 0)) = false ∧
    Instr.wf (.remoteRequest ⟨1, 0, 0⟩ 5 0 (.write [])) = false ∧ Instr.wf (.remoteRequest ⟨1, 384, 0⟩ 5 0 (.read 1)) = false ∧
    Instr.wf (.hostRegisterRequest 0 false 0 (.read 0)) = false ∧
    Instr.wf (.bar2Request 0 0 (.write [])) = false ∧ Instr.wf (.scrubRead .ddr 2) = false ∧
    Instr.wf (.resultWrite 0 ⟨0, 0, 0, 0, 0, 0, []⟩) = false := by decide

theorem test_wf_counts : Instr.wf (.retirementRecord 0 [0]) = false ∧ Instr.wf (.stretchEvent 0 0) = false ∧
    Instr.wf (.stretchDepthChange 0 0) = false ∧ Instr.wf (.sensorSample 0 ⟨[], [0, 0]⟩) = false ∧
    Instr.wf (.dataFlit 0 ⟨0, [], 0, 0, false⟩) = false ∧ Instr.wf (.tokenRequest 384 0 0) = false ∧
    Instr.wf (.tokenGrant 0 6) = false ∧ Instr.wf (.tokenReturn 0 0 400) = false ∧ Instr.wf (.reqTimeout 384 0 0) = false ∧
    Instr.wf (.flashDataArrival (.header [])) = false := by decide

theorem test_wf_accepts : Instr.wf (.stackRead rq 0 1) = true ∧ Instr.wf (.tokenRequest 383 5 383) = true ∧
    Instr.wf (.putHeader 0 hz) = true := by decide

/-! ### Words written out from the encodings (chapters 6 to 9) and check values (Table 15-4) -/

theorem test_words_int : encR 1 0 3 1 2 false false = 0b00010000000000001000010001100001 ∧
    encI 5 3 11 10 0x18 = 0x3018956A ∧ encU 8 ⟨1, 1⟩ = 0b00000000000000001010000000100001 := by decide
theorem test_crc32c : crc32c [0x31, 0x32, 0x33, 0x34, 0x35, 0x36, 0x37, 0x38, 0x39] = 0xE3069283 := by decide +kernel
theorem test_crc64 : crc64 [0x31, 0x32, 0x33, 0x34, 0x35, 0x36, 0x37, 0x38, 0x39] = 0x6C40DF5F0B497347 := by decide +kernel
theorem test_crc16 : crc16 [0x31, 0x32, 0x33, 0x34, 0x35, 0x36, 0x37, 0x38, 0x39] = 0x29B1 := by decide +kernel

theorem test_wf_packet : Instr.wf (.traversePacket ⟨BitVec.ofNat 64 (72 * 2 ^ 9 + 2 ^ 18), 0, [], .none⟩) = true ∧
    Instr.wf (.traversePacket ⟨BitVec.ofNat 64 384, 0, [], .none⟩) = false ∧ Instr.wf (.traversePacket ⟨BitVec.ofNat 64 (6 * 2 ^ 18), 0, [], .none⟩) = false ∧
    Instr.wf (.traversePacket ⟨BitVec.ofNat 64 (2 ^ 57), 0, [], .none⟩) = false ∧ Instr.wf (.traversePacket ⟨0, 0, List.replicate 65 0, .none⟩) = false ∧
    Instr.wf (.traversePacket ⟨0, 0, [], .single 192 0 0⟩) = false ∧ Instr.wf (.traversePacket ⟨0, 0, [], .head 191 15 6⟩) = false := by decide

/-! ### Worked balls and sites of chapter 21 -/

theorem test_balls : ballSignal 1 1 = "VSS" ∧ ballSignal 6 1 = "LNK0_TX0_P" ∧ ballSite 7 8 = .rail "VDD_STK" ∧ ballSite 9 8 = .vddP 0 ∧
    ballSite 71 8 = .rail "VDD_SOC" ∧ bumpSignal 20 1 = none ∧ bumpSignal 0 0 = some "VSS" ∧ bumpSignal 0 1 = some "VDD_SOC" := by decide +kernel

/-! ### Hewer: states and words that meet the hypotheses -/

def h0 : Hart := ⟨0, 0⟩
/-- A cluster of an INGRESS partition that runs in Monitor with claims on the first granule. -/
def ks : Cluster := { Cluster.reset with running := true, tctxCid := 5, pc := 0x100 }
def inCluster (k : Cluster) : State :=
  ({ State.reset.setClu 0 0 k with claims := [(0, 0x3FFF005)] }).setFld (PCTL_ROLE_ROLE_ACTIVE 0) 1
def ss : State := inCluster ks
/-- The same with element width 64 and vector length 2, and with addresses in X1 to X3 that a vector access can use. -/
def ksv : Cluster := ((({ ks with sew := 3, vl := 2 }).setX 1 0x400).setX 2 0x800).setX 3 8
def sv : State := inCluster ksv
/-- An abort of an earlier store pending. -/
def sab : State := inCluster { ks with abort := some ⟨0x40, 1⟩ }

/-- An instruction's bytes at the cluster's pc, and the state once it has been fetched there. -/
def place (s : State) (w : Nat) : State := s.withMem { s.mem with bytes := Mem.write s.mem.bytes 0x100 (bytesLE 4 w) }
def after (s : State) (w : Nat) : State := (place s w).afterFetch h0 w

def ra : RArgs := ⟨3, 1, 2⟩
def ia : IArgs := ⟨3, 1, 0⟩
def at3 : AtomArgs := ⟨3, 1, 2, 3, false, true⟩
def va : VArgs := ⟨4, 5, 6, false, false, false, 0⟩
def la : LvMemArgs := ⟨4, 1, 3, false, false, 0⟩
def ta : TArgs := ⟨1, 1, 3, 2, 3⟩

def readyAll (s : State) (rep : Bool) (ws : List Nat) : Bool := ws.all (fun w => (place s w).ready h0 w rep)

theorem test_ready_int : readyAll ss false ((List.range 14 ++ [16, 17, 18, 19, 20, 21, 22, 23]).map (fun n => encR 1 n 3 1 2 false false) ++
    [32, 33, 34, 35].map (fun n => encR 1 n 3 1 0 false false) ++ (List.range 9).map (fun n => encI 2 n 31 31 63) ++
    [encU 3 ⟨31, 0x1FFFFF⟩, encU 4 ⟨0, 0⟩, halfOf 0 (31 * 128 + 31 * 4), halfOf 0 (3 * 128 + 5 * 4 + 1), halfOf 1 (31 * 128 + 63 * 2),
      halfOf 1 (31 * 128 + 63 * 2 + 1), halfOf 7 (3 * 128 + 5 * 4 + 3), encVset ⟨3, 1, 0, true⟩]) = true := by decide +kernel

theorem test_ready_control : readyAll ss false ((List.range 6).map (fun n => encB n ⟨1, 2, 0x1FFF⟩) ++ [encU 8 ⟨31, 0x100000⟩, encI 9 0 3 1 0,
    halfOf 5 0xFFF, halfOf 6 (3 * 256 + 255), halfOf 6 (2048 + 3 * 256), encI 11 0 3 0 0x804, encI 11 1 3 1 0x800, encI 11 2 3 1 1,
    encI 11 3 3 0 0xC05]) = true ∧
  readyAll ss true ([192, 193, 194, 195, 196, 197].map (fun n => encR 10 n 0 0 0 false false) ++ [encI 11 5 0 0 0, encI 11 6 0 0 0] ++
    (List.range 12).map (fun n => encAtom n (if n < 2 then { at3 with rl := false } else at3))) = true := by decide +kernel

theorem test_ready_mem : readyAll ss false ([0, 1, 2, 3, 4, 5, 6, 8, 9].map (fun n => encI 5 n 3 1 0xFFF) ++
    [0, 1, 2, 3, 8, 9].map (fun n => encS n ⟨2, 1, 0x800⟩) ++ [halfOf 2 (7 * 512 + 31 * 16 + 15), halfOf 3 0, halfOf 4 (7 * 512 + 14), halfOf 4 1] ++
    [0, 1, 2, 3, 4, 5, 6, 8, 9].map (fun n => encLvMem n (if n = 1 ∨ n = 2 ∨ n = 5 ∨ n = 6 then la else { la with idx := 0 })) ++
    [encSvMem 0 ⟨31, 1, 2, true, 3⟩, encSvMem 1 ⟨0, 1, 2, false, 0⟩, encSvMem 2 ⟨0, 1, 2, false, 0⟩]) = true := by decide +kernel

theorem test_ready_fp : readyAll ss false ([0, 1, 2, 3, 5, 6, 7, 8, 9, 10, 11, 12].map (fun n => encF n ⟨3, 1, 2, 0, 0⟩) ++
    [4, 13, 19, 20].map (fun n => encF n ⟨3, 1, 0, 0, 1⟩) ++ [16, 17, 18].map (fun n => encF n ⟨3, 1, 1, 4, 0⟩) ++
    [encF4 13 0 ⟨3, 1, 2, 4, 0, 0⟩, encF4 13 1 ⟨3, 1, 2, 4, 7, 3⟩, encF4 14 0 ⟨3, 1, 2, 4, 1, 1⟩, encF4 14 1 ⟨3, 1, 2, 4, 0, 2⟩]) = true := by
  decide +kernel

theorem test_ready_vec : readyAll ss false ((List.range 28).map (fun n => encV 18 n { va with
      vs2 := if n = 15 ∨ n = 20 ∨ n = 27 then 0 else 6, vs1 := if n = 27 then 0 else 5 }) ++
    ((List.range 10).map (fun n => encV 20 n va)) ++ ([16, 17, 18, 19].map (fun n => encV 20 n va)) ++
    [encV 20 20 { va with vs1 := 0, vs2 := 0 }, encV 20 24 { va with vs2 := 0 }, encV 20 25 { va with vs2 := 0 }] ++
    ((List.range 8 ++ [16, 17, 18, 19]).map (fun n => encV 21 n { va with vs2 := 0 })) ++
    ((List.range 11).map (fun n => encSv n ⟨1, 2, 3, false, false, 8⟩)) ++ ((List.range 10).map (fun n => encSv (16 + n) ⟨1, 2, 3, false, false, 2⟩))) = true := by
  decide +kernel
theorem test_ready_wide : readyAll (inCluster { ks with sew := 0 }) false ((List.range 8).map (fun n => encV 25 n va) ++ [encCvt ⟨4, 5, 0, 1, false, false, false, 0⟩]) = true := by
  decide +kernel

theorem test_ready_tile : readyAll ss false ([encT 23 0 ⟨1, 0, 0, 0, 0⟩, encT 23 1 ⟨1, 0, 0, 2, 3⟩, encT 23 2 ⟨1, 0, 0, 2, 3⟩, encT 23 3 ⟨0, 0, 0, 0, 3⟩, encT 23 4 ⟨0, 1, 2, 0, 0⟩,
    encT 23 5 ⟨0, 1, 2, 0, 0⟩, encT 23 8 ⟨1, 0, 0, 2, 0⟩, encT 23 9 ⟨1, 0, 0, 2, 0⟩, encT 23 10 ⟨1, 0, 0, 2, 0⟩, encT 23 11 ⟨1, 0, 0, 2, 0⟩, encT 23 12 ⟨1, 1, 0, 2, 0⟩,
    encT 23 13 ⟨1, 1, 2, 0, 0⟩, encT 23 14 ⟨1, 0, 0, 0, 0⟩, encT 24 0 ta, encT 24 1 ta, encT 24 2 ta, encT 24 3 ta]) = true := by decide +kernel

/-! ### Witnesses of accesses that go through -/

theorem loadGoes_of (f : State) (h : Hart) (ea n : Nat) (excl : Bool) (pl : Place) (d : List Byte) (h1 : ea % n = 0)
    (h2 : (f.dataXlate h .read ea).1 = some pl) (h3 : ((f.dataXlate h .read ea).2.cluLoad h pl n excl false).1 = .ok d) :
    f.loadGoes h ea n excl d ((f.dataXlate h .read ea).2.cluLoad h pl n excl false).2 := ⟨h1, pl, h2, Prod.ext h3 rfl⟩
theorem storeGoes_of (f : State) (h : Hart) (ea n v : Nat) (pl : Place) (h1 : ea % n = 0) (h2 : (f.dataXlate h .write ea).1 = some pl)
    (h3 : ((f.dataXlate h .write ea).2.cluStore h pl ea 1 (bytesLE n v) false).1 = .ok []) :
    f.storeGoes h ea n v ((f.dataXlate h .write ea).2.cluStore h pl ea 1 (bytesLE n v) false).2 := ⟨h1, pl, h2, Prod.ext h3 rfl⟩

def plOf (f : State) (k : Access) (ea : Nat) : Place := ((f.dataXlate h0 k ea).1).getD ⟨0, false⟩

theorem test_load_goes : ∃ u, (after ss (encI 5 3 3 1 0)).loadGoes h0 0 8 false (List.replicate 8 0) u :=
  ⟨_, loadGoes_of _ h0 0 8 false (plOf (after ss (encI 5 3 3 1 0)) .read 0) (List.replicate 8 0) (by decide) (by decide +kernel) (by decide +kernel)⟩
theorem test_store_goes : ∃ u, (after ss (encS 3 ⟨2, 1, 0⟩)).storeGoes h0 0 8 0 u :=
  ⟨_, storeGoes_of _ h0 0 8 0 (plOf (after ss (encS 3 ⟨2, 1, 0⟩)) .write 0) (by decide) (by decide +kernel) (by decide +kernel)⟩
theorem test_rmw_goes : ∃ u, (after ss (encAtom 3 at3)).rmwGoes h0 at3 0 8 (fun old => some old) (List.replicate 8 0) u :=
  ⟨_, by decide, plOf (after ss (encAtom 3 at3)) .rmw 0, by decide +kernel, Prod.ext (by decide +kernel) rfl⟩

theorem itemsLoad_of (f : State) (h : Hart) (strm : Bool) (items : List Item) (l : List (Item × List Byte))
    (h1 : (f.xlateAll h .read items).1 = []) (h2 : ((f.xlateAll h .read items).2.2.loadAll h strm (f.xlateAll h .read items).2.1).1 = .ok l) :
    f.itemsLoad h strm items l ((f.xlateAll h .read items).2.2.loadAll h strm (f.xlateAll h .read items).2.1).2 := ⟨h1, Prod.ext h2 rfl⟩

/-- VLD, VLDS with a nonzero and a zero stride, VLDX, VST, VLDM and VLDFF (with elements and without): aligned, and every access goes. -/
theorem test_vector_items : ∀ f5 ∈ [0, 2, 4, 8], let f := after sv (encLvMem f5 { la with idx := if f5 = 2 then 3 else 0 })
    f.vlNow (f.own h0) = 2 ∧ crooked 8 (f.lvItems (f.own h0) la (unitAddr la (f.own h0))) = [] ∧
    crooked 8 (f.lvItems (f.own h0) la (strideAddr la (f.own h0))) = [] ∧ (f.own h0).getX la.idx ≠ 0 ∧
    (f.own h0).getX 0 = 0 ∧ crooked 8 (f.maskItems ((f.own h0).getX la.base)) = [] ∧
    f.lvItems (f.own h0) la (unitAddr la (f.own h0)) ≠ [] ∧ ss.vlNow (ss.own h0) = 0 := by decide +kernel
theorem test_vector_load : ∃ l u, (after sv (encLvMem 0 { la with idx := 0 })).itemsLoad h0 false
    ((after sv (encLvMem 0 { la with idx := 0 })).lvItems ksv la (unitAddr la ksv)) l u :=
  ⟨_, _, itemsLoad_of _ h0 false _ [(⟨0, 0x400, 8⟩, List.replicate 8 0), (⟨1, 0x408, 8⟩, List.replicate 8 0)] (by decide +kernel) (by decide +kernel)⟩
theorem test_vector_store : ∃ u, (after sv (encLvMem 4 { la with idx := 0 })).itemsStore h0 false
    [(⟨0, 0x400, 8⟩, List.replicate 8 1), (⟨1, 0x408, 8⟩, List.replicate 8 2)] (fun i => vecDetail 2 1 [i]) u :=
  ⟨_, by decide +kernel, Prod.ext (by decide +kernel) rfl⟩
theorem test_vldff : let f := after sv (encLvMem 3 { la with idx := 0 })
    (f.xlateUpto h0 (f.lvItems ksv la (unitAddr la ksv))).2.1 = none ∧
    ((f.xlateUpto h0 (f.lvItems ksv la (unitAddr la ksv))).2.2.loadAll h0 false (f.xlateUpto h0 (f.lvItems ksv la (unitAddr la ksv))).1).1 =
      .ok [(⟨0, 0x400, 8⟩, List.replicate 8 0), (⟨1, 0x408, 8⟩, List.replicate 8 0)] := by decide +kernel
theorem test_short_items : let f := after sv (encSvMem 0 ⟨31, 1, 2, true, 3⟩)
    crooked (efmtBits 3 / 8) (svItems ⟨31, 1, 2, true, 3⟩ 16 (f.own h0)) = [] := by decide +kernel
theorem test_tile_rows : let f := after sv (encT 24 0 ta)
    crookedRows ta 64 ((f.own h0).setX 3 64) = [] ∧ crookedRows ta 32 ((f.own h0).setX 3 32) = [] ∧
    (f.xlateAll h0 .read (tileItems ta 512 ((f.own h0).setX 3 64))).1 = [] ∧
    (f.streamXlate h0 (f.own h0) (f.tileEnv h0) ta false (f.own h0).tcount 0).1 = [] ∧ (f.own h0).tcount = 0 ∧
    { f.own h0 with lvalid := true }.tileBusy (f.tileEnv h0) = false ∧
    ((f.streamXlate h0 (f.own h0) (f.tileEnv h0) ta false 0 0).2.2.streamRows h0 (f.own h0) (f.tileEnv h0) false
      (f.streamXlate h0 (f.own h0) (f.tileEnv h0) ta false 0 0).2.1).1 = .ok [] := by decide +kernel

theorem test_access_frame_place : ss.isRegs (plOf ss .read 0) = false ∧ ss.useCache h0 (plOf ss .read 0) = false ∧ ss.isLocal (plOf ss .read 0).pa = true ∧
    ss.isRegs ⟨0x3F0000020048, false⟩ = true := by decide +kernel

/-! ### Traps -/

theorem test_trap_states : (place ss (encI 11 4 0 0 0xFFF)).fetches h0 (encI 11 4 0 0 0xFFF) = true ∧ (place ss (halfOf 0 3)).fetches h0 (halfOf 0 3) = true ∧ (place ss 0xFFFFFFFF).fetches h0 0xFFFFFFFF = true ∧
    kindOf (ss.kindCtx h0) 0xFFFFFFFF = .malformed ∧ kindOf ((after ss 0xFFFFFFFF).kindCtx h0) 0xFFFFFFFF = .malformed ∧
    (place ss 0xBC00).fetches h0 0xBC00 = true ∧ kindOf (ss.kindCtx h0) 0xBC00 = .reserved ∧ kindOf ((after ss 0xBC00).kindCtx h0) 0xBC00 = .reserved ∧
    (place ss (encI 9 0 3 0 1)).fetches h0 (encI 9 0 3 0 1) = true ∧ ((after ss (encI 9 0 3 0 1)).own h0).getX 0 = 0 := by decide +kernel
theorem test_abort_states : sab.issues h0 = true ∧ ((place sab (encR 10 192 0 0 0 false false)).fetchInst h0 (encR 10 192 0 0 0 false false)).1 = .ok ∧
    kindOf ((after sab (encR 10 192 0 0 0 false false)).kindCtx h0) (encR 10 192 0 0 0 false false) = .assigned ∧
    ((after sab (encR 10 192 0 0 0 false false)).own h0).intrap = false ∧
    ((after sab (encR 10 192 0 0 0 false false)).own h0).abort = some ⟨0x40, 1⟩ ∧ ((inCluster { ks with intrap := true }).own h0).intrap = true := by
  decide +kernel
def suq : State := { inCluster { ks with mon := false, tctxEn := true } with tlb := [(0, [⟨.l1i 0, 5, 0, 16, 0, true, true, true, true, true, false⟩])] }
theorem test_user_states : ∀ w ∈ [encI 11 5 0 0 0, encI 11 0 3 1 0xC05, encI 11 1 3 1 0x804, encI 11 2 3 1 0x810, encI 11 3 3 0 0xC00],
    (place suq w).fetches h0 w = true ∧ ((after suq w).own h0).mon = false ∧ csrAssigned 0xC05 = true ∧ csrAssigned 0x804 = true := by decide +kernel

/-- The worked boundary values of reserved and malformed words. -/
theorem test_kinds : let g : KindCtx := ⟨0x1FF, 0, true⟩
    kindOf g 0x0000 = .malformed ∧ kindOf g 0x8000 = .malformed ∧ kindOf g 0xFC00 = .malformed ∧
    kindOf g (encI 11 1 3 1 0xFFF) = .malformed ∧ kindOf g (encI 11 0 3 0 0xFFF) = .reserved ∧
    kindOf { g with mon := false } (encI 11 1 3 1 0x800) = .priv ∧ kindOf g (encI 11 1 3 1 0x804) = .assigned ∧
    kindOf ⟨0x1DF, 0, true⟩ 0x6002E488 = .reserved ∧ kindOf g 0x6002E488 = .assigned ∧ kindOf ⟨0x83, 0, true⟩ (encF 0 ⟨3, 1, 2, 0, 0⟩) = .reserved := by decide

theorem test_read_back : ((ss.setClu 0 0 (ss.csrSet h0 0x010 0xFFFF ks)).csrRead h0 0x010).1.toNat = ss.vlmaxAt ks.sew := by decide +kernel

/-! ### Clocks, beat, admission and tallies -/

def sl : State := { State.reset with beat := { State.reset.beat with locked1st := true } }
/-- A running generator: the next boundary at tick 100, nominally too, 5 ticks past the last boundary. -/
def sr : State := { State.reset with beat := { State.reset.beat with locked1st := true, tick := 5, placed := 100, nom := 100, sync := .tracking } }.setFlag BEAT_STS_RUNNING true

theorem test_step_witness : State.reset.pending = [] ∧ State.reset.beat.locked1st = false ∧ sl.beat.locked1st = true ∧ sl.running = false ∧
    sr.running = true ∧ sr.beat.tick < sr.beat.placed ∧ State.reset.canonical = true ∧ sr.canonical = true := by decide +kernel
theorem test_boundary_witness : sr.running = true ∧ sr.beat.locked1st = true ∧ sr.beat.tick ≤ sr.beat.placed ∧ State.reset.running = false ∧
    { sr with beat := { sr.beat with tick := 100 } }.beat.tick ≤ sr.beat.placed := by decide +kernel
/-- A boundary's own cycle, with a write in it and without. -/
theorem test_cycle_witness : sr.beat.cycle = none ∧ (let s := { sr with beat := { sr.beat with tick := 100, cycle := some ⟨100, sr.regs⟩ } }
    s.inCycle = true ∧ s.beat.cycle = some ⟨s.beat.tick, sr.regs⟩) := by decide +kernel
/-- The late window, the early window at both its ends, an edge outside, and the three other states. -/
theorem test_sync_witness : (let s := { sr with beat := { sr.beat with late := some ⟨3, 50⟩ } };
      s.running = true ∧ s.beat.sync = .tracking ∧ s.beat.late = some ⟨3, 50⟩ ∧ s.beat.tick ≤ 50 ∧ 50 ≤ s.beat.placed ∧
      s.beat.missRun + 1 < max 3 1 ∧ max 1 1 ≤ s.beat.missRun + 1) ∧
    sr.beat.nom ≤ 100 + sr.beatW ∧ (100 : Nat) ≤ sr.beat.nom ∧ sr.beat.hit = false ∧ sr.beat.late = none ∧ 5 + sr.beatW < sr.beat.nom ∧
    ∀ x : SyncState, { sr with beat := { sr.beat with sync := x } }.running = true := by
  refine ⟨by decide +kernel, by decide +kernel, by decide +kernel, by decide +kernel, by decide +kernel, by decide +kernel, fun x => ?_⟩
  cases x <;> decide +kernel
theorem test_beat_inv_witness : sr.beatTurn.beat.bk ≤ sr.beatTurn.beat.placed ∧ sr.beatTurn.beat.bk + sr.beatTurn.beatMin ≤ sr.beatTurn.beat.placed := by
  decide +kernel
theorem test_reference_witness : sl.flag CLK_REF_STS_HOLDOVER = false ∧ (sl.setFlag CLK_REF_STS_OCLK_TRIMMED true).flag CLK_REF_STS_OCLK_TRIMMED = true ∧
    ((sl.setFlag CLK_REF_STS_HOLDOVER true).withBeat { sl.beat with goodWin := 3 }).beat.goodWin = 3 ∧
    ((sl.setFlag CLK_REF_STS_OCLK_TRIMMED true).setFlag CLK_REF_STS_HOLDOVER true).flag CLK_REF_STS_HOLDOVER = true ∧
    ((sl.setFlag CLK_REF_STS_OCLK_TRIMMED true).setFlag CLK_REF_STS_HOLDOVER true).flag CLK_REF_STS_OCLK_TRIMMED = true ∧
    (sl.setFlag CLK_REF_STS_RELOCKING true).flag CLK_REF_STS_RELOCKING = true ∧ State.reset.depthOf 0 = 0 ∧
    (State.reset.setDepth 0 4).depthOf 0 = 4 := by decide +kernel


/-- A table whose class 0 grants slot 7 once, and an image of zeros with its CRC. -/
def tb (st : Nat) (par closed : Bool) : ClsTable := ⟨0, 9, List.replicate 8 ⟨st, 1, 2, 10, 20, 0, 1⟩, [7], par, closed⟩
def act (st : Nat) (used : Nat) : ActTable := ⟨tb st true false, List.replicate 8 used⟩
def img : List Byte := List.replicate 2124 0 ++ [0xA6, 0x08, 0x7E, 0x1A]

/-- One descriptor for each answer, at the limits of its clause. -/
theorem test_port_witness : portAnswer (act 0 0) false 0 true = .refuse 1 ∧ portAnswer (act 0 0) true 0 false = .defer 5 1 ∧
    portAnswer (act 2 0) false 0 false = .refuse 1 ∧
    portAnswer ⟨tb 0 false false, List.replicate 8 0⟩ false (11 * 8) true = .refuse 3 ∧
    portAnswer ⟨tb 0 false false, List.replicate 8 0⟩ false (10 * 8 + 21 * 2048) true = .refuse 4 ∧
    portAnswer ⟨tb 1 false false, List.replicate 8 0⟩ false (10 * 8 + 20 * 2048) true = .defer 1 2 ∧
    portAnswer ⟨tb 0 false false, List.replicate 8 0⟩ false (10 * 8 + 20 * 2048) true = .accept 7 ∧
    portAnswer ⟨tb 0 false false, List.replicate 8 1⟩ false 0 true = .defer 1 2 := by decide

def adm0 : AdmSt := { State.reset.adm with active := some (act 0 0) }
theorem test_admission_witness : (State.reset.withAdm adm0).adm.active = some (act 0 0) ∧ (act 0 0).tbl.portClosed = false ∧
    (State.reset.withAdm adm0).flag ADM_STS_STALE_DEFER = false ∧ (tb 0 true true).portClosed = true ∧
    ((State.reset.withAdm { adm0 with swapPend := true, ready := some (tb 0 false false) }).adm.ready = some (tb 0 false false)) ∧
    (0 : Int) ≤ (0 - State.reset.beat.bkTs).toInt ∧ imgOk [] = false ∧
    (let a := { adm0 with due := some (0, 9), built := [tb 0 false false], arrived := some (tb 0 false false) }
     a.due = some (0, 9) ∧ a.built.getLast? = some (tb 0 false false) ∧ a.metDue = false ∧ (State.reset.withAdm a).retired 9 [] ≠ none ∧
     (State.reset.withAdm a).retired 8 [] = none) ∧
    (sr.withBoot { sr.boot with held := false }).inReset = false ∧ State.reset.inReset = true := by
  decide +kernel
def zeroByte (c : Nat) : Nat := (bitsLsb 0).foldl (crcStep 32 0x1EDC6F41) c
/-- The CRC register after `n` zero bytes, each step evaluated before the next. -/
def zeroRun : Nat → Nat → Nat
  | 0, c => c
  | n + 1, 0 => zeroRun n (zeroByte 0)
  | n + 1, c + 1 => zeroRun n (zeroByte (c + 1))
theorem zeroRun_eq (n c : Nat) : (List.replicate n (0 : Byte)).foldl
    (fun c b => (if true then bitsLsb b else bitsMsb b).foldl (crcStep 32 0x1EDC6F41) c) c = zeroRun n c := by
  induction n generalizing c with
  | zero => cases c <;> rfl
  | succ n ih => cases c <;> exact ih _
theorem img_crc : imgNat img 0x84C 4 = crc32c (img.take 0x84C) := by
  have h : img.take 0x84C = List.replicate 2124 (0 : Byte) := by
    unfold img
    rw [List.take_append_of_le_length (Nat.le_of_eq List.length_replicate.symm), List.take_replicate]
    rfl
  rw [h, crc32c, crcRun, zeroRun_eq]
  decide +kernel
theorem natLE_zeros (n : Nat) : natLE (List.replicate n (0 : Byte)) = 0 := by
  induction n with
  | zero => rfl
  | succ n ih => rw [List.replicate_succ, natLE, ih]; rfl
theorem img_zero (o n : Nat) (h : o + n ≤ 2124) : imgNat img o n = 0 := by
  have h1 : o ≤ (List.replicate 2124 (0 : Byte)).length := by rw [List.length_replicate]; omega
  have h2 : n ≤ (List.replicate (2124 - o) (0 : Byte)).length := by rw [List.length_replicate]; omega
  unfold imgNat img
  rw [List.drop_append_of_le_length h1, List.drop_replicate, List.take_append_of_le_length h2, List.take_replicate]
  exact natLE_zeros _
theorem img_hdr (c : Nat) (h : c < 8) : imgHdr img c = ⟨0, 0, 0, 0, 0, 0, 0⟩ := by
  unfold imgHdr
  rw [img_zero _ 1 (by omega), img_zero _ 1 (by omega), img_zero _ 1 (by omega), img_zero _ 1 (by omega), img_zero _ 2 (by omega),
    img_zero _ 2 (by omega)]
theorem test_image_witness : imgOk img = true := by
  have hl : img.length = 2128 := by
    unfold img
    rw [List.length_append, List.length_replicate]
    rfl
  have hh : (List.range 8).all (imgHdrOk img) = true := by
    rw [List.all_eq_true]
    intro c hc
    have hc8 := List.mem_range.mp hc
    unfold imgHdrOk
    rw [img_hdr c hc8, img_zero _ 1 (by omega), img_zero _ 2 (by omega), img_zero _ 2 (by omega)]
    rfl
  have hr : (List.range 8).all (fun i => (List.range i).all (fun j => !rangesMeet (imgHdr img i) (imgHdr img j))) = true := by
    rw [List.all_eq_true]
    intro i hi
    rw [List.all_eq_true]
    intro j hj
    have h1 := List.mem_range.mp hi
    have h2 := List.mem_range.mp hj
    rw [img_hdr i h1, img_hdr j (by omega)]
    rfl
  have hg : (List.range 1024).all (fun i => decide (imgNat img (0x40 + 2 * i) 2 < 4096)) = true := by
    rw [List.all_eq_true]
    intro i hi
    have h1 := List.mem_range.mp hi
    rw [img_zero _ 2 (by omega)]
    rfl
  unfold imgOk
  rw [decide_eq_true hl, decide_eq_true img_crc, hh, hr, hg, img_zero 0x848 4 (by omega)]
  rfl

/-- A claimed COMMIT of an ACCEPTED slot in the ring at address 0 of stack 0, and slots in other states. -/
def sc : State := (ss.setSlot 0 { SlotRec.none with phase := .accepted, reqSeq := 4 })
theorem test_commit_witness : sc.claimed ⟨5, 4, 0, sc.chip, sourceStop 4 0⟩ (localPa (sc.ringAddr 0 + 0x14)) false true = true ∧
    sc.roleOffAt (localPa (sc.ringAddr 0 + 0x14)) = false ∧ (sc.slot 0).phase = .accepted ∧ (sc.slot 0).reqSeq = 4 ∧
    ((sc.writeEnabled ⟨5, 4, 0, sc.chip, sourceStop 4 0⟩ (localPa (sc.ringAddr 0 + 0x14)) 15 4).bodyLen 0).1 = some 0 ∧ 0 ≤ sc.ringStride - 64 ∧
    (sc.slot 1).phase ≠ .accepted ∧ sc.commitLate 0 = false := by decide +kernel

theorem test_watermark_witness : (let f := wmFlds .adm
    let up := ((State.reset.setFld f.level 0).withAdm { adm0 with active := none }).setSlot 0 { SlotRec.none with phase := .accepted }
    f.part = none ∧ up.flag f.above = false ∧ up.fld f.level < up.wmQ .adm ∧
    (let dn := State.reset.setFlag f.above true
     dn.flag f.above = true ∧ dn.wmQ .adm ≤ dn.fld f.level - dn.fld f.hyst) ∧
    State.reset.wmQ .adm ≤ State.reset.fld f.level ∧
    (let e : State := { State.reset with early := { State.reset.early with msixPf := 256 }, msix := [(0, ⟨[(4 * f.vec + 3, 0)], [], true, false⟩)] }
     f.vec < e.early.msixPf ∧ (e.msixOf 0).enabled = true ∧ (e.msixOf 0).masked f.vec = false ∧ 0 ∉ e.pwr.d3 ∧ e.ucieLost = false)) ∧ (∀ c, WmId.adm ≠ .guard c) := by
  exact ⟨by decide +kernel, by intro c; simp⟩

/-- Bins: exact fourth powers at both ends, and the saturated bin. -/
theorem test_bins : binOf 0 = 0 ∧ binOf 1426 = 0 ∧ binOf 1427 = 1 ∧ binOf 2399 = 3 ∧ binOf 2400 = 4 ∧ binOf 78643199 = 63 ∧ binOf 78643200 = 64 := by
  decide +kernel
theorem test_tally_witness : sl.tallyWf = true ∧ sl.beat.locked1st = true ∧ sl.running = false ∧ sr.running = true ∧ sr.beat.tick < sr.beat.placed ∧
    Tbl.get (fun _ => 0) ({ State.reset with tal := { State.reset.tal with bins := [(binKey 0 0 (binOf 0), 2 ^ 48 - 1)] } }).tal.bins
      (binKey 0 0 (binOf 0)) = 2 ^ 48 - 1 := by decide +kernel
theorem test_guard_witness : (∀ e ∈ [(⟨0, 0, 0, 64⟩ : WinEnt)], e.bin ≤ 64) ∧ (1 : Nat) ≤ [(⟨0, 0, 0, 64⟩ : WinEnt)].length ∧
    rankBin [⟨0, 0, 0, 64⟩] 1 64 0 0 = 64 := by decide

/-! ### Plats, stages and failover -/

def fh : FrameHdr := { FrameHdr.zero with len := 64, kind := 1 }
/-- Frame 0 of partition 0 in a state; the partition has role `r`. -/
def fr (st : FrameSt) (h : FrameHdr) (nacks : Nat) : Frame := { Frame.none with st := st, hdr := h, nacks := nacks }
def sp (r : Nat) (st : FrameSt) (nacks : Nat) : State :=
  (State.reset.setFld (PCTL_ROLE_ROLE_ACTIVE 0) r).setFrame 0 0 (fr st fh nacks)

theorem test_put_witness : (State.reset.headerFrame 0 (putFrame hz)).1 = some 0 ∧
    (State.reset.setFld (PCTL_ROLE_ROLE_ACTIVE 0) 2).headerErr 0 (putFrame { hz with kind := 7 }) = some .hdr ∧
    ((State.reset.setFld (PCTL_ROLE_ROLE_ACTIVE 0) 2).setFld (PCTL_PREV_CHIP 0) 63).headerErr 0 (putFrame hz) = none ∧
    (((State.reset.setFld (PCTL_ROLE_ROLE_ACTIVE 0) 2).setFld (PCTL_PREV_CHIP 0) 63).headerErr 0 (putFrame { hz with srcChip := 1 })) = some .src ∧
    (((sp 2 .ready 0).setFld (PCTL_PREV_CHIP 0) 63).headerErr 0 (putFrame hz)) = some .dup ∧
    ((sp 2 .filling 0).frame 0 0).st = .filling ∧ ((sp 2 .filling 0).plat 0).waiting = [] ∧
    ((sp 2 .filling 0).chkPut 0 fh (List.replicate 64 0) none).1 = true ∧ (sp 2 .filling 0).act (PCTL_CMD_CMD 0) ≠ 1 ∧
    (sp 2 .filling 0).forwardsTo 0 = none := by decide +kernel

/-- A plat with no free frame, with frames of the largest size. -/
def full : State := (State.reset.setFld (PLAT_CFG_FRAME_KIB 0) 255).setPlat 0
  { platReset with frames := (List.range (4096 / (State.reset.setFld (PLAT_CFG_FRAME_KIB 0) 255).frameKib 0)).map (fun i => (i, fr .ready fh 0)) }
theorem test_full_plat : full.freeFrame 0 = none := by decide +kernel
/-- A discarded put of frame 3 of which the last packet has not come. -/
theorem test_drop_witness : let s := State.reset.setPlat 0 { platReset with drops := [⟨3, fh, true⟩] }
    (s.plat 0).waiting = [] ∧ (s.plat 0).drops.find? (fun x => x.frame == 3) = some ⟨3, fh, true⟩ ∧ fh.srcChip.toNat = s.chip := by decide +kernel

theorem test_stage_witness : (sp 2 .taken 1).answered 0 0 1 false = some 0 ∧ (sp 2 .taken 1).forwardsTo 0 = none ∧
    ((sp 2 .taken 1).frame 0 0).nacks < 2 ∧ 2 ≤ ((sp 2 .taken 2).frame 0 0).nacks ∧
    (let s := (State.reset.setFld (PCTL_ROLE_ROLE_ACTIVE 0) 1).setSlot 0 { SlotRec.none with phase := .taken }
     s.answered 0 0 4 false = none ∧ s.role 0 = 1 ∧ (s.slot 0).phase = .taken ∧ s.forwardsTo 0 = none) ∧
    (sp 2 .ready 0).stageRuns 0 = true ∧ (sp 3 .ready 0).role 0 = 3 ∧ (sp 3 .ready 0).stageRuns 0 = true ∧ (sp 1 .ready 0).role 0 = 1 ∧
    ((sp 2 .ready 0).setFlag (PCTL_STS_FAILED 0) true).stageRuns 0 = false ∧ State.reset.hostFails 0 8 = false ∧
    (let s := (sp 3 .ready 0).setEgr ((sp 3 .ready 0).egrKey 0 0) ⟨4, true, 9, 0, some (true, 5)⟩
     (s.egrOf (s.egrKey 0 0)).lastPos = 9 ∧ (s.egrOf (s.egrKey 0 0)).wrote = true ∧ s.putRole 0 = 3 ∧ (s.egrOf (s.egrKey 0 0)).sample = some (true, 5)) ∧
    ((sp 3 .ready 0).setFld (PCTL_NEXT_CHIP 0) 63).fld (PCTL_NEXT_CHIP 0) = 63 ∧
    ((sp 3 .ready 0).setFld (PCTL_NEXT_CHIP 0) 5).fld (PCTL_NEXT_CHIP 0) ≠ State.reset.chip := by decide +kernel

/-- A list with no region at address 0 of stack 1. -/
def sf (ph : FoPhase) : State :=
  (((State.reset.setFld (PCTL_FO_SPARE 0) 1).setFld (PCTL_ROLE_ROLE_ACTIVE 1) 5).setFld (PCTL_FO_LIST_ADDR 0) (2 ^ 35 / 64)).setFo 0 ⟨ph, 1, 0⟩
/-- The same with a region whose partition is not there. -/
def sfb : State := (sf .copying).withMem { State.reset.mem with bytes := [(2 ^ 35, 1), (2 ^ 35 + 32, 64)] }
theorem test_failover_witness : (sf .none).spareOk 0 = true ∧ State.reset.spareOk 0 = false ∧ ((sf .triggered).foOf 0).phase = .triggered ∧
    ((sf .copying).foOf 0).phase = .copying ∧ (sf .copying).awake 1 = true ∧ ((sf .copying).listWord (2 ^ 35) 4).1 = some 0 ∧
    ((sf .copying).listWord (2 ^ 35 + 8) 8).1 = some 0 ∧ ((sf .copying).copyList 0 1 (2 ^ 35) (min 0 1024) 0).1 = true ∧
    (sfb.listWord (2 ^ 35) 4).1 = some 1 ∧ (sfb.copyList 0 1 (2 ^ 35) (min 1 1024) 0).1 = false ∧ State.reset.flag (PCTL_FAULT_FATAL 0) = false := by
  decide +kernel

/-! ### Adit and Assay -/

def ar : AditRun :=
  { ctrl := 0, kblk := 1, rows := 1, wStride := 64, wBase := 0, inBase := 0, inStride := 0, outStride := 0, outBase := 0, doneAddr := 0,
    tag := 0, inputs := [[]], acc := [], ftzIn := false, ftzOut := false, buf := [], nextVa := 0, rowsOut := 0, deniedRow := none, nanOut := false, infOut := false,
    code := 0, faultAddr := 0, finished := false }
theorem test_adit_witness : (State.reset.aditOf 0).held < 64 ∧ 64 ≤ (AditSt.mk (List.replicate 64 0) none).held ∧
    (State.reset.setAdit 0 ⟨[0], none⟩).aditOf 0 = ⟨[0], none⟩ ∧ State.reset.flag (PCTL_STS_FAILED 0) = false ∧ State.reset.awake 0 = true ∧
    ((State.reset.setAdit 0 ⟨[], none⟩).aditFetch 0 0).1 = none ∧
    ((State.reset.setAdit 0 ⟨[], some ar⟩).aditOf 0).run = some ar ∧ ar.finished = false ∧ (ar.stop 0 0).finished = true ∧
    (State.reset.setFlag (PCTL_STS_FAILED 0) true).flag (PCTL_STS_FAILED 0) = true := by decide +kernel
/-- A descriptor of zeros, whose page the Adit's translation holds, can be fetched; R193 rejects it. -/
def sad : State := { ss with claims := [(0, 0x3000000)], tlb := [(0, [⟨.adit, 0, 0, 16, 0, true, true, true, true, true, false⟩, ⟨.assay, 0, 0, 16, 0, true, true, true, true, true, false⟩])] }
theorem test_adit_fetch : (sad.aditFetch 0 0).1.isSome = true ∧ ((sad.aditFetch 0 0).1.map (fun x => x.1.ok x.2 sad.vlen)) = some false := by
  decide +kernel
theorem test_adit_block : (sad.engMap (sad.aditEng 0) .read (pageFuel (min ar.wEnd (2 ^ 21))) 0 (min ar.wEnd (2 ^ 21)) []).1 = none ∧
    (let m := sad.engMap (sad.aditEng 0) .read (pageFuel (min ar.wEnd (2 ^ 21))) 0 (min ar.wEnd (2 ^ 21)) []
     (m.2.2.aditGranules 0 ar (m.2.1.flatMap EngPiece.granules)).1 = none) ∧
    (State.reset.engMap (State.reset.aditEng 0) .read (pageFuel 64) 0 64 []).1.isSome = true := by decide +kernel

/-- An awake partition admits no QUERY frame where none is READY, and its queue may be full. -/
theorem test_asy_enq_witness : State.reset.wakeNow 0 = State.reset ∧ ((State.reset.asyAdmitAll 0 64).asyOf 0).held < 64 ∧
    64 ≤ (((State.reset.setAsy 0 ⟨List.replicate 64 (.enq 0), none⟩).asyAdmitAll 0 64).asyOf 0).held := by decide +kernel
def qy : AsyRun := AsyRun.start (.enq 0)
theorem test_assay_witness : (State.reset.asyOf 0).held < 64 ∧ 64 ≤ (AsySt.mk (List.replicate 64 (.enq 0)) none).held ∧
    (let s := (State.reset.setFld (PCTL_ROLE_ROLE_ACTIVE 0) 4).setFrame 0 3 (fr .ready { fh with kind := 5 } 0)
     s.firstQuery 0 = some 3 ∧ s.role 0 = 4 ∧ (s.asyOf 0).held < 64) ∧ State.reset.firstQuery 0 = none ∧
    (State.reset.setAsy 0 ⟨[.enq 0], none⟩).asyOf 0 = ⟨[.enq 0], none⟩ ∧
    ((State.reset.setAsy 0 ⟨[], none⟩).asyRecord 0 (.enq 0) 0 64).1 ≠ none ∧ ((sad.setAsy 0 ⟨[], none⟩).asyRecord 0 (.enq 0) 0 64).1 = none ∧
    (qy.withQuery ((sad.setAsy 0 ⟨[], none⟩).asyRecord 0 (.enq 0) 0 64).2.1).2.2 = false ∧ qy.phase = .done ∧
    ({ qy with phase := .scan, stop := 64 } : AsyRun).phase ≠ .done ∧ (sad.asyRead 0 true 0 (min 64 (2 ^ 21) - 0)).1 = none ∧
    (State.reset.asyRead 0 true 0 64).1 ≠ none ∧ (fmtS.decode 0).isNan = false ∧ (fmtS.decode 0x7FC00000).isNan = true := by decide +kernel

/-! ### Memory, caches and translation -/

def rqk : ReqArgs := ⟨5, 3, 0, 0⟩
/-- Role INGRESS in partition 0, and CID 5 may read and write the first granule of the stack and of DDR5 and CXL. -/
def sm : State := { ss with claims := [(0, 0x3FFF005), (0x10000000000 / 2 ^ 21, 0x3FFF005), (0x100000000000 / 2 ^ 21, 0x3FFF005)] }
def wl (dr : Option DrainCause) : WcbEntry := ⟨0, [(0, some 7)], 0, dr, []⟩
def sw (dr : Option DrainCause) : State := sm.withMem { sm.mem with wcb := [(0, ⟨[wl dr], []⟩)] }

theorem test_memory_witness : sm.loc 0 = .stack 0 ∧ sm.loc (24 * 2 ^ 30 - 64) = .stack 0 ∧ sm.role 0 ≠ 0 ∧ oneGranule 0 64 ∧ oneGranule 63 1 ∧
    sm.claimed (reqOf rqk) 0 true false = true ∧ sm.claimed (reqOf rqk) 0 false true = true ∧ sm.mem.poisoned 0 = false ∧ sm.mem.err 0 = .none ∧
    sm.claimed (reqOf { rqk with cid := 6 }) 0 true false = false ∧ sm.claimed (reqOf { rqk with cid := 6 }) 0 false true = false ∧
    (sm.mem.wcbOf (wcbKey 0 (groupOf 0))).accepts ⟨0, [1], 0⟩ = true ∧ ((sw none).mem.wcbOf (wcbKey 0 (groupOf 0))).accepts ⟨0, [1], 0⟩ = true ∧
    (∀ e ∈ ((sw none).mem.wcbOf (wcbKey 0 (groupOf 0))).entries, e.line = 0 / 128 → e.draining = none) := by
  unfold oneGranule
  decide +kernel

theorem test_upkeep_witness : oldestLive ((sw none).mem.wcbOf (wcbKey 0 0)).entries = some (wl none) ∧ (State.reset.mem.wcbOf (wcbKey 0 0)).entries = [] ∧
    takeDraining ((sw (some .age)).mem.wcbOf (wcbKey 0 0)).entries = some (wl (some .age), []) ∧ ((sw (some .age)).mem.wcbOf (wcbKey 0 0)).stalled = [] ∧
    Tbl.wf (fun _ => (none : Option Byte)) (wl none).bytes = true ∧ (sm.setFlag (STK_CTL_SCRUB_EN 0) true).flag (STK_CTL_SCRUB_EN 0) = true ∧
    sm.flag (STK_STS_SELF_REFRESH 0) = false ∧ (sm.withMem (sm.mem.setErr 0 .ce)).mem.err 0 = .ce ∧ (sm.withMem (sm.mem.setErr 0 .ue)).mem.err 0 = .ue ∧
    (sm.setFld (PWR_PSTATE_STATE 0) 3).fld (PWR_PSTATE_STATE 0) = 3 ∧ sm.wcbUsed 0 = false := by decide +kernel
theorem test_far_witness :
    (let s := sm.setFld FAR_DDR_CFG_CH0_GIB 1
     s.loc 0x010000000000 = .ddr 0 ∧ s.loc (0x010000000000 + 2 ^ 30 - 64) = .ddr 0 ∧ s.claimed (reqOf rqk) 0x010000000000 true false = true ∧
     s.claimed (reqOf rqk) 0x010000000000 false true = true ∧ s.mem.poisoned (0x010000000000 / 64) = false) ∧
    (let s := ((sm.setFlag (FAR_CXL_WIN_CTL_EN 0) true).setFld (FAR_CXL_WIN_BASE_BASE 0) (0x100000000000 / 2 ^ 28)).setFld (FAR_CXL_WIN_CTL_SIZE_GIB 0) 1
     s.loc 0x100000000000 = .cxl 0 ∧ s.claimed (reqOf rqk) 0x100000000000 false true = true ∧ (s.fld FAR_STS_UPS).testBit 2 = false ∧
     ((s.setFld FAR_STS_UPS 4).fld FAR_STS_UPS).testBit 2 = true) := by decide +kernel

/-- A DDR5 channel of 1 GiB that serves, with a correctable and an uncorrectable error in its first granule, and a CXL access outstanding. -/
theorem test_scrub_witness : let s := (sm.setFld FAR_DDR_CFG_CH0_GIB 1).setFld FAR_STS_UPS 1
    (s.fld FAR_STS_UPS).testBit 0 = true ∧ s.ddrShare 0 (max (Tbl.get (fun _ => 0) s.mem.scrub 32) (s.ddrFirst 0)) 8 = 0 ∧ s.ddrChannel 0 = 0 ∧
    (s.withMem (s.mem.setErr (0x010000000000 / 64) .ce)).mem.err (0x010000000000 / 64) = .ce ∧
    (s.withMem (s.mem.setErr (0x010000000000 / 64) .ue)).mem.err (0x010000000000 / 64) = .ue ∧
    (s.withMem { s.mem with cxlOut := [⟨0x100000000000, 5, 3, .ok [], none⟩] }).mem.cxlOut ≠ [] ∧ sm.pmuOff = true ∧
    (sm.withMem { sm.mem with hot := [0] }).mem.hot.contains 0 = true ∧ sm.role 0 ≠ 0 := by decide +kernel

def wr0 : Writer := ⟨5, 0, 0, 0⟩
def l2l : L2Line := ⟨0, 3, 0, false, [0], [], some 0, [], wr0⟩
def l2s (x : L2St) : State := ss.setL2 0 x
theorem test_cache_witness : pickReq ([⟨2, 0, true, false⟩].filter (fun x => bankOf x.line == 0)) 3 = some ⟨2, 0, true, false⟩ ∧
    (ss.l2Of 0).full = none ∧ (l2s { l2Reset with reqs := [⟨2, 0, true, false⟩] }).l2Of 0 = { l2Reset with reqs := [⟨2, 0, true, false⟩] } ∧
    l1Find [(⟨0, 0, .m, 0, [(0, 9)], wr0⟩ : L1Line)] 0 = some ⟨0, 0, .m, 0, [(0, 9)], wr0⟩ ∧
    ((l2s { l2Reset with lines := [l2l] }).l2Of 0).find 0 = some l2l ∧
    (ss.setFlag (L2_MAINT_STS_BUSY 0 0) true).flag (L2_MAINT_STS_BUSY 0 0) = true ∧ ss.flag (L2_MAINT_STS_BUSY 0 0) = false ∧
    ss.fld (L2_MAINT_LEN_LEN 0 0) = 0 ∧ (ss.setFld (L2_MAINT_LEN_LEN 0 0) 1).fld (L2_MAINT_LEN_LEN 0 0) ≠ 0 ∧
    Tbl.get (fun _ => (none : Option MaintSt)) ((l2s { l2Reset with slots := [(0, some ⟨0, some 0x10000, []⟩)] }).l2Of 0).slots 0 = some ⟨0, some 0x10000, []⟩ ∧
    ((l2s { l2Reset with full := some true }).l2Of 0).full ≠ none ∧ (ss.setFlag (L1D_CTL_ENABLE 0 0) true).flag (L1D_CTL_ENABLE 0 0) = true ∧
    ss.flag (L1D_CTL_ENABLE 0 0) = false ∧ (ss.setFlag (L2_CTL_ENABLE 0) true).flag (L2_CTL_ENABLE 0) = true ∧ ss.flag (L2_CTL_ENABLE 0) = false ∧
    ((l2s { l2Reset with waying := true }).l2Of 0).waying = true ∧ (ss.l2Of 0).waying = false ∧ maskCount 0xFFF = 12 ∧ maskCount 0x1FFF = 13 := by
  decide +kernel

/-- With both caches on a cluster's L1D takes part in coherence, with one off it does not; partition 0 is in A0 and needs no waking. -/
theorem test_coherent_witness : (let s := (ss.setFlag (L2_CTL_ENABLE 0) true).setFlag (L1D_CTL_ENABLE 0 0) true
    s.coherent 0 0 = true ∧ s.l2On 0 = true ∧ s.l1dOn 0 0 = true) ∧ ss.coherent 0 0 = false ∧ ss.l2On 0 = false ∧
    (ss.setFlag (L2_CTL_ENABLE 0) true).l1dOn 0 0 = false ∧ ss.wakeNow 0 = ss := by decide +kernel
theorem test_claim_update_witness : ss.flag CLM_STS_BUSY = false ∧ ss.flag CLM_CTL_LOCK = false ∧ (ss.setFlag CLM_STS_BUSY true).flag CLM_STS_BUSY = true ∧
    ((ss.setFlag CLM_CTL_LOCK true).setFlag HDF_SEAL_SEALED true).flag CLM_CTL_LOCK = true ∧
    ((ss.setFlag CLM_CTL_LOCK true).setFlag HDF_SEAL_SEALED true).flag HDF_SEAL_SEALED = true ∧ ss.granulePop 0 = true ∧ ss.granulePop (2 ^ 25 - 1) = false := by
  decide +kernel
theorem test_claim_check : claimOk 0x1FFF005 5 true false = true ∧ claimOk 0x1FFF005 5 false true = false ∧ claimOk 0x3F00000 0x0AB true true = true ∧
    claimOk 0x3F00100 0x0AB true true = false := by decide

/-- A page table root of zeros faults; an entry in its own structure and in the L2 TLB is found. -/
theorem test_walk_witness : (State.reset.walk 0 5 0).1 = none ∧ tlbFind [⟨.l2, 5, 0, 16, 0, true, false, false, false, true, false⟩] .l2 5 0xFFFF =
    some ⟨.l2, 5, 0, 16, 0, true, false, false, false, true, false⟩ ∧ (∀ w, ss.loc 0 ≠ .aperture w) ∧ ss.fbit MMU_PLAIN_ALLOW_ALLOW 62 = false ∧
    (ss.setFbit MMU_PLAIN_ALLOW_ALLOW 62 true).fbit MMU_PLAIN_ALLOW_ALLOW 62 = true ∧ ss.loc 0x200000000000 = .aperture 0 ∧ ss.loc 0x23FFFFFFFFFF = .aperture 63 ∧
    ss.flag (MMU_INWIN_EN 0) = false := by
  refine ⟨by decide +kernel, by decide +kernel, fun w => ?_, by decide +kernel, by decide +kernel, by decide +kernel, by decide +kernel, by decide +kernel⟩
  rw [show ss.loc 0 = .stack 0 by decide +kernel]
  simp
/-- A walk from a cached table at address 0 reaches a readable leaf of 1 GiB. -/
theorem test_walk_leaf : (({ ss.withMem { ss.mem with bytes := [(0, 7)] } with walks := [(0, [⟨5, 2, 0, 0⟩])] } : State).walk 0 5 0x12345).1 =
    some ⟨.l2, 5, 0, 30, 0, true, false, false, false, false, false⟩ := by decide +kernel

theorem test_mmu_witness : State.reset.mmu.queue.length < 64 ∧ State.reset.mmu.queue = [] ∧ State.reset.mmu.headOn = false ∧ State.reset.mmu.waits = [] ∧
    (∀ e ∈ [(1 : BitVec 4), 2, 3, 4, 5], cmdOk [withOp 0xFFF0000 e, 0xFFFFFFFFFF0000, 0xFFFFFFFF, 0] = true) ∧ cmdOk [withOp 0x3F0000 6, 0, 0, 0] = true ∧
    64 ≤ (List.replicate 64 ([] : List (BitVec 64))).length ∧ ({ State.reset.mmu with queue := [[0]] } : MmuSt).queue = [[0]] := by decide +kernel

/-! ### Power, network and links -/

theorem test_power_witness : State.reset.idle 0 = true ∧ State.reset.awake 0 = true ∧ (State.reset.ppwr 0).entering = none ∧
    0 < (State.reset.setFld (PWR_PSTATE_TARGET 0) 3).entryState 0 ∧ (State.reset.setFld (PWR_PSTATE_TARGET 0) 3).idle 0 = true ∧
    ((State.reset.setPpwr 0 ⟨some 3, true, some 2, none, 0⟩).ppwr 0).entering = some 3 ∧ ((State.reset.setPpwr 0 ⟨some 3, true, some 2, none, 0⟩).ppwr 0).avsCmd = some 2 ∧
    ss.isStage 0 = true ∧ (ss.setFld (PWR_PSTATE_STATE 0) 3).awake 0 = false ∧ (ss.setFlag (PWR_PSTATE_WAKING 0) true).flag (PWR_PSTATE_WAKING 0) = true ∧
    State.reset.noSequence = true ∧ (State.reset.setFlag (CLK_PCLK_STS_TRANSITION 0) true).flag (CLK_PCLK_STS_TRANSITION 0) = true ∧
    State.reset.fld (PWR_THERM_LEVEL 0) ≤ 4 := by decide +kernel

/-- Function 0 in D3hot, every partition idle, no sequence in flight. -/
theorem test_quiesce_witness : (let s : State := { State.reset with pwr := { State.reset.pwr with d3 := [0] } }
    0 ∈ s.pwr.d3 ∧ s.noSequence = true ∧ ∀ p : Part, s.idle p = true) := by decide +kernel
/-- A header of one flit from stop `src` to stop `dst`; stop 0 is a cluster's, 72 a controller's. -/
def hd (dst src vc : Nat) : BitVec 64 := BitVec.ofNat 64 (dst + 2 ^ 9 * src + 2 ^ 18 * vc)
def mp (vc : Nat) (e : FlitErr) : MeshPkt := ⟨hd 0 72 vc, [], e, 0, 1, true, none⟩
/-- The packet has reached its stop. -/
def sn (k : MeshPkt) : State := State.reset.withMesh { MeshSt.empty with pkts := [(0, some k)], landed := [0] }
theorem test_mesh_witness : trvOk ⟨hd 0 72 1, 0, [], .none⟩ = true ∧ trvOk ⟨hd 384 72 1, 0, [], .none⟩ = false ∧
    (sn (mp 1 .none)).net.mesh.landed = [0] ∧ (sn (mp 1 .none)).net.mesh.pkt 0 = some (mp 1 .none) ∧ (sn (mp 1 .none)).sinkReady (hd 0 72 1) = false ∧
    (sn (mp 1 .none)).respDropped (hd 0 72 1) = false ∧ hdrPoison (hd 0 72 1) = false ∧ hdrPoison (hd 0 72 1 ||| (1 <<< 56)) = true ∧
    ((sn (mp 1 .none)).withNet { (sn (mp 1 .none)).net with timedOut := [(0, 0)] }).respDropped (hd 0 72 1) = true ∧ stopKind 0 = .cluster 0 0 ∧
    hdrVc (hd 0 72 0) ≠ 1 ∧ errAt (.single 5 2 4) 1 5 2 4 0 = .single 5 2 4 ∧ errAt (.payload 5 2 4) 3 5 2 4 1 = .payload 5 2 4 ∧
    errAt (.payload 5 2 4) 1 5 2 4 0 = .payload 5 2 4 ∧ errAt (.head 5 2 4) 1 5 2 4 0 = .head 5 2 4 ∧ (mp 1 .none).dropAt ≠ some (0 / 6 % 192) := by
  decide +kernel
def tq (w : List TokReq) (g : List TokGrant) (u : List TokUse) : State := State.reset.setTok (tokKey 72 0) ⟨w, g, u, []⟩
def tx (s : State) : TokSt := (s.tokOf (tokKey 72 0)).prune s.net.mesh.cyc
theorem test_token_witness : (tokensOf 72 0 0).2 = (64, 4) ∧ (tx (tq [] [] [])).poolOut 0 0 < 4 ∧
    ((tx (tq (List.replicate 4 ⟨0, 0, 0⟩) [] [])).waiting.filter (fun r => r.stop == 0)).length = 4 ∧
    (tx (tq [] [] [⟨0, true, 7⟩])).held.find? (fun u => u.stop == 0 && ((tq [] [] []).net.mesh.pkt u.pkt).isNone) = some ⟨0, true, 7⟩ ∧
    (tx (tq [⟨0, 0, 0⟩] [] [])).outAll 0 < 64 ∧ (tx (tq [⟨0, 0, 0⟩] [] [])).waiting = [⟨0, 0, 0⟩] ∧
    64 ≤ (tx (tq [⟨0, 0, 0⟩] (List.replicate 64 ⟨1, 0⟩) [])).outAll 0 ∧ (State.reset.plat 0).waiting = [] ∧
    ((State.reset.setPlat 0 { platReset with waiting := [.put fh] }).plat 0).waiting = [.put fh] ∧
    (State.reset.setPlat 0 { platReset with waiting := [.put fh] }).freeFrame 0 = some 0 ∧
    ((State.reset.setPlat 0 { platReset with waiting := [.token 1 2] }).plat 0).waiting = [.token 1 2] ∧
    (State.reset.setPlat 0 { platReset with waiting := [.token 1 2] }).freeFrame 0 = some 0 ∧ (∀ p c, stopKind 72 ≠ .cluster p c) :=
  ⟨by decide +kernel, by decide +kernel, by decide +kernel, by decide +kernel, by decide +kernel, by decide +kernel, by decide +kernel,
    by decide +kernel, by decide +kernel, by decide +kernel, by decide +kernel, by decide +kernel, by
      intro p c
      rw [show stopKind 72 = .controller 0 0 by decide +kernel]
      simp⟩
/-- A state of empty pools meets the invariant of the pools. -/
theorem test_pool_witness (tgt : BitVec 9) (vc : BitVec 3) (st : Nat) : let x := State.reset.tokOf (tokKey tgt.toNat vc.toNat)
    x.outAll State.reset.net.mesh.cyc = 0 ∧ (x.waiting.filter (fun r => r.stop == st)).length + x.poolOut st State.reset.net.mesh.cyc = 0 :=
  ⟨rfl, rfl⟩

def fl : FlitArgs := ⟨0, List.replicate 248 0, 0, 0, true⟩
def lk (l : LinkSt) : State := State.reset.setLink 0 l
theorem test_link_witness : bitsOf fl.hdr.toNat 21 2 = 0 ∧ bitsOf fl.hdr.toNat 0 16 = State.reset.fld (LNK_SEQ_RX_E 0) ∧
    bitsOf 0xFFFF 0 16 ≠ State.reset.fld (LNK_SEQ_RX_E 0) ∧ crc32c (bytesLE 4 0 ++ [1]) = 0xB719F536 ∧ (flitPkts (lk linkReset |>.linkOf 0).part (bitsOf fl.hdr.toNat 16 5) fl.payload).1 = [] ∧
    (let l := { linkReset with held := [⟨0xFFFF, 0, []⟩, ⟨0, 0, []⟩], replaySeq := 0xFFFF, replays := 3 }
     ((lk l).linkOf 0).held = [⟨0xFFFF, 0, []⟩, ⟨0, 0, []⟩] ∧ ((lk l).linkOf 0).queue = [] ∧ ((lk l).linkOf 0).stream = [] ∧ ((lk l).linkOf 0).timed = false ∧ ((lk { l with timed := true }).linkOf 0).timed = true ∧ serialLe 16 0xFFFF 0 = true ∧ 3 ≤ ((lk l).linkOf 0).replays ∧
     ((lk { l with replays := 2 }).linkOf 0).replays < 3) := by decide +kernel
theorem test_training_witness : State.reset.flag (LNK_STS_TRAINING 0) = false ∧
    ((lk { linkReset with tries := 2 }).setFlag (LNK_STS_TRAINING 0) true).flag (LNK_STS_TRAINING 0) = true ∧ ((lk { linkReset with tries := 2 }).linkOf 0).tries = 2 ∧
    (State.reset.setFlag (LNK_CTL_EN 0) true).flag (LNK_CTL_EN 0) = true ∧ (State.reset.setFlag (LNK_CTL_ALLOW_4 0) true).flag (LNK_CTL_ALLOW_4 0) = true ∧
    (State.reset.setFlag (LNK_ROUTE_V 62) true).hasRoute 62 = true ∧ State.reset.hasRoute 0 = false ∧ State.reset.hasRoute 63 = false ∧
    (State.reset.putCtxs 0 0 1 0) = [] ∧ State.reset.act (LNK_ROUTE_PACK 1) = 0 ∧ State.reset.flag (LNK_STS_UP 0) = false := by decide +kernel

/-- A route that is there and one that is not, a frame that is free and a plat without one, and a put that waits for its token. -/
theorem test_remote_witness : State.reset.hasRoute 62 = false ∧ ((State.reset.setFlag (LNK_ROUTE_V 62) true).putDrain 0).hasRoute 62 = true ∧
    State.reset.freeFrame 0 ≠ none ∧ full.freeFrame 0 = none ∧
    (let r : RemPut := ⟨0, 62, 3, fh, List.replicate 64 0⟩
     let s := (State.reset.setFlag (LNK_ROUTE_V 62) true).withNet { State.reset.net with remPuts := [r] }
     s.net.remPuts = [] ++ r :: [] ∧ s.hasRoute 62 = true ∧ s.flag (LNK_STS_UP (s.fld (LNK_ROUTE_PORT 62))) = false ∧ s.act (LNK_ROUTE_PACK 62) = 0 ∧
       s.putCtxs 0 0 62 3 = []) := by decide +kernel

/-! ### Boot, host interface and pins -/

def sb (step : Nat) : State := State.reset.withBoot { State.reset.boot with held := false, step := step, copy := 1 }
theorem test_boot_witness : State.reset.boot.held = true ∧ State.reset.thermtrip = false ∧ State.reset.inReset = true ∧ (sb 2).inReset = false ∧
    (sb 2).boot.b2done = false ∧ (sb 2).boot.hdr = [] ∧ hdrOk [] = false ∧ (sb 1).b1Done = false ∧
    (({ sb 1 with beat := sl.beat }).setFlag CLK_REF_STS_OCLK_TRIMMED true).b1Done = true ∧
    (let s := (sb 2).withBoot { (sb 2).boot with b3 := .run, linked := true }
     s.boot.b3 = .run ∧ s.early.applied = false ∧ ({ s with early := { s.early with applied := true } } : State).early.applied = true) ∧
    (sb 6).boot.sub = 0 ∧ (sb 6).portsSettled = true ∧ (((sb 6).setFlag (LNK_CTL_EN 0) true).setFlag (LNK_STS_TRAINING 0) true).portsSettled = false ∧
    ((sb 7).withBoot { (sb 7).boot with sub := 1, copy := 2 }).boot.sub = 1 ∧
    ((sb 8).setFlag HDF_IMAGE_STS_WAIT_HOST true).flag HDF_IMAGE_STS_WAIT_HOST = true ∧ (sb 8).flag HDF_IMAGE_STS_WAIT_HOST = false ∧
    (sb 9).running = false ∧ (sb 9).boot.step = 9 ∧ (sb 9).fld (PCTL_CMD_CMD 0) = 0 ∧ (sb 9).role 0 = 0 ∧ (sb 9).plats = [] ∧
    (sb 9).tripped = false ∧ State.reset.tripped = false ∧ (∀ q : Part, (sb 9).fld (PCTL_CMD_CMD q) = 0) := by decide +kernel

/-- A header without fault, of device 0x4130 masked out, and an EARLY section at the least sizes it allows. -/
def hdrBytes : List Byte := bytesLE 4 0x4B50444C ++ bytesLE 2 1 ++ bytesLE 2 256 ++ List.replicate 248 0
def earlyBytes : List Byte := [0, 0, 0, 0, 1, 1, 0, 30, 21, 0, 1, 0, 0, 0] ++ List.replicate 50 0
theorem test_image_header_witness : hdrOk hdrBytes = true ∧ (sb 2).devOk hdrBytes = true ∧ (sb 2).devOk (hdrBytes.set 0x12 1 |>.set 0x10 1) = false ∧
    (sb 2).keyOk hdrBytes [] = false ∧ tableOk hdrBytes [] = false ∧ earlyOk earlyBytes = true ∧ earlyOk [] = false ∧ hdrBytes ≠ [] := by decide +kernel

def man : ManEnt := ⟨0, 0, 0, 0, 64, [], some 0, false⟩
theorem test_manifest_witness : (let s := ((sb 8).withBoot { (sb 8).boot with man := [man], data := [(0, List.replicate 64 1)] }).setDma 0 ⟨true, some 0⟩
    (s.dmaOf 0).entry = some 0 ∧ s.boot.man[0]? = some man ∧ (s.setFlag (DMA_STS_BUSY 0) true).flag (DMA_STS_BUSY 0) = true ∧
    (s.manRead man).1 = .ok (List.replicate 64 1)) ∧
    ((let s := (ss.withBoot { (sb 8).boot with man := [man], data := [(0, List.replicate 64 1)] })
      ((s.manRead man).2.localWrite ((s.manRead man).2.sysReq 7 0) true 0 (List.replicate 64 1)).1) = .ok []) := by decide +kernel

def se : State := { sb 10 with early := { State.reset.early with applied := true, numVfs := 1, bar2Log2 := 40, vfBar2Log2 := 35, msixPf := 256 } }
theorem test_host_witness : (sb 10).early.applied = false ∧ se.early.applied = true ∧ se.early.numVfs < 2 ∧ se.inReset = false ∧ se.ucieLost = false ∧
    se.vfPart 0 = none ∧ (((se.setFlag (PCTL_TENANT_BIND_EN 3) true).setFld (PCTL_TENANT_VF 3) 0).vfPart 0) = some 3 ∧ (se.masterOf .pf).held = none ∧
    (se.masterOf .pf).shadow = none ∧ (regAt 0x40020).isSome = true ∧ wakes 0x40020 = none ∧ 0x0FF8 < 16 * se.early.msixPf ∧
    (PIN_MUX_FUNC 0).addr ≠ 0 ∧ se.fld (PIN_MUX_FUNC 6) ≠ 1 ∧ se.isGpio 0 = (se.fld (PIN_MUX_FUNC 0) == 0) ∧ se.fbit PIN_GPIO_OE_OE 0 = false ∧
    se.flag HDF_SEAL_SEALED = false ∧ (se.setFlag HDF_SEAL_SEALED true).bar2Map 0 (2 ^ 40 - 64) 64 = some (2 ^ 40 - 64, ⟨se.fld MMU_HOST_CID_CID, 4, 0, se.chip, sourceStop 4 0⟩) := by
  decide +kernel
def qh : Req := ⟨5, 4, 0, 0, sourceStop 4 0⟩
def shb : State := { (ss.setFlag HDF_SEAL_SEALED true).setFld MMU_HOST_CID_CID 5 with early := se.early, boot := (sb 10).boot }
theorem test_window_witness : shb.bar2Map 0 0 64 = some (0, qh) ∧ shb.loc 0 = .stack 0 ∧ shb.role 0 ≠ 0 ∧ shb.claimed qh 0 true false = true ∧
    shb.claimed qh 0 false true = true ∧ shb.commitSlots 0 64 = [] ∧ (shb.mem.wcbOf (wcbKey 0 (groupOf 0))).accepts ⟨0, [1], 0⟩ = true ∧
    ({ shb with claims := [] } : State).claimed qh 0 true false = false ∧ shb.pmuOff = true ∧ 0 ∉ shb.pwr.d3 ∧
    (let s : State := { shb with pwr := { shb.pwr with d3 := [0] } }; 0 ∈ s.pwr.d3) := by decide +kernel

theorem test_dma_witness : se.flag (DMA_CTL_GO 0) = false ∧ se.flag (DMA_STS_BUSY 0) = false ∧ (se.setFlag (DMA_STS_BUSY 0) true).flag (DMA_STS_BUSY 0) = true ∧
    (se.dmaOf 0).entry = none ∧ se.dmaCtxs 0 0 = [] ∧ se.dmaCtxs 1 0 = [] ∧ se.hostFails 0 64 = false ∧
    (let s := ((se.setFld (DMA_LEN_LEN 0) 64).setFlag (DMA_CTL_SRC_HOST 0) true).setFlag (DMA_CTL_DST_HOST 0) true
     s.fld (DMA_LEN_LEN 0) = 64 ∧ s.dword (DMA_SRC_ADDR 0).addr % 64 = 0 ∧ s.flag (DMA_CTL_SRC_HOST 0) = true ∧ s.flag (DMA_CTL_DST_HOST 0) = true) ∧
    255 < se.msixCount 0 ∧ 16 * 255 + 12 < pbaBase 0 ∧ se.evt.stopped = false ∧ se.flag EVT_CTL_EN = false ∧
    (se.setFlag EVT_CTL_EN true).flag EVT_CTL_EN = true ∧ se.fld EVT_CTL_OWNER = 0 ∧ se.hostErr = [] ∧
    ((se.setFld EVT_LOG_HEAD_SEQ 4096).fld EVT_LOG_HEAD_SEQ + 2 ^ 32 - se.fld EVT_LOG_ACK_SEQ) % 2 ^ 32 = 4096 := by decide +kernel

/-- Headframe at any time and the physical function after the seal write registers. -/
theorem test_writers : se.writesAs .headframe ∧ (se.setFlag HDF_SEAL_SEALED true).writesAs .pf :=
  ⟨⟨by decide +kernel, by decide +kernel, .inl rfl, fun _ => rfl⟩, ⟨by decide +kernel, by decide +kernel, .inr ⟨rfl, by decide +kernel⟩, fun _ => rfl⟩⟩
theorem test_register_witness : reservedByte 0x2000 = true ∧ (∀ i, i < 4 → reservedByte (0x2000 + i) = true) ∧
    ({ se with masters := [(masterKey .pf, ⟨none, some ⟨0x20058, 1⟩⟩)] } : State).masterOf .pf = ⟨none, some ⟨0x20058, 1⟩⟩ ∧
    ({ se with masters := [(masterKey .pf, ⟨some ⟨0x20048, 1⟩, none⟩)] } : State).masterOf .pf = ⟨some ⟨0x20048, 1⟩, none⟩ ∧
    (se.setFlag (PCTL_TENANT_BIND_EN 0) true).cluReach h0 0x40020 true = false ∧ ss.isRegs ⟨0x3F0000000000, false⟩ = true ∧
    ((inCluster { ks with mon := false }).own h0).mon = false ∧ se.winAfter 0x20058 .pf = 0 := by decide +kernel

theorem test_partition_witness : se.flag (PCTL_STS_FAILED 0) = false ∧ se.winOthers (PCTL_CMD_CMD 0).addr .pf = [] ∧
    ({ se with win := ⟨se.winIdx, [⟨(PCTL_CMD_CMD 0).addr, .headframe, 3⟩]⟩ } : State).winOthers (PCTL_CMD_CMD 0).addr .pf = [3] ∧
    (se.setFlag HDF_SEAL_SEALED true).scopeOpen .pf 2 = false ∧
    (((se.setFlag HDF_SEAL_SEALED true).setFlag SEC_DBG_STS_UNLOCKED true).setFld SEC_DBG_STS_SCOPE_ACTIVE 4).scopeOpen .pf 2 = true ∧
    (se.setFld (PIN_MUX_FUNC 8) 1).isAlt 8 = true ∧ (se.setFld (PIN_MUX_FUNC 8) 1).fld (DBG_TRIG_DIR 0) = 0 ∧ se.dbg.op = none ∧
    (se.setFlag HDF_SEAL_RUN true).flag HDF_SEAL_RUN = true := by decide +kernel

end Sys2Proof.Tests
end

section
/-!
SUPPORT. The part of a state that the Admission Port, its slots and the beat use, and that the event log, messages and accesses to
memory leave it: the registers they write lie above the block of the Admission Port.
-/
namespace Sys2Proof.Machine

/-! ### Flags and fields -/

/-- A one-bit field reads as it was last written. -/
theorem State.flag_setFlag_same (s : State) (f : Fld) (b : Bool) (hl : f.lo + f.w ≤ 32) (hw : f.w = 1) :
    (s.setFlag f b).flag f = b := by
  rw [State.flag, State.setFlag, State.fld_setFld_same _ _ _ hl, hw]
  cases b <;> rfl

/-- Writing a field leaves every one-bit field apart from it. -/
theorem State.flag_setFld_apart (s : State) (f g : Fld) (v : Nat) (hf : f.lo + f.w ≤ 32) (hg : g.lo + g.w ≤ 32)
    (h : g.addr ≠ f.addr ∨ g.lo + g.w ≤ f.lo ∨ f.lo + f.w ≤ g.lo) : (s.setFld f v).flag g = s.flag g := by
  rw [State.flag, State.fld_setFld_apart _ _ _ _ hf hg h, State.flag]

/-- Writing a one-bit field leaves every one-bit field apart from it. -/
theorem State.flag_setFlag_apart (s : State) (f g : Fld) (b : Bool) (hf : f.lo + f.w ≤ 32) (hg : g.lo + g.w ≤ 32)
    (h : g.addr ≠ f.addr ∨ g.lo + g.w ≤ f.lo ∨ f.lo + f.w ≤ g.lo) : (s.setFlag f b).flag g = s.flag g :=
  State.flag_setFld_apart s f g _ hf hg h

/-- A field depends on the register words alone. -/
theorem State.fld_of_regs {s t : State} (h : t.regs = s.regs) (f : Fld) : t.fld f = s.fld f := by
  simp only [State.fld, State.dword, State.word, h]

/-- A one-bit field depends on the register words alone. -/
theorem State.flag_of_regs {s t : State} (h : t.regs = s.regs) (f : Fld) : t.flag f = s.flag f := by
  rw [State.flag, State.fld_of_regs h, State.flag]

/-! ### The view -/

/-- What the Admission Port and its slots have of a state: the class tables, the slots, the beat and the register words below the event
log's block, so those of Headframe, clock, beat, power, admission and tally. -/
def State.admView (s : State) : AdmSt × Tbl SlotRec × BeatSt × (Nat → BitVec 32) :=
  (s.adm, s.slots, s.beat, fun a => if a < 0x60000 then s.word a else 0)

/-- States that agree in the view's fields have one view. -/
theorem State.admView_eq {s t : State} (ha : t.adm = s.adm) (hs : t.slots = s.slots) (hb : t.beat = s.beat)
    (hr : ∀ a < 0x60000, t.word a = s.word a) : t.admView = s.admView := by
  have hw : (fun a => if a < 0x60000 then t.word a else 0) = fun a => if a < 0x60000 then s.word a else 0 := by
    funext a
    split
    · next h => exact hr a h
    · rfl
  rw [State.admView, State.admView, ha, hs, hb, hw]

/-- An update that touches none of the view's fields leaves it. -/
theorem State.admView_of_regs {s t : State} (ha : t.adm = s.adm) (hs : t.slots = s.slots) (hb : t.beat = s.beat)
    (hr : t.regs = s.regs) : t.admView = s.admView :=
  State.admView_eq ha hs hb (fun a _ => by rw [State.word, hr, State.word])

section View
variable {s t : State} (h : t.admView = s.admView)
include h

/-- One view, one set of class tables. -/
theorem State.adm_of_admView : t.adm = s.adm := congrArg (fun v => v.1) h

/-- One view, the same slots. -/
theorem State.slots_of_admView : t.slots = s.slots := congrArg (fun v => v.2.1) h

/-- One view, one record of each slot. -/
theorem State.slot_of_admView (k : Nat) : t.slot k = s.slot k := by
  rw [State.slot, State.slots_of_admView h, State.slot]

/-- One view, one beat. -/
theorem State.beat_of_admView : t.beat = s.beat := congrArg (fun v => v.2.2.1) h

/-- One view, the same words of the registers below the event log's. -/
theorem State.word_of_admView {a : Nat} (ha : a < 0x60000) : t.word a = s.word a := by
  have := congrFun (congrArg (fun v => v.2.2.2) h) a
  simpa [State.admView, ha] using this

/-- One view, the same fields of the registers below the event log's. -/
theorem State.fld_of_admView (f : Fld) (hf : f.addr + 4 < 0x60000) : t.fld f = s.fld f := by
  simp only [State.fld, State.dword, State.word_of_admView h (show f.addr < 0x60000 by omega), State.word_of_admView h hf]

/-- One view, the same one-bit fields of the registers below the event log's. -/
theorem State.flag_of_admView (f : Fld) (hf : f.addr + 4 < 0x60000) : t.flag f = s.flag f := by
  rw [State.flag, State.fld_of_admView h f hf, State.flag]

end View

/-! ### What leaves the view

One simp lemma for each operation, in the order of the model's definitions. -/

/-- A fold of steps that each leave the view leaves it. -/
theorem State.admView_foldl {α : Type} (f : State → α → State) (hf : ∀ s x, (f s x).admView = s.admView) (l : List α) (s : State) :
    (l.foldl f s).admView = s.admView := by
  induction l generalizing s with
  | nil => rfl
  | cons x l ih => exact (ih _).trans (hf s x)

/-- Writing a field of a register above the view leaves it. -/
@[simp] theorem State.admView_setFld (s : State) {a lo w : Nat} (v : Nat) (ha : 0x60000 ≤ a) :
    (s.setFld ⟨a, lo, w⟩ v).admView = s.admView :=
  State.admView_eq (by simp) (by simp) (by simp) (fun b hb => State.word_setFld_ne s _ v b ⟨by simp; omega, .inr (by simp; omega)⟩)

@[simp] theorem State.admView_setFlag (s : State) {a lo w : Nat} (b : Bool) (ha : 0x60000 ≤ a) :
    (s.setFlag ⟨a, lo, w⟩ b).admView = s.admView := State.admView_setFld s _ ha

@[simp] theorem State.admView_setFbit (s : State) {a lo w : Nat} (i : Nat) (b : Bool) (ha : 0x60000 ≤ a) :
    (s.setFbit ⟨a, lo, w⟩ i b).admView = s.admView := State.admView_setFld s _ ha

@[simp] theorem State.admView_countUp (s : State) {a lo w : Nat} (ha : 0x60000 ≤ a) :
    (s.countUp ⟨a, lo, w⟩).admView = s.admView := State.admView_setFld s _ ha

@[simp] theorem State.admView_countBy (s : State) {a lo w : Nat} (n : Nat) (ha : 0x60000 ≤ a) :
    (s.countBy ⟨a, lo, w⟩ n).admView = s.admView := State.admView_setFld s _ ha

@[simp] theorem State.admView_countSat (s : State) {a lo w : Nat} (ha : 0x60000 ≤ a) :
    (s.countSat ⟨a, lo, w⟩).admView = s.admView := State.admView_setFld s _ ha

/-- Registers of a partition's window lie above the view. -/
@[simp] theorem viewTop_le_partBase_add (n a : Nat) : 0x60000 ≤ partBase n + a := by unfold partBase; omega

/-- A register of an array that begins above the view lies above it. -/
@[simp] theorem viewTop_le_add {a : Nat} (b : Nat) (h : 0x60000 ≤ a) : 0x60000 ≤ a + b := Nat.le_add_right_of_le h

@[simp] theorem State.admView_withMem (s : State) (m : MemSt) : (s.withMem m).admView = s.admView :=
  State.admView_of_regs rfl rfl rfl rfl
@[simp] theorem State.admView_withNet (s : State) (x : NetSt) : (s.withNet x).admView = s.admView :=
  State.admView_of_regs rfl rfl rfl rfl
@[simp] theorem State.admView_setLink (s : State) (p : Nat) (l : LinkSt) : (s.setLink p l).admView = s.admView :=
  State.admView_of_regs rfl rfl rfl rfl
@[simp] theorem State.admView_setMsix (s : State) (f : Nat) (m : MsixSt) : (s.setMsix f m).admView = s.admView :=
  State.admView_of_regs rfl rfl rfl rfl
@[simp] theorem State.admView_send (s : State) (m : OutMsg) : (s.send m).admView = s.admView :=
  State.admView_of_regs rfl rfl rfl rfl
@[simp] theorem State.admView_useEnd (s : State) (u : TransUse) : (s.useEnd u).admView = s.admView :=
  State.admView_of_regs rfl rfl rfl rfl
@[simp] theorem State.admView_fresh (s : State) : s.fresh.2.admView = s.admView :=
  State.admView_of_regs rfl rfl rfl rfl
@[simp] theorem State.admView_evt (s : State) (x : EvtSt) : State.admView { s with evt := x } = s.admView :=
  State.admView_of_regs rfl rfl rfl rfl
@[simp] theorem State.admView_hostMem (s : State) (x : Mem) : State.admView { s with hostMem := x } = s.admView :=
  State.admView_of_regs rfl rfl rfl rfl
@[simp] theorem State.admView_freeCtr (s : State) (x : Nat) : State.admView { s with freeCtr := x } = s.admView :=
  State.admView_of_regs rfl rfl rfl rfl

/-! ### Messages and the event log -/

@[simp] theorem State.admView_raiseFn (s : State) (fn n v : Nat) : (s.raiseFn fn n v).admView = s.admView := by
  unfold State.raiseFn
  extract_lets m
  split
  · rfl
  · split
    · split <;> simp
    · simp

@[simp] theorem State.admView_raise (s : State) (v : Nat) : (s.raise v).admView = s.admView := by simp [State.raise]

@[simp] theorem State.admView_raisePart (s : State) (p a b : Nat) : (s.raisePart p a b).admView = s.admView := by
  unfold State.raisePart
  split
  · split <;> simp
  · simp

@[simp] theorem State.admView_ringWrite (s : State) (e : Event) : (s.ringWrite e).admView = s.admView := by
  unfold State.ringWrite
  extract_lets head a _ _ s1 full s2 s3 _
  have h3 : s3.admView = s.admView := by
    have h2 : s2.admView = s.admView := by
      unfold s2
      split
      · simp [s1]
      · rfl
    simp [s3, h2]
  split
  · exact (State.admView_evt _ _).trans (State.admView_setFlag s _ (by decide))
  · split
    · exact (State.admView_raise _ _).trans ((State.admView_evt _ _).trans h3)
    · exact h3

@[simp] theorem State.admView_holdEvent (s : State) (e : Event) : (s.holdEvent e).admView = s.admView := by
  unfold State.holdEvent
  split
  · exact State.admView_countSat _ (by decide)
  · rfl

@[simp] theorem State.admView_logEvent (s : State) (e : Event) : (s.logEvent e).admView = s.admView := by
  unfold State.logEvent
  split <;> simp

@[simp] theorem State.admView_logD (s : State) (k : EvKind) (b a : Nat) (d : List Nat) : (s.logD k b a d).admView = s.admView :=
  State.admView_logEvent _ _

/-! ### Claims and error reports -/

@[simp] theorem State.admView_deny (s : State) (q : Req) (pa : Nat) (w : Bool) : (s.deny q pa w).admView = s.admView := by
  simp [State.deny, apply_ite State.admView]

@[simp] theorem State.admView_abortAt (s : State) (q : Req) (a : Nat) (w : Bool) : (s.abortAt q a w).admView = s.admView := by
  unfold State.abortAt
  split <;> simp

@[simp] theorem State.admView_ceAt (s : State) (a : Nat) : (s.ceAt a).admView = s.admView := by
  unfold State.ceAt
  split <;> simp [apply_ite State.admView]

@[simp] theorem State.admView_ueAt (s : State) (q : Req) (a : Nat) : (s.ueAt q a).admView = s.admView := by
  unfold State.ueAt
  split <;> simp [apply_ite State.admView]

@[simp] theorem State.admView_rdBytes (s : State) (a n : Nat) : (s.rdBytes a n).admView = s.admView := by
  unfold State.rdBytes
  split <;> simp

@[simp] theorem State.admView_wrBytes (s : State) (a n : Nat) : (s.wrBytes a n).admView = s.admView := by
  unfold State.wrBytes
  split <;> simp

@[simp] theorem State.admView_granuleRead (s : State) (q : Req) (a : Nat) : (s.granuleRead q a).2.admView = s.admView := by
  unfold State.granuleRead
  extract_lets g s1
  split
  · simp [s1]
  · split <;> simp [s1]

@[simp] theorem State.admView_exitSr (s : State) (a : Nat) : (s.exitSr a).admView = s.admView := by
  unfold State.exitSr
  split
  · split <;> simp
  · rfl

/-! ### The Traverse's counters -/

@[simp] theorem State.admView_pmuAdd (s : State) (k n : Nat) : (s.pmuAdd k n).admView = s.admView := by
  simp [State.pmuAdd, apply_ite State.admView]

@[simp] theorem State.admView_pmuEvent (s : State) (ev n : Nat) (at_ : Nat → Bool) (vc : Option Nat) :
    (s.pmuEvent ev n at_ vc).admView = s.admView :=
  State.admView_foldl _ (fun t k => by simp [apply_ite State.admView]) _ s

@[simp] theorem State.admView_trvUse (s : State) (src dst vc flits : Nat) : (s.trvUse src dst vc flits).admView = s.admView := by
  unfold State.trvUse
  split
  · rfl
  · exact (State.admView_foldl _ (fun t r => by simp) _ _).trans (by simp)

@[simp] theorem State.admView_trvMem (s : State) (q : Req) (a : Nat) : (s.trvMem q a).admView = s.admView := by
  unfold State.trvMem
  split <;> simp

/-! ### Write combining -/

@[simp] theorem State.admView_countDrain (s : State) (k : Nat) (c : DrainCause) : (s.countDrain k c).admView = s.admView :=
  State.admView_countUp s (by simp)

@[simp] theorem State.admView_startDrain (s : State) (k : Nat) (c : DrainCause) (f : WcbEntry → Bool) :
    (s.startDrain k c f).admView = s.admView :=
  State.admView_foldl _ (fun t _ => State.admView_countDrain t k c) _ _

@[simp] theorem State.admView_wcbMerge (s : State) (k : Nat) (w : WcbWrite) : (s.wcbMerge k w).admView = s.admView := by
  simp [State.wcbMerge, State.drainFull]

@[simp] theorem State.admView_drainCapacity (s : State) (k : Nat) : (s.drainCapacity k).admView = s.admView := by
  unfold State.drainCapacity
  extract_lets g
  split
  · split <;> simp
  · rfl

@[simp] theorem State.admView_wcbArrive (s : State) (k : Nat) (w : WcbWrite) : (s.wcbArrive k w).admView = s.admView := by
  unfold State.wcbArrive
  extract_lets g
  split <;> simp

@[simp] theorem State.admView_ackMerged (s : State) (id : Nat) : (s.ackMerged id).admView = s.admView := by
  unfold State.ackMerged
  split <;> simp

@[simp] theorem State.admView_retryStalled (s : State) (k : Nat) (l : List WcbWrite) : (s.retryStalled k l).admView = s.admView := by
  induction l generalizing s with
  | nil => rfl
  | cons w l ih =>
    unfold State.retryStalled
    extract_lets g
    split <;> simp [ih]

@[simp] theorem State.admView_drainAnswer (s : State) (r : DrainReq) : (s.drainAnswer r).admView = s.admView := by
  unfold State.drainAnswer
  split
  case h_1 => split <;> simp
  all_goals simp

@[simp] theorem State.admView_answerDrains (s : State) : s.answerDrains.admView = s.admView :=
  State.admView_foldl _ State.admView_drainAnswer _ _

@[simp] theorem State.admView_drainHalf (s : State) (k : Nat) (e : WcbEntry) (h : Nat) : (s.drainHalf k e h).admView = s.admView := by
  unfold State.drainHalf
  extract_lets a n m0 q r s1 m s2
  have h2 : s2.admView = s.admView := by simp [s2, s1, r]
  split
  · rfl
  · split
    · simp
    · split
      · exact h2
      · exact (State.admView_logD ..).trans h2

@[simp] theorem State.admView_freeEntry (s : State) (k : Nat) : (s.freeEntry k).admView = s.admView := by
  unfold State.freeEntry
  extract_lets g
  split
  · rfl
  · simp

@[simp] theorem State.admView_freeEntries (s : State) (k n : Nat) : (s.freeEntries k n).admView = s.admView := by
  induction n generalizing s with
  | zero => rfl
  | succ n ih =>
    unfold State.freeEntries
    split <;> simp [ih]

@[simp] theorem State.admView_wcbWait (s : State) (k : Nat) (w : WcbWrite) : (s.wcbWait k w).admView = s.admView := by
  unfold State.wcbWait
  extract_lets s1
  split <;> simp [s1]

/-! ### Reads and writes of this chip's memory -/

@[simp] theorem State.admView_readPiece (s : State) (q : Req) (bulk : Bool) (a n : Nat) :
    (s.readPiece q bulk a n).2.admView = s.admView := by
  simp only [State.readPiece]
  split
  · simp [apply_ite State.admView, apply_ite Prod.snd]
  · split <;> simp
  · simp

@[simp] theorem State.admView_readPieces (s : State) (q : Req) (bulk : Bool) (l : List (Nat × Nat)) (acc : List Byte) :
    (s.readPieces q bulk l acc).2.admView = s.admView := by
  induction l generalizing s acc with
  | nil => rfl
  | cons p l ih =>
    obtain ⟨a, n⟩ := p
    unfold State.readPieces
    extract_lets r
    have hr : r.2.admView = s.admView := State.admView_readPiece ..
    split
    · exact (ih _ _).trans hr
    · exact hr

@[simp] theorem State.admView_localRead (s : State) (q : Req) (bulk : Bool) (a n : Nat) :
    (s.localRead q bulk a n).2.admView = s.admView := by
  unfold State.localRead
  extract_lets ps
  split <;> simp

@[simp] theorem State.admView_writePiece (s : State) (q : Req) (wait : Bool) (a : Nat) (d : List Byte) :
    (s.writePiece q wait a d).2.admView = s.admView := by
  simp only [State.writePiece]
  split
  · simp [apply_ite State.admView]
  · split <;> simp
  · simp

@[simp] theorem State.admView_writePieces (s : State) (q : Req) (wait : Bool) (l : List (Nat × Nat)) (d : List Byte) (ue : Option Nat) :
    (s.writePieces q wait l d ue).2.admView = s.admView := by
  induction l generalizing s d ue with
  | nil => rfl
  | cons p l ih =>
    obtain ⟨a, n⟩ := p
    unfold State.writePieces
    split <;> simp [ih]

@[simp] theorem State.admView_localWrite (s : State) (q : Req) (wait : Bool) (a : Nat) (d : List Byte) :
    (s.localWrite q wait a d).2.admView = s.admView := by
  simp only [State.localWrite]
  cases s.firstDenied q false true (granules a d.length) with
  | some x => simp
  | none =>
    dsimp only
    split <;> simp

/-! ### Requests to another chip's memory -/

@[simp] theorem State.admView_linkEmit (s : State) (p n : Nat) : (s.linkEmit p n).admView = s.admView := by
  induction n generalizing s with
  | zero => rfl
  | succ n ih =>
    unfold State.linkEmit
    extract_lets l
    split <;> simp [ih, State.flitOut]

@[simp] theorem State.admView_sendPkt (s : State) (p : Nat) (k : QueuedPkt) : (s.sendPkt p k).admView = s.admView := by
  unfold State.sendPkt State.bufferFree
  split <;> simp

@[simp] theorem State.admView_linkDrain (s : State) (p : Nat) (l w : List QueuedPkt) : (s.linkDrain p l w).admView = s.admView := by
  induction l generalizing s w with
  | nil => simp [State.linkDrain]
  | cons k l ih =>
    unfold State.linkDrain
    split <;> simp [ih]

@[simp] theorem State.admView_remoteSend (s : State) (self cid stop pa : Nat) (ask : RemAsk) :
    (s.remoteSend self cid stop pa ask).admView = s.admView := by
  simp [State.remoteSend, State.linkSendAll]

@[simp] theorem State.admView_remoteAsk (s : State) (q : Req) (pa : Nat) (ask : RemAsk) :
    (s.remoteAsk q pa ask).2.admView = s.admView := by
  unfold State.remoteAsk
  split
  · simp
  · extract_lets s1 r
    have hr : r.2.admView = s.admView := by simp [r, s1]
    split
    · exact (State.admView_freeCtr _ _).trans hr
    · exact hr
    · exact hr

/-- A read of physical memory leaves the Admission Port's view. -/
@[simp] theorem State.admView_physRead (s : State) (q : Req) (bulk : Bool) (pa n : Nat) :
    (s.physRead q bulk pa n).2.admView = s.admView := by
  unfold State.physRead
  split <;> simp

/-- A write of physical memory leaves it. -/
@[simp] theorem State.admView_physWrite (s : State) (q : Req) (pa : Nat) (d : List Byte) :
    (s.physWrite q pa d).2.admView = s.admView := by
  unfold State.physWrite
  split <;> simp

/-! ### Ring entries -/

/-- A device write into a ring entry. Stated of the functions: the kernel then compares them without evaluating the write. -/
theorem State.ringWriteAt_eq :
    @State.ringWriteAt = fun s k off d => (s.physWrite (s.sysReq 7 0) (s.ringAddr k + off) d).2 := rfl

@[simp] theorem State.admView_ringWriteAt (s : State) (k off : Nat) (d : List Byte) : (s.ringWriteAt k off d).admView = s.admView := by
  rw [State.ringWriteAt_eq]
  exact State.admView_physWrite ..

/-- The state of a pair. (The kernel takes the pair apart here, and not where its state is a long computation.) -/
theorem State.admView_snd_mk {α : Type} (x : α) {s t : State} (h : t.admView = s.admView) : (x, t).2.admView = s.admView := h

@[simp] theorem State.admView_bodyLen (s : State) (k : Nat) : (s.bodyLen k).2.admView = s.admView :=
  State.admView_snd_mk _ (State.admView_physRead ..)

@[simp] theorem State.admView_writeEnabled (s : State) (q : Req) (a : Nat) (be : BitVec 4) (v : BitVec 32) :
    (s.writeEnabled q a be v).admView = s.admView :=
  State.admView_foldl _ (fun t i => by split <;> simp) _ s

end Sys2Proof.Machine
end

section
/-!
SUPPORT. The order of the Admission Port's answers (R34), and O22.
-/
namespace Sys2Proof.Machine

/-- QDP is wrong where the ones of QD, QV = 1 and QDP are even in number (Table 2-2). -/
theorem qdpGood_eq_false_iff (qd : BitVec 32) (qdp : Bool) :
    qdpGood qd qdp = false ↔ (onesIn 32 qd.toNat + 1 + (if qdp then 1 else 0)) % 2 = 0 := by
  simp only [qdpGood, beq_eq_false_iff_ne]
  omega

/-- A descriptor with a wrong QDP is refused for PARITY where PARITY_EN is set (R34). -/
theorem portAnswer_of_wrong_parity (a : ActTable) (stale : Bool) (qd : BitVec 32) (qdp : Bool)
    (h : a.tbl.parityEn = true ∧ qdpGood qd qdp = false) : portAnswer a stale qd qdp = .refuse 1 := by
  simp [portAnswer, h.1, h.2]

/-- Past the parity check a table stale for a second beat defers every descriptor (R34, R39). -/
theorem portAnswer_of_stale (a : ActTable) (qd : BitVec 32) (qdp : Bool)
    (h : ¬(a.tbl.parityEn = true ∧ qdpGood qd qdp = false)) : portAnswer a true qd qdp = .defer 5 1 := by
  have hc : (a.tbl.parityEn && !qdpGood qd qdp) = false := by simpa using h
  simp [portAnswer, hc]

/-- Past the parity check of a table that is not stale, the class header, its limits and its grants decide (R34). -/
theorem portAnswer_of_fresh (a : ActTable) (qd : BitVec 32) (qdp : Bool)
    (h : ¬(a.tbl.parityEn = true ∧ qdpGood qd qdp = false)) :
    let c := a.tbl.hdr (qd.toNat % 8)
    let n := a.used.getD (qd.toNat % 8) 0
    portAnswer a false qd qdp =
      if c.st = 2 then .refuse c.code
      else if c.promptMax < qd.toNat / 8 % 256 then .refuse 3
      else if c.genMax < qd.toNat / 2048 % 256 then .refuse 4
      else if c.st = 1 then .defer c.code c.hint
      else if n < c.gcount then .accept (a.tbl.grants.getD (c.gstart + n) 0)
      else .defer 1 c.hint := by
  have hc : (a.tbl.parityEn && !qdpGood qd qdp) = false := by simpa using h
  simp only [portAnswer, hc]
  rfl

/-- Settles O22: the answers of R34 past the parity check, one branch after the other. -/
theorem portAnswerOrder : Obligations.PortAnswerOrder := by
  unfold Obligations.PortAnswerOrder
  intro a stale qd qdp
  simp only [← qdpGood_eq_false_iff]
  refine ⟨portAnswer_of_wrong_parity a stale qd qdp, ?stale, ?refuse, ?prompt, ?gen, ?defer, ?accept, ?capacity⟩
  case stale =>
    rintro hw rfl
    exact portAnswer_of_stale a qd qdp hw
  all_goals
    rintro hw rfl
    rw [portAnswer_of_fresh a qd qdp hw]
  case refuse => exact fun h2 => if_pos h2
  case prompt => exact fun h2 hp => by rw [if_neg h2, if_pos hp]
  case gen => exact fun h2 hp hg => by rw [if_neg h2, if_neg hp.not_gt, if_pos hg]
  case defer => exact fun h1 hp hg => by rw [if_neg (by omega), if_neg hp.not_gt, if_neg hg.not_gt, if_pos h1]
  case accept =>
    exact fun h2 h1 hp hg hn => by rw [if_neg h2, if_neg hp.not_gt, if_neg hg.not_gt, if_neg h1, if_pos hn]
  case capacity =>
    exact fun h2 h1 hp hg hn => by rw [if_neg h2, if_neg hp.not_gt, if_neg hg.not_gt, if_neg h1, if_neg hn.not_gt]

end Sys2Proof.Machine
end

section
/-!
SUPPORT. The Admission Port's outputs, answers and QCLK edges (R29, R34 to R41), and O23.
-/
namespace Sys2Proof.Machine

/-! ### The port's outputs -/

/-- QAV, QA and QAP. -/
def AdmSt.outs (a : AdmSt) : Bool × BitVec 16 × Bool := (a.qav, a.qa, a.qap)

/-- The levels driven, with odd parity over QA and QAV in QAP. -/
theorem State.drive_adm (s : State) (qav : Bool) (qa : BitVec 16) :
    (s.drive qav qa).adm =
      { s.adm with qav := qav, qa := qa, qap := (onesIn 16 qa.toNat + (if qav then 1 else 0)) % 2 == 0 } := rfl

/-- Driving the outputs leaves every field. -/
theorem State.flag_drive (s : State) (qav : Bool) (qa : BitVec 16) (f : Fld) : (s.drive qav qa).flag f = s.flag f :=
  State.flag_of_regs rfl f

/-- Replacing the admission state leaves every field. -/
@[simp] theorem State.flag_withAdm (s : State) (a : AdmSt) (f : Fld) : (s.withAdm a).flag f = s.flag f := State.flag_of_regs rfl f

/-- The bit that makes a count of ones odd. -/
theorem odd_of_parity (n : Nat) : (n + (if n % 2 == 0 then 1 else 0)) % 2 = 1 := by
  by_cases h : n % 2 = 0
  · simp [h]
    omega
  · simp [h]
    omega

/-! ### QCLK edges -/

/-- A table that becomes active, with nothing consumed; the retirement record of the one before follows. -/
theorem State.activate_adm (s : State) (t : ClsTable) :
    (s.activate t).adm = { s.adm with
      active := some ⟨t, List.replicate 8 0⟩
      up := s.adm.up ++ s.adm.active.toList.map ActTable.retire } := by
  cases h : s.adm.active <;> simp [State.activate, h]

/-- No swap is pending after the swap. -/
theorem State.swapNow_swapPend (s : State) : s.swapNow.adm.swapPend = false := by
  unfold State.swapNow
  split
  · cases s.adm.ready <;> simp [State.activate_adm]
  · next h => simpa using h

/-- Without a pending swap the edge swaps nothing. -/
theorem State.swapNow_of_idle {s : State} (h : s.adm.swapPend = false) : s.swapNow = s := by
  simp [State.swapNow, h]

/-- A ready table becomes active at the swap. -/
theorem State.swapNow_adm_of_ready {s : State} {t : ClsTable} (hp : s.adm.swapPend = true) (hr : s.adm.ready = some t) :
    s.swapNow.adm = ((s.withAdm { s.adm with swapPend := false, ready := none }).activate t).adm := by
  simp [State.swapNow, hp, hr]

/-- The swap leaves the outputs. -/
theorem State.swapNow_outs (s : State) : s.swapNow.adm.outs = s.adm.outs := by
  unfold State.swapNow
  split
  · cases s.adm.ready <;> simp [State.activate_adm, AdmSt.outs]
  · rfl

/-- The swap leaves QCLK_PRESENT. -/
theorem State.swapNow_present (s : State) : s.swapNow.flag ADM_STS_QCLK_PRESENT = s.flag ADM_STS_QCLK_PRESENT := by
  unfold State.swapNow
  split
  · rw [State.flag_setFlag_apart _ _ _ _ (by decide) (by decide) (by decide),
      State.flag_setFlag_apart _ _ _ _ (by decide) (by decide) (by decide)]
    cases s.adm.ready with
    | none => simp
    | some t => simp [State.activate, State.flag_setFld_apart]
  · rfl

/-- A port that does not answer TABLE_STALE takes no late table. -/
theorem State.swapStale_of_fresh {s : State} (h : s.flag ADM_STS_STALE_DEFER = false) : s.swapStale = s := by
  unfold State.swapStale
  split <;> simp [h]

/-- Where no table has arrived none is taken late. -/
theorem State.swapStale_of_none {s : State} (h : s.adm.arrived = none) : s.swapStale = s := by
  simp [State.swapStale, h]

/-- A late table leaves a pending swap as it is. -/
theorem State.swapStale_swapPend (s : State) : s.swapStale.adm.swapPend = s.adm.swapPend := by
  unfold State.swapStale
  split
  · split <;> simp [State.activate_adm]
  · rfl

/-- A late table leaves the outputs. -/
theorem State.swapStale_outs (s : State) : s.swapStale.adm.outs = s.adm.outs := by
  unfold State.swapStale
  split
  · split <;> simp [State.activate_adm, AdmSt.outs]
  · rfl

/-- A late table leaves QCLK_PRESENT. -/
theorem State.swapStale_present (s : State) : s.swapStale.flag ADM_STS_QCLK_PRESENT = s.flag ADM_STS_QCLK_PRESENT := by
  unfold State.swapStale
  split
  · split
    · simp [State.flag_setFlag_apart, State.activate, State.flag_setFld_apart]
    · rfl
  · rfl

/-- An edge leaves the outputs. -/
theorem State.qclkEdge_outs (s : State) : s.qclkEdge.adm.outs = s.adm.outs := by
  rw [State.qclkEdge, State.swapStale_outs, State.swapNow_outs, State.setFlag_adm]

/-- No swap is pending after an edge. -/
theorem State.qclkEdge_swapPend (s : State) : s.qclkEdge.adm.swapPend = false := by
  rw [State.qclkEdge, State.swapStale_swapPend, State.swapNow_swapPend]

/-- QCLK_PRESENT is 1 after an edge. -/
theorem State.qclkEdge_present (s : State) : s.qclkEdge.flag ADM_STS_QCLK_PRESENT = true := by
  rw [State.qclkEdge, State.swapStale_present, State.swapNow_present, State.flag_setFlag_same _ _ _ (by decide) rfl]

/-- An edge with no swap pending and no stale answers leaves the tables. -/
theorem State.qclkEdge_adm_of_idle {s : State} (hp : s.adm.swapPend = false) (hd : s.flag ADM_STS_STALE_DEFER = false) :
    s.qclkEdge.adm = s.adm := by
  have hd' : (s.setFlag ADM_STS_QCLK_PRESENT true).flag ADM_STS_STALE_DEFER = false := by
    rw [State.flag_setFlag_apart _ _ _ _ (by decide) (by decide) (by decide), hd]
  rw [State.qclkEdge, State.swapNow_of_idle (by simpa using hp), State.swapStale_of_fresh hd', State.setFlag_adm]

/-- An edge with a swap pending and a ready table makes it active, where no other has arrived. -/
theorem State.qclkEdge_adm_of_ready {s : State} {t : ClsTable} (hp : s.adm.swapPend = true) (hr : s.adm.ready = some t)
    (ha : s.adm.arrived = none) : s.qclkEdge.adm = { s.adm with
      swapPend := false, ready := none, active := some ⟨t, List.replicate 8 0⟩
      up := s.adm.up ++ s.adm.active.toList.map ActTable.retire } := by
  have hn := State.swapNow_adm_of_ready (s := s.setFlag ADM_STS_QCLK_PRESENT true) (by simpa using hp) (by simpa using hr)
  rw [State.activate_adm] at hn
  rw [State.qclkEdge, State.swapStale_of_none (by rw [hn]; simpa using ha), hn]
  simp

/-! ### Answers and their commit -/

/-- ADMISSION_DESCRIPTOR is its own operation. -/
theorem exec_admissionDescriptor (qd : BitVec 32) (qdp : Bool) (s : State) :
    exec (.admissionDescriptor qd qdp) s = execAdmissionDescriptor qd qdp s := rfl

/-- SWAP_EDGE is its own operation. -/
theorem exec_swapEdge (s : State) : exec .swapEdge s = execSwapEdge s := rfl

/-- QCLK_STOP is its own operation. -/
theorem exec_qclkStop (s : State) : exec .qclkStop s = execQclkStop s := rfl

/-- The timestamp replica's deviation, within 12 ticks. -/
theorem State.consume_adm (s : State) (a : ActTable) (qd : BitVec 32) (k : Nat) :
    ∃ dev : Int, -12 ≤ dev ∧ dev ≤ 12 ∧ (s.consume a qd k).adm = { s.adm with
      active := some { a with used := a.used.set (qd.toNat % 8) (a.used.getD (qd.toNat % 8) 0 + 1) }
      up := s.adm.up ++ [.accept ⟨BitVec.ofNat 12 k, BitVec.ofNat 3 qd.toNat, qd, BitVec.ofInt 64 (s.beat.ts.toNat + dev)⟩] } := by
  have hc : BitVec.ofNat 3 (qd.toNat % 8) = BitVec.ofNat 3 qd.toNat := BitVec.eq_of_toNat_eq (by simp)
  refine ⟨(s.fresh.1 % 25 : Nat) - 12, by omega, by omega, ?_⟩
  rw [← hc]
  rfl

/-- Logging leaves the class tables. -/
@[simp] theorem State.adm_logD (s : State) (k : EvKind) (b x : Nat) (d : List Nat) : (s.logD k b x d).adm = s.adm :=
  State.adm_of_admView (State.admView_logD ..)

/-- Logging leaves the fields of the Admission Port. -/
theorem State.flag_logD (s : State) (k : EvKind) (b x : Nat) (d : List Nat) (f : Fld) (hf : f.addr + 4 < 0x60000) :
    (s.logD k b x d).flag f = s.flag f :=
  State.flag_of_admView (State.admView_logD ..) f hf

/-- What an answer has done before the QCLK edge that commits it: an ACCEPT has consumed its grant, and any other answer has changed no
table and no record. -/
structure AnsweredBy (s u : State) (a : ActTable) (qd : BitVec 32) (ans : Answer) : Prop where
  outs : u.adm.outs = (s.drive true ans.qa).adm.outs
  swapPend : u.adm.swapPend = s.adm.swapPend
  staleDefer : u.flag ADM_STS_STALE_DEFER = s.flag ADM_STS_STALE_DEFER
  accepted : ∀ k, ans = .accept k → u.adm = ((s.drive true ans.qa).consume a qd k).adm
  other : (∀ k, ans ≠ .accept k) → u.adm = (s.drive true ans.qa).adm

/-- An answer that leaves the tables as driven. -/
theorem AnsweredBy.of_adm {s u : State} {a : ActTable} {qd : BitVec 32} {ans : Answer} (hn : ∀ k, ans ≠ .accept k)
    (ha : u.adm = (s.drive true ans.qa).adm) (hf : u.flag ADM_STS_STALE_DEFER = s.flag ADM_STS_STALE_DEFER) :
    AnsweredBy s u a qd ans :=
  ⟨by rw [ha], by rw [ha]; rfl, hf, fun k h => absurd h (hn k), fun _ => ha⟩

/-- A descriptor at an open port is answered, and committed at the QCLK edge (R29, R34). -/
theorem execAdmissionDescriptor_of_open {s : State} {qd : BitVec 32} {qdp : Bool} {a : ActTable} (hr : s.inReset = false)
    (ha : s.adm.active = some a) (hc : a.tbl.portClosed = false) :
    ∃ u : State, execAdmissionDescriptor qd qdp s = .next u.qclkEdge ∧
      AnsweredBy s u a qd (portAnswer a (s.flag ADM_STS_STALE_DEFER) qd qdp) := by
  simp only [execAdmissionDescriptor, hr, ha, hc, Bool.false_eq_true, if_false]
  cases portAnswer a (s.flag ADM_STS_STALE_DEFER) qd qdp with
  | accept k =>
    refine ⟨_, rfl, rfl, rfl, State.flag_of_regs rfl _, ?_, fun h => absurd rfl (h k)⟩
    rintro _ ⟨⟩
    rfl
  | defer c h => exact ⟨_, rfl, .of_adm (by simp) rfl (State.flag_drive ..)⟩
  | refuse r =>
    by_cases h1 : r = 1
    · refine ⟨_, if_pos h1, .of_adm (by simp) (by rw [State.adm_logD, State.setFlag_adm]) ?_⟩
      rw [State.flag_logD _ _ _ _ _ _ (by decide), State.flag_setFlag_apart _ _ _ _ (by decide) (by decide) (by decide),
        State.flag_drive]
    · exact ⟨_, if_neg h1, .of_adm (by simp) rfl (State.flag_drive ..)⟩

/-- Without a table, or with the port closed, nothing is driven. -/
theorem execAdmissionDescriptor_of_closed {s : State} {qd : BitVec 32} {qdp : Bool} (hr : s.inReset = false)
    (hc : ∀ a, s.adm.active = some a → a.tbl.portClosed = true) :
    execAdmissionDescriptor qd qdp s = .next (s.drive false 0).qclkEdge := by
  cases ha : s.adm.active with
  | none => simp [execAdmissionDescriptor, hr, ha]
  | some a => simp [execAdmissionDescriptor, hr, ha, hc a ha]

/-- The outputs after an edge, field by field. -/
theorem State.qclkEdge_outs_of_drive {u s : State} {qav : Bool} {qa : BitVec 16} (h : u.adm.outs = (s.drive qav qa).adm.outs) :
    u.qclkEdge.adm.qav = qav ∧ u.qclkEdge.adm.qa = qa ∧
      (onesIn 16 qa.toNat + (if qav then 1 else 0) + (if u.qclkEdge.adm.qap then 1 else 0)) % 2 = 1 := by
  have he := (State.qclkEdge_outs u).trans h
  simp only [AdmSt.outs, State.drive_adm, Prod.mk.injEq] at he
  obtain ⟨hv, ha, hp⟩ := he
  exact ⟨hv, ha, by rw [hp]; exact odd_of_parity _⟩

/-! ### The obligations on the port -/

/-- Settles O23: an answer stands at the outputs through its QCLK edge, and with no swap pending the edge leaves what it committed. -/
theorem admissionAnswered : Obligations.AdmissionAnswered := by
  unfold Obligations.AdmissionAnswered
  simp only [exec_admissionDescriptor, exec_swapEdge, exec_qclkStop]
  refine ⟨?reset, ?answered, ?closed, ?swap, ?stop⟩
  case reset =>
    intro s hr
    exact ⟨by simp [State.portOut, hr], by simp [execSwapEdge, hr], fun qd qdp => by simp [execAdmissionDescriptor, hr]⟩
  case answered =>
    intro s qd qdp a hr ha hc
    obtain ⟨u, hx, hu⟩ := execAdmissionDescriptor_of_open (qd := qd) (qdp := qdp) hr ha hc
    obtain ⟨hv, hq, hp⟩ := State.qclkEdge_outs_of_drive hu.outs
    refine ⟨_, hx, hv, hq, by rw [hq]; exact hp, fun hs hd => ?_⟩
    rw [State.qclkEdge_adm_of_idle (hu.swapPend.trans hs) (hu.staleDefer.trans hd)]
    refine ⟨fun k hk => ?_, fun hn => ?_⟩
    · obtain ⟨dev, hlo, hhi, hadm⟩ := (s.drive true (Answer.accept k).qa).consume_adm a qd k
      rw [hu.accepted k hk, hk, hadm]
      exact ⟨rfl, dev, hlo, hhi, rfl⟩
    · rw [hu.other hn]
      exact ⟨ha, rfl⟩
  case closed =>
    intro s qd qdp hr hc
    obtain ⟨hv, hq, -⟩ := State.qclkEdge_outs_of_drive (u := s.drive false 0) rfl
    exact ⟨_, execAdmissionDescriptor_of_closed hr hc, hv, hq⟩
  case swap =>
    intro s hr
    obtain ⟨hv, hq, -⟩ := State.qclkEdge_outs_of_drive (u := s.drive false 0) rfl
    refine ⟨_, by rw [execSwapEdge, hr]; rfl, hv, hq, State.qclkEdge_present _, State.qclkEdge_swapPend _, fun n hp hn ha => ?_⟩
    rw [State.qclkEdge_adm_of_ready (s := s.drive false 0) hp hn ha]
    refine ⟨rfl, rfl, ?_⟩
    cases h : s.adm.active <;> simp [State.drive_adm, h, ActTable.retire]
  case stop =>
    intro s
    exact ⟨_, rfl, State.flag_setFlag_same _ _ _ (by decide) rfl, State.setFlag_adm ..⟩

end Sys2Proof.Machine
end

section
/-!
SUPPORT. Accept and retirement records, table arrivals and boundary indications, and COMMITs (R39 to R44), and O24.
-/
namespace Sys2Proof.Machine

/-! ### Late bodies -/

/-- Setting a slot's record leaves every field. -/
theorem State.fld_setSlot (s : State) (k : Nat) (r : SlotRec) (f : Fld) : (s.setSlot k r).fld f = s.fld f :=
  State.fld_of_regs rfl f

/-- A released slot is FREE. -/
theorem State.slot_releaseSlot (s : State) (k : Nat) : (s.releaseSlot k).slot k = SlotRec.none := by
  rw [State.releaseSlot, State.setPhase, State.slot_of_admView (State.admView_ringWriteAt ..), if_pos rfl, State.slot_setSlot_same]

/-- Releasing a slot leaves the fields of the Admission Port. -/
theorem State.fld_releaseSlot (s : State) (k : Nat) (f : Fld) (hf : f.addr + 4 < 0x60000) : (s.releaseSlot k).fld f = s.fld f := by
  rw [State.releaseSlot, State.setPhase, State.fld_of_admView (State.admView_ringWriteAt ..) f hf, State.fld_setSlot]

/-- A body that is not late stays. -/
theorem State.expireBody_of_due {s : State} {k : Nat} (h : s.beat.idx < (s.slot k).deadline) : s.expireBody k = s := by
  simp only [State.expireBody]
  rw [if_neg (fun hl => absurd hl.2 h.not_ge)]

/-- A late body is released, and logged once BODY_EXPIRED is set (R44). -/
theorem State.expireBody_of_late {s : State} {k : Nat} (hp : (s.slot k).phase = .accepted) (h : (s.slot k).deadline ≤ s.beat.idx) :
    s.expireBody k =
      ((s.releaseSlot k).setFlag ADM_STS_BODY_EXPIRED true).logD ev_BODY_EXPIRED blkAdm 0 [k, (s.slot k).tc] := by
  simp only [State.expireBody]
  rw [if_pos ⟨hp, h⟩]

/-- The release of a late body leaves the slot FREE and BODY_EXPIRED set. -/
theorem State.expireBody_late_spec {s : State} {k : Nat} (hp : (s.slot k).phase = .accepted) (h : (s.slot k).deadline ≤ s.beat.idx) :
    ((s.expireBody k).slot k).phase = .free ∧ (s.expireBody k).flag ADM_STS_BODY_EXPIRED = true := by
  rw [State.expireBody_of_late hp h, State.slot_of_admView (State.admView_logD ..), State.flag_logD _ _ _ _ _ _ (by decide)]
  refine ⟨?_, State.flag_setFlag_same _ _ _ (by decide) rfl⟩
  rw [State.slot, State.setFlag_slots, ← State.slot, State.slot_releaseSlot]
  rfl

/-- The check for a late body leaves the request sequence number. -/
theorem State.fld_expireBody_seq (s : State) (k : Nat) : (s.expireBody k).fld ADM_REQ_SEQ_NEXT = s.fld ADM_REQ_SEQ_NEXT := by
  simp only [State.expireBody]
  split
  · rw [State.fld_of_admView (State.admView_logD ..) _ (by decide), State.setFlag,
      State.fld_setFld_apart _ _ _ _ (by decide) (by decide) (by decide), State.fld_releaseSlot _ _ _ (by decide)]
  · rfl

/-! ### Accept records -/

/-- What an accept record has done before its body is checked: the slot is ACCEPTED, with its deadline, and the request sequence number has
advanced (R42, R44). -/
structure AcceptedBy (s u : State) (slot : BitVec 12) (tc : BitVec 3) (desc : BitVec 32) (ts : BitVec 64) : Prop where
  beat : u.beat = s.beat
  seq : u.fld ADM_REQ_SEQ_NEXT = (s.fld ADM_REQ_SEQ_NEXT + 1) % 2 ^ 32
  phase : (u.slot slot.toNat).phase = .accepted
  tc : (u.slot slot.toNat).tc = tc.toNat
  acceptTs : (u.slot slot.toNat).acceptTs = ts
  reqSeq : (u.slot slot.toNat).reqSeq.toNat = s.fld ADM_REQ_SEQ_NEXT
  tag : (u.slot slot.toNat).tag = desc.toNat / 2 ^ 20
  promptBlk : (u.slot slot.toNat).promptBlk = desc.toNat / 8 % 256
  deadline : (u.slot slot.toNat).deadline = if s.inBeat ts = false ∧ 0 < s.beat.idx then s.beat.idx - 1 + max s.beat.prevDl 1
    else s.beat.idx + max (s.act ADM_CTL_BODY_DL) 1

/-- An accept record writes its slot, and then the slot's body is checked. -/
theorem execAcceptRecord_spec (s : State) (slot : BitVec 12) (tc : BitVec 3) (desc : BitVec 32) (ts : BitVec 64) :
    ∃ u, execAcceptRecord slot tc desc ts s = .next (u.expireBody slot.toNat) ∧ AcceptedBy s u slot tc desc ts := by
  refine ⟨_, rfl, ?_⟩
  have hv := fun (u : State) (d : List Byte) => State.admView_ringWriteAt u slot.toNat 0 d
  have hs : ∀ (u : State) (r : SlotRec) (d : List Byte),
      (((u.setSlot slot.toNat r).countUp ADM_REQ_SEQ_NEXT).ringWriteAt slot.toNat 0 d).slot slot.toNat = r := fun u r d => by
    rw [State.slot_of_admView (hv _ d), State.slot, State.countUp_slots, ← State.slot, State.slot_setSlot_same]
  constructor
  case beat => rw [State.beat_of_admView (hv _ _)]; simp
  case seq =>
    rw [State.fld_of_admView (hv _ _) _ (by decide), State.countUp, State.fld_setFld_same _ _ _ (by decide), State.fld_setSlot]
    rfl
  case reqSeq =>
    rw [hs, BitVec.toNat_ofNat]
    exact Nat.mod_eq_of_lt (State.fld_lt s ADM_REQ_SEQ_NEXT)
  case tag =>
    rw [hs]
    exact Nat.mod_eq_of_lt (by have := desc.isLt; omega)
  case deadline =>
    rw [hs]
    simp [bodyDl]
  all_goals rw [hs]
  case promptBlk => rfl

/-- An accept record of a commit edge in the present beat or the last one (R42, R44). -/
theorem acceptRecord_effect (s : State) (slot : BitVec 12) (tc : BitVec 3) (desc : BitVec 32) (ts : BitVec 64) :
    let early := s.inBeat ts = false ∧ 0 < s.beat.idx
    let late := s.beat.idx - 1 + max s.beat.prevDl 1
    ∃ t, execAcceptRecord slot tc desc ts s = .next t ∧
      t.fld ADM_REQ_SEQ_NEXT = (s.fld ADM_REQ_SEQ_NEXT + 1) % 2 ^ 32 ∧
      (¬ early ∨ s.beat.idx < late →
        (t.slot slot.toNat).phase = .accepted ∧ (t.slot slot.toNat).tc = tc.toNat ∧ (t.slot slot.toNat).acceptTs = ts ∧
        (t.slot slot.toNat).reqSeq.toNat = s.fld ADM_REQ_SEQ_NEXT ∧ (t.slot slot.toNat).tag = desc.toNat / 2 ^ 20 ∧
        (t.slot slot.toNat).promptBlk = desc.toNat / 8 % 256) ∧
      (¬ early → (t.slot slot.toNat).deadline = s.beat.idx + max (s.act ADM_CTL_BODY_DL) 1) ∧
      (early → s.beat.idx < late → (t.slot slot.toNat).deadline = late) ∧
      (early → late ≤ s.beat.idx → (t.slot slot.toNat).phase = .free ∧ t.flag ADM_STS_BODY_EXPIRED = true) := by
  intro early late
  obtain ⟨u, hx, hu⟩ := execAcceptRecord_spec s slot tc desc ts
  have hkeep : s.beat.idx < (u.slot slot.toNat).deadline → u.expireBody slot.toNat = u := fun h =>
    State.expireBody_of_due (by rw [hu.beat]; exact h)
  have hnow : ¬ early → (u.slot slot.toNat).deadline = s.beat.idx + max (s.act ADM_CTL_BODY_DL) 1 := fun h =>
    hu.deadline.trans (if_neg h)
  have hlast : early → (u.slot slot.toNat).deadline = late := fun h => hu.deadline.trans (if_pos h)
  have hdue : ¬ early → s.beat.idx < (u.slot slot.toNat).deadline := fun h => by rw [hnow h]; omega
  refine ⟨_, hx, (State.fld_expireBody_seq ..).trans hu.seq, fun h => ?_, fun h => ?_, fun h hl => ?_, fun h hl => ?_⟩
  · have hd : s.beat.idx < (u.slot slot.toNat).deadline := by
      by_cases he : early
      · rw [hlast he]
        exact h.resolve_left (fun hn => hn he)
      · exact hdue he
    rw [hkeep hd]
    exact ⟨hu.phase, hu.tc, hu.acceptTs, hu.reqSeq, hu.tag, hu.promptBlk⟩
  · rw [hkeep (hdue h), hnow h]
  · rw [hkeep (by rw [hlast h]; exact hl), hlast h]
  · exact State.expireBody_late_spec hu.phase (by rw [hu.beat, hlast h]; exact hl)

/-! ### Retirement records -/

/-- A retirement record names a table built and not retired, of its BUILD_BEAT. -/
theorem State.mem_built_of_retired {s : State} {beat : Nat} {used : List Nat} {x : ClsTable} (h : s.retired beat used = some x) :
    x ∈ s.adm.built ∧ x.buildBeat = beat := by
  unfold State.retired at h
  split at h
  · refine ⟨List.mem_of_find?_eq_some h, ?_⟩
    have hp := List.find?_some h
    split at hp
    · simpa using (Bool.and_eq_true_iff.1 hp).2
    · simpa using hp
  · exact ⟨List.mem_of_find?_eq_some h, by simpa using List.find?_some h⟩

/-- A retirement record takes the table it names, or none, out of those built, and leaves the active table and the slots. -/
theorem retirementRecord_effect (s : State) (beat : BitVec 48) (used : List Nat) :
    ∃ t, execRetirementRecord beat used s = .next t ∧
      (∀ x, s.retired beat.toNat used = some x → x ∈ s.adm.built ∧ x.buildBeat = beat.toNat ∧ t.adm.built = s.adm.built.erase x) ∧
      (s.retired beat.toNat used = none → t.adm.built = s.adm.built) ∧
      ((∀ x ∈ s.adm.built, x.buildBeat ≠ beat.toNat) → t.adm.built = s.adm.built) ∧
      t.adm.active = s.adm.active ∧ t.slots = s.slots := by
  unfold execRetirementRecord
  cases h : s.retired beat.toNat used with
  | none => exact ⟨_, rfl, by simp, fun _ => rfl, fun _ => rfl, rfl, rfl⟩
  | some x =>
    obtain ⟨hm, hb⟩ := State.mem_built_of_retired h
    refine ⟨_, rfl, ?_, by simp, fun hn => absurd hb (hn x hm), rfl, rfl⟩
    rintro _ ⟨⟩
    exact ⟨hm, hb, rfl⟩

/-! ### Table arrivals -/

/-- The image bears the BUILD_BEAT of the table due, and no other table not yet retired has that number: it is due (R39). -/
theorem State.dueImage_of_only {s : State} {img : List Byte} {i b : Nat} {x : ClsTable} (hd : s.adm.due = some (i, b))
    (hl : s.adm.built.getLast? = some x) (hi : x.idx = i) (hb : x.buildBeat = imgNat img 0x840 8)
    (hn : ∀ y ∈ s.adm.built.dropLast, y.buildBeat ≠ x.buildBeat) : s.dueImage img = some i := by
  have hf : s.adm.built.dropLast.filter (fun y => y.buildBeat == x.buildBeat) = [] := by
    simpa [List.filter_eq_nil_iff] using hn
  have hs : s.adm.built = s.adm.built.dropLast ++ [x] := (List.dropLast_append_getLast? x hl).symm
  have ht : s.adm.built.filter (fun y => y.buildBeat == x.buildBeat) = [x] := by
    rw [hs, List.filter_append, hf]
    simp
  simp only [State.dueImage, hd, hl, ht]
  rw [if_pos ⟨hi.symm, hb, .inl (Nat.le_refl 1)⟩]

/-- The three ends of a table image that arrives (R39, R40). -/
theorem classTableArrival_effect (s : State) (img : List Byte) (hu : s.ucieLost = false) :
    (imgOk img = false → ∃ e : Event, e.code = 0x0304 ∧ e.block = 4 ∧ e.flags = 2 ∧
      execClassTableArrival img s = .next (s.logEvent e)) ∧
    (∀ i, imgOk img = true → s.dueImage img = some i → s.adm.metDue = false →
      execClassTableArrival img s = .next (s.withAdm { s.adm with arrived := some (imgTable i img) })) ∧
    (imgOk img = true → s.dueImage img = none ∨ s.adm.metDue = true → execClassTableArrival img s = .next s) := by
  refine ⟨?bad, ?due, ?other⟩
  case bad =>
    intro hi
    refine ⟨⟨ev_TABLE_BAD.code, blkAdm, ev_TABLE_BAD.sev, s.beat.ts, 0, Config.infoPack ev_TABLE_BAD.code []⟩, rfl, rfl, rfl, ?_⟩
    simp only [execClassTableArrival, hu, hi]
    rfl
  case due =>
    intro i hi hd hm
    simp [execClassTableArrival, hu, hi, hd, hm]
  case other =>
    intro hi h
    simp only [execClassTableArrival, hu, hi]
    rcases h with hn | hm
    · simp [hn]
    · cases s.dueImage img <;> simp [hm]

/-! ### Boundary indications -/

/-- A boundary indication with a table due: one that has arrived becomes ready, else the miss is counted and the table due retires unused
(R39). -/
theorem boundaryIndication_effect {s : State} {d : Nat × Nat} (hd : s.adm.due = some d) (hm : s.adm.metDue = false) :
    (∀ n : ClsTable, s.adm.arrived = some n → ∃ t, execBoundaryIndication s = .next t ∧
      t.adm.ready = some n ∧ t.adm.arrived = none ∧ t.adm.missed = 0 ∧ t.adm.swapPend = true ∧ t.adm.active = s.adm.active) ∧
    (s.adm.arrived = none → ∃ t, execBoundaryIndication s = .next t ∧ t.adm.missed = s.adm.missed + 1 ∧
      t.adm.swapPend = true ∧ t.adm.up = s.adm.up ++ [.retire ⟨d.2, List.replicate 8 0⟩ d.1] ∧ t.flag ADM_STS_STALE = true ∧
      t.adm.active = s.adm.active) := by
  refine ⟨fun n ha => ?_, fun ha => ?_⟩
  · simp only [execBoundaryIndication, hd, hm, ha]
    exact ⟨_, rfl, rfl, rfl, rfl, rfl, rfl⟩
  · simp only [execBoundaryIndication, hd, hm, ha]
    refine ⟨_, rfl, ?_⟩
    rw [State.setFlag_adm]
    exact ⟨rfl, rfl, rfl, State.flag_setFlag_same _ _ _ (by decide) rfl, rfl⟩

/-! ### COMMIT -/

section View
variable {s t : State} (h : t.admView = s.admView)
include h

/-- One view, the same lateness of a COMMIT. -/
theorem State.commitLate_of_admView (k : Nat) : t.commitLate k = s.commitLate k := by
  rw [State.commitLate, State.inCycle, State.running, State.flag_of_admView h _ (by decide), State.beat_of_admView h,
    State.slot_of_admView h, State.commitLate, State.inCycle, State.running]

/-- One view, one entry stride. -/
theorem State.ringStride_of_admView : t.ringStride = s.ringStride := by
  rw [State.ringStride, State.fld_of_admView h _ (by decide), State.ringStride]

end View

/-- An ignored COMMIT sets COMMIT_ERR and leaves the slots. -/
theorem State.commitErr_spec (s : State) (k j : Nat) :
    (s.commitErr k).flag ADM_STS_COMMIT_ERR = true ∧ (s.commitErr k).slot j = s.slot j := by
  rw [State.commitErr, State.slot_of_admView (State.admView_logD ..), State.flag_logD _ _ _ _ _ _ (by decide)]
  exact ⟨State.flag_setFlag_same _ _ _ (by decide) rfl, by rw [State.slot, State.setFlag_slots, State.slot]⟩

/-- A matching COMMIT of a body that fits posts the slot in the present beat. -/
theorem State.slot_commitOk {s : State} {k n : Nat} (h : n ≤ s.ringStride - 64) :
    (s.commitOk k n).slot k =
      { s.slot k with phase := .posted, postedIdx := s.beat.idx, postedOff := s.beat.tick - s.beat.bk } := by
  simp only [State.commitOk]
  rw [if_pos h, State.slot_of_admView (State.admView_ringWriteAt ..), State.slot_setSlot_same]

/-- A matching COMMIT reads BODY_LEN and ends by it. -/
theorem State.commitSeen_of_match {s : State} {k n : Nat} {v : BitVec 32} (hp : (s.slot k).phase = .accepted)
    (hv : v = (s.slot k).reqSeq) (hl : s.commitLate k = false) (hn : (s.bodyLen k).1 = some n) :
    s.commitSeen k true v = (s.bodyLen k).2.commitOk k n := by
  obtain ⟨t, hb⟩ : ∃ t, s.bodyLen k = (some n, t) := ⟨_, Prod.ext hn rfl⟩
  simp [State.commitSeen, hp, ← hv, hl, hb]

/-- Any other COMMIT is ignored. -/
theorem State.commitSeen_of_mismatch {s : State} {k : Nat} {all : Bool} {v : BitVec 32}
    (h : all = false ∨ v ≠ (s.slot k).reqSeq ∨ (s.slot k).phase ≠ .accepted ∨ s.commitLate k = true) :
    s.commitSeen k all v = s.commitErr k := by
  simp only [State.commitSeen]
  rw [if_neg (by rcases h with h | h | h | h <;> simp [h])]

/-- A COMMIT that enables no byte does nothing; any other is written or aborted, and then seen: whole only where all four bytes were
written. -/
theorem execCommit_of_bytes (s : State) (slot : BitVec 12) {be : BitVec 4} (v : BitVec 32) (cid : BitVec 12) (hbe : be ≠ 0) :
    ∃ (u : State) (all : Bool), execCommit slot be v cid s = .next (u.commitSeen slot.toNat all v) ∧ u.admView = s.admView ∧
      (all = true → be = 15) := by
  simp only [execCommit]
  rw [if_neg hbe]
  refine ⟨_, _, rfl, ?_, fun h => by simpa using (Bool.and_eq_true_iff.1 h).2⟩
  split
  · exact State.admView_writeEnabled ..
  · exact State.admView_abortAt ..

/-- A COMMIT of all four bytes, claimed and not role-off, is written and seen whole. -/
theorem execCommit_of_claimed {s : State} {slot : BitVec 12} {v : BitVec 32} {cid : BitVec 12} {a : Nat} {q : Req}
    (ha : a = localPa (s.ringAddr slot.toNat + 0x14)) (hq : q = ⟨cid.toNat, 4, 0, s.chip, sourceStop 4 0⟩)
    (hc : s.claimed q a false true = true) (ho : s.roleOffAt a = false) :
    execCommit slot 15 v cid s = .next ((s.writeEnabled q a 15 v).commitSeen slot.toNat true v) := by
  simp only [execCommit, ← ha, ← hq, hc, ho]
  rfl

/-- A COMMIT that matches, in time and of a body that fits, posts its slot in the present beat (R43). -/
theorem commit_posts {s : State} {slot : BitVec 12} {v : BitVec 32} {cid : BitVec 12} {a n : Nat} {q : Req}
    (ha : a = localPa (s.ringAddr slot.toNat + 0x14)) (hq : q = ⟨cid.toNat, 4, 0, s.chip, sourceStop 4 0⟩)
    (hc : s.claimed q a false true = true) (ho : s.roleOffAt a = false) (hp : (s.slot slot.toNat).phase = .accepted)
    (hl : s.commitLate slot.toNat = false) (hv : v = (s.slot slot.toNat).reqSeq)
    (hn : ((s.writeEnabled q a 15 v).bodyLen slot.toNat).1 = some n) (hf : n ≤ s.ringStride - 64) :
    ∃ t, execCommit slot 15 v cid s = .next t ∧ (t.slot slot.toNat).phase = .posted ∧
      (t.slot slot.toNat).postedIdx = s.beat.idx ∧ (t.slot slot.toNat).postedOff = s.beat.tick - s.beat.bk ∧
      (t.slot slot.toNat).reqSeq = v := by
  have hw : (s.writeEnabled q a 15 v).admView = s.admView := State.admView_writeEnabled ..
  have hb := (State.admView_bodyLen (s.writeEnabled q a 15 v) slot.toNat).trans hw
  refine ⟨_, execCommit_of_claimed ha hq hc ho, ?_⟩
  rw [State.commitSeen_of_match (by rw [State.slot_of_admView hw, hp]) (by rw [State.slot_of_admView hw, hv])
      (by rw [State.commitLate_of_admView hw, hl]) hn,
    State.slot_commitOk (by rw [State.ringStride_of_admView hb]; exact hf), State.slot_of_admView hb, State.beat_of_admView hb]
  exact ⟨rfl, rfl, rfl, hv.symm⟩

/-- A COMMIT that is not whole, names another number, finds the slot in another state or is late is ignored (R43, R44). -/
theorem commit_ignored {s : State} {slot : BitVec 12} {be : BitVec 4} {v : BitVec 32} (cid : BitVec 12) (hbe : be ≠ 0)
    (h : be ≠ 15 ∨ v ≠ (s.slot slot.toNat).reqSeq ∨ (s.slot slot.toNat).phase ≠ .accepted ∨ s.commitLate slot.toNat = true) :
    ∃ t, execCommit slot be v cid s = .next t ∧ t.flag ADM_STS_COMMIT_ERR = true ∧ t.slot slot.toNat = s.slot slot.toNat := by
  obtain ⟨u, all, hx, hu, hall⟩ := execCommit_of_bytes s slot v cid hbe
  refine ⟨_, hx, ?_⟩
  have hall' : be ≠ 15 → all = false := fun hn => Bool.eq_false_iff.2 (fun ht => hn (hall ht))
  rw [State.commitSeen_of_mismatch (by
      rw [State.slot_of_admView hu, State.commitLate_of_admView hu]
      exact h.imp_left hall')]
  obtain ⟨hf, hs⟩ := u.commitErr_spec slot.toNat slot.toNat
  exact ⟨hf, hs.trans (State.slot_of_admView hu _)⟩

/-! ### The obligation -/

/-- Settles O24: one effect of each command, and for COMMIT that the accesses to the ring entry leave the slots, the beat and the stride. -/
theorem admissionRecordsTablesAndCommits : Obligations.AdmissionRecordsTablesAndCommits := by
  unfold Obligations.AdmissionRecordsTablesAndCommits
  refine ⟨⟨?accept, ?retire, ?arrival, ?boundary⟩, ?commit⟩
  case accept => exact acceptRecord_effect
  case retire => exact retirementRecord_effect
  case arrival =>
    intro s img hu
    obtain ⟨hbad, hdue, hother⟩ := classTableArrival_effect s img hu
    exact ⟨hbad, hdue, hother, fun i b x => State.dueImage_of_only⟩
  case boundary => exact fun s d => boundaryIndication_effect
  case commit =>
    intro s slot be v cid a q
    exact ⟨fun n hc ho hp hl hv hn hf => commit_posts rfl rfl hc ho hp hl hv hn hf, fun hbe h => commit_ignored cid hbe h⟩

end Sys2Proof.Machine
end

section
/-!
SUPPORT. Watermarks (R58, R59): what a crossing leaves in the status register of Table 3-5 and when it sends its message, and O25.
-/
namespace Sys2Proof.Machine

/-! ### Messages -/

/-- Raising a vector leaves the register words. -/
@[simp] theorem State.regs_raiseFn (s : State) (fn n v : Nat) : (s.raiseFn fn n v).regs = s.regs := by
  unfold State.raiseFn
  extract_lets m
  split
  · rfl
  · split
    · split <;> rfl
    · rfl

/-- Raising a vector of the physical function leaves the register words. -/
@[simp] theorem State.regs_raise (s : State) (v : Nat) : (s.raise v).regs = s.regs := State.regs_raiseFn ..

/-- A watermark's message leaves the register words. -/
@[simp] theorem State.regs_wmMessage (s : State) (w : WmFlds) : (s.wmMessage w).regs = s.regs := by
  unfold State.wmMessage
  split
  · unfold State.raisePart
    split
    · split <;> simp
    · simp
  · simp

/-- Vector `v` of the physical function can be sent: it exists, MSI-X is enabled, nothing masks it, and neither D3hot nor the loss of
UCIe module 0 holds it back (R358, R401). -/
structure State.Sends (s : State) (v : Nat) : Prop where
  exists_ : v < s.early.msixPf
  enabled : (s.msixOf 0).enabled = true
  unmasked : (s.msixOf 0).masked v = false
  awake : 0 ∉ s.pwr.d3
  linked : s.ucieLost = false

/-- A vector that can be sent is sent. -/
theorem State.raise_of_sends {s : State} {v : Nat} (h : s.Sends v) : s.raise v = s.send ((s.msixOf 0).msg 0 v) := by
  obtain ⟨hv, he, hm, hd, hu⟩ := h
  simp [State.raise, State.raiseFn, he, hm, hd, hu, Nat.not_le.2 hv]

/-- What sending a message depends on, a change of register words leaves. -/
theorem State.sends_setFld {s : State} {v : Nat} (f : Fld) (x : Nat) (h : s.Sends v) : (s.setFld f x).Sends v := by
  obtain ⟨hv, he, hm, hd, hu⟩ := h
  refine ⟨?_, ?_, ?_, ?_, ?_⟩ <;> simpa [State.msixOf]

/-- The vector tables depend on the MSI-X state alone. -/
@[simp] theorem State.msixOf_setFld (s : State) (f : Fld) (x n : Nat) : (s.setFld f x).msixOf n = s.msixOf n := by
  simp [State.msixOf]

/-- A watermark of the physical function whose vector can be sent sends it. -/
theorem State.out_wmMessage {s : State} {w : WmFlds} (hp : w.part = none) (h : s.Sends w.vec) :
    (s.wmMessage w).out = s.out ++ [(s.msixOf 0).msg 0 w.vec] := by
  rw [State.wmMessage, hp, State.raise_of_sends h]
  rfl

/-! ### The registers of a watermark -/

/-- The status fields lie in one register as Table 3-5 lays them out, and IRQ_EN is a bit of another register. -/
structure WmFlds.InLayout (w : WmFlds) : Prop where
  above : w.above = ⟨w.count.addr, 0, 1⟩
  up : w.up = ⟨w.count.addr, 1, 1⟩
  down : w.down = ⟨w.count.addr, 2, 1⟩
  count : w.count = ⟨w.count.addr, 16, 16⟩
  irq_lt : w.irq.lo < 32
  irq_bit : w.irq.w = 1
  irq_ne : w.irq.addr ≠ w.count.addr

/-- Every watermark's registers are laid out so (R60). -/
theorem wmFlds_inLayout (w : WmId) : (wmFlds w).InLayout := by
  cases w <;> exact ⟨rfl, rfl, rfl, rfl, by simp [wmFlds], rfl, by simp [wmFlds]⟩

/-- A flag depends on the register words alone, so a message leaves it. -/
theorem State.flag_wmMessage (s : State) (w : WmFlds) (f : Fld) : (s.wmMessage w).flag f = s.flag f :=
  State.flag_of_regs (s.regs_wmMessage w) f

/-- A counter that saturates reads the next number, held at its greatest. -/
theorem State.fld_countSat (s : State) (f : Fld) (h : f.lo + f.w ≤ 32) :
    (s.countSat f).fld f = min (s.fld f + 1) (2 ^ f.w - 1) := by
  have hlt := s.fld_lt f
  rw [State.countSat, State.fld_setFld_same _ _ _ h, Nat.mod_eq_of_lt (by split <;> omega)]
  split <;> omega

/-- The status register after an upward crossing, before its message. -/
def State.crossedUp (s : State) (w : WmFlds) : State := ((s.setFlag w.above true).countSat w.count).setFlag w.up true

/-- An upward crossing sends its message where CROSSED_UP was 0 and IRQ_EN is 1 (R59). -/
theorem State.wmUp_eq (s : State) (w : WmFlds) :
    s.wmUp w = if s.flag w.up = false ∧ s.flag w.irq = true then (s.crossedUp w).wmMessage w else s.crossedUp w := by
  simp [State.wmUp, State.crossedUp]

/-- The register words after an upward crossing are those before its message. -/
theorem State.regs_wmUp (s : State) (w : WmFlds) : (s.wmUp w).regs = (s.crossedUp w).regs := by
  rw [State.wmUp_eq]
  split
  · exact State.regs_wmMessage ..
  · rfl

section Layout
variable {w : WmFlds} (hw : w.InLayout)
include hw

/-- An upward crossing sets LEVEL_ABOVE and CROSSED_UP and counts (R58). -/
theorem State.crossedUp_status (s : State) :
    (s.crossedUp w).flag w.above = true ∧ (s.crossedUp w).flag w.up = true ∧
      (s.crossedUp w).fld w.count = min (s.fld w.count + 1) 0xFFFF := by
  obtain ⟨ha, hu, -, hc, -, -, -⟩ := hw
  generalize w.count.addr = a at ha hu hc
  rw [State.crossedUp, ha, hu, hc]
  refine ⟨?_, State.flag_setFlag_same _ _ _ (by simp) rfl, ?_⟩
  · rw [State.flag_setFlag_apart _ _ _ _ (by simp) (by simp) (by simp), State.countSat,
      State.flag_setFld_apart _ _ _ _ (by simp) (by simp) (by simp), State.flag_setFlag_same _ _ _ (by simp) rfl]
  · rw [State.setFlag, State.fld_setFld_apart _ _ _ _ (by simp) (by simp) (by simp), State.fld_countSat _ _ (by simp),
      State.setFlag, State.fld_setFld_apart _ _ _ _ (by simp) (by simp) (by simp)]
    rfl

/-- A downward crossing clears LEVEL_ABOVE, sets CROSSED_DOWN and leaves COUNT (R58). -/
theorem State.wmDown_status (s : State) :
    (s.wmDown w).flag w.above = false ∧ (s.wmDown w).flag w.down = true ∧ (s.wmDown w).fld w.count = s.fld w.count := by
  obtain ⟨ha, -, hd, hc, -, -, -⟩ := hw
  generalize w.count.addr = a at ha hd hc
  rw [State.wmDown, ha, hd, hc]
  refine ⟨?_, State.flag_setFlag_same _ _ _ (by simp) rfl, ?_⟩
  · rw [State.flag_setFlag_apart _ _ _ _ (by simp) (by simp) (by simp), State.flag_setFlag_same _ _ _ (by simp) rfl]
  · rw [State.setFlag, State.fld_setFld_apart _ _ _ _ (by simp) (by simp) (by simp), State.setFlag,
      State.fld_setFld_apart _ _ _ _ (by simp) (by simp) (by simp)]

/-- An upward crossing leaves every field of another register. -/
theorem State.fld_wmUp (s : State) (g : Fld) (hg : g.lo + g.w ≤ 32) (hn : g.addr ≠ w.count.addr) : (s.wmUp w).fld g = s.fld g := by
  obtain ⟨ha, hu, -, hc, -, -, -⟩ := hw
  generalize w.count.addr = a at ha hu hc hn
  rw [State.fld_of_regs (s.regs_wmUp w), State.crossedUp, ha, hu, hc, State.setFlag,
    State.fld_setFld_apart _ _ _ _ (by simp) hg (by exact .inl hn), State.countSat,
    State.fld_setFld_apart _ _ _ _ (by simp) hg (by exact .inl hn), State.setFlag,
    State.fld_setFld_apart _ _ _ _ (by simp) hg (by exact .inl hn)]

/-- A downward crossing leaves every field of another register. -/
theorem State.fld_wmDown (s : State) (g : Fld) (hg : g.lo + g.w ≤ 32) (hn : g.addr ≠ w.count.addr) :
    (s.wmDown w).fld g = s.fld g := by
  obtain ⟨ha, -, hd, -, -, -, -⟩ := hw
  rw [State.wmDown, ha, hd, State.setFlag, State.fld_setFld_apart _ _ _ _ (by simp) hg (by exact .inl hn), State.setFlag,
    State.fld_setFld_apart _ _ _ _ (by simp) hg (by exact .inl hn)]

/-- Setting IRQ_EN leaves the status register. -/
theorem State.flag_up_setIrq (s : State) : (s.setFlag w.irq true).flag w.up = s.flag w.up := by
  obtain ⟨-, hu, -, -, hl, hb, hn⟩ := hw
  exact State.flag_setFlag_apart _ _ _ _ (by omega) (by simp [hu]) (.inl (by rw [hu]; exact hn.symm))

/-- IRQ_EN reads 1 once set. -/
theorem State.flag_irq_setIrq (s : State) : (s.setFlag w.irq true).flag w.irq = true :=
  State.flag_setFlag_same _ _ _ (by have := hw.irq_lt; have := hw.irq_bit; omega) hw.irq_bit

end Layout

/-- LEVEL_ABOVE reads 1 after an upward crossing. -/
theorem State.flag_above_wmUp {w : WmFlds} (hw : w.InLayout) (s : State) : (s.wmUp w).flag w.above = true := by
  rw [State.flag_of_regs (s.regs_wmUp w), (State.crossedUp_status hw s).1]

/-- The messages after an upward crossing of a watermark whose vector can be sent (R59). -/
theorem State.out_wmUp {s : State} {w : WmFlds} (hp : w.part = none) (h : s.Sends w.vec) :
    (s.wmUp w).out = s.out ++ (if s.flag w.up = false ∧ s.flag w.irq = true then [(s.msixOf 0).msg 0 w.vec] else []) := by
  rw [State.wmUp_eq]
  split
  · have hc : (s.crossedUp w).Sends w.vec := State.sends_setFld _ _ (State.sends_setFld _ _ (State.sends_setFld _ _ h))
    rw [State.out_wmMessage hp hc]
    simp [State.crossedUp, State.setFlag, State.countSat]
  · simp [State.crossedUp]

/-! ### The obligation -/

/-- WATERMARK_EVALUATION of every watermark but the guard's is the common rule's evaluation (R58, R60). -/
theorem exec_watermarkEvaluation {w : WmId} (hw : ∀ c, w ≠ .guard c) (s : State) :
    exec (.watermarkEvaluation w) s = .next (s.wmEval (wmFlds w) (s.wmQ w)) := by
  cases w with
  | guard c => exact absurd rfl (hw c)
  | _ => rfl

/-- WATERMARK_IRQ_ENABLE sets IRQ_EN, and sends the message where IRQ_EN was 0 and CROSSED_UP is 1 (R59). -/
theorem exec_watermarkIrqEnable (w : WmId) (s : State) :
    exec (.watermarkIrqEnable w) s = .next
      (if s.flag (wmFlds w).irq = false ∧ s.flag (wmFlds w).up = true then
        (s.setFlag (wmFlds w).irq true).wmMessage (wmFlds w) else s.setFlag (wmFlds w).irq true) := by
  change execWatermarkIrqEnable w s = _
  simp [execWatermarkIrqEnable]

/-- The three outcomes of an evaluation (R58). -/
theorem State.wmEval_cases (s : State) (w : WmFlds) (q : Nat) :
    (s.flag w.above = false → s.fld w.level < q → s.wmEval w q = s.wmUp w) ∧
    (s.flag w.above = true → q ≤ s.fld w.level - s.fld w.hyst → s.wmEval w q = s.wmDown w) ∧
    ((s.flag w.above = false ∧ q ≤ s.fld w.level) ∨ (s.flag w.above = true ∧ s.fld w.level - s.fld w.hyst < q) →
      s.wmEval w q = s) := by
  refine ⟨fun ha hq => by simp [State.wmEval, ha, hq], fun ha hq => by simp [State.wmEval, ha, hq], ?_⟩
  rintro (⟨ha, hq⟩ | ⟨ha, hq⟩)
  · simp [State.wmEval, ha, Nat.not_lt.2 hq]
  · simp [State.wmEval, ha, Nat.not_le.2 hq]

/-- Settles O25: the three outcomes of an evaluation, and the one place of the message. -/
theorem watermarkRule : Obligations.WatermarkRule := by
  unfold Obligations.WatermarkRule
  refine ⟨?eval, ?enable⟩
  case eval =>
    intro s w hw f q
    obtain ⟨hup, hdown, hstay⟩ := s.wmEval_cases f q
    refine ⟨_, exec_watermarkEvaluation hw s, fun ha hq => ?_, fun ha hq => ?_, hstay⟩
    · obtain ⟨hab, hcu, hco⟩ := State.crossedUp_status (wmFlds_inLayout w) s
      have hr := s.regs_wmUp f
      rw [hup ha hq]
      exact ⟨(State.flag_of_regs hr _).trans hab, (State.flag_of_regs hr _).trans hcu, (State.fld_of_regs hr _).trans hco,
        fun hp hv he hm hd hu => State.out_wmUp hp ⟨hv, he, hm, hd, hu⟩⟩
    · obtain ⟨hab, hcd, hco⟩ := State.wmDown_status (wmFlds_inLayout w) s
      rw [hdown ha hq]
      exact ⟨hab, hcd, hco, by simp [State.wmDown]⟩
  case enable =>
    intro s w f
    have hirq := State.flag_irq_setIrq (wmFlds_inLayout w) s
    refine ⟨_, exec_watermarkIrqEnable w s, ?_, fun hp hv he hm hd hu => ?_⟩
    · split
      · rw [State.flag_wmMessage, hirq]
      · exact hirq
    · split
      · have hs : (s.setFlag f.irq true).Sends f.vec := State.sends_setFld _ _ ⟨hv, he, hm, hd, hu⟩
        rw [State.out_wmMessage hp hs]
        simp [State.setFlag]
      · simp

end Sys2Proof.Machine
end

section
/-!
SUPPORT. The bins of samples (R49), and O26.
-/
namespace Sys2Proof.Machine

/-- Of the numbers below `n` that satisfy a condition closed downward, there are more than `b` exactly where `b` is one. -/
theorem lt_length_filter_range_iff {p : Nat → Bool} (hp : ∀ i j, i ≤ j → p j = true → p i = true) {b n : Nat} (hb : b < n) :
    b < ((List.range n).filter p).length ↔ p b = true := by
  induction n with
  | zero => omega
  | succ n ih =>
    rw [List.range_succ, List.filter_append, List.length_append]
    by_cases hpn : p n = true
    · have hall : (List.range n).filter p = List.range n :=
        List.filter_eq_self.2 (fun i hi => hp i n (List.mem_range.1 hi).le hpn)
      simp [hall, hpn, hb, hp b n (Nat.lt_succ_iff.1 hb) hpn]
    · rcases Nat.lt_succ_iff_lt_or_eq.1 hb with hlt | rfl
      · simpa [hpn] using ih hlt
      · have hle : ((List.range b).filter p).length ≤ b := by simpa using List.length_filter_le p (List.range b)
        simpa [hpn] using hle

/-- A sample that reaches an edge reaches every lower one. -/
theorem atEdge_mono {t b b' : Nat} (h : b ≤ b') (ha : atEdge t b' = true) : atEdge t b = true := by
  simp only [atEdge, decide_eq_true_eq] at ha ⊢
  exact (Nat.mul_le_mul_left _ (Nat.pow_le_pow_right (by norm_num) h)).trans_lt ha

/-- The test in whole numbers is a comparison with the edge, the floor of a fourth root (R49). -/
theorem atEdge_iff {t b e : Nat} (hlo : e ^ 4 ≤ 1200 ^ 4 * 2 ^ b) (hhi : 1200 ^ 4 * 2 ^ b < (e + 1) ^ 4) :
    atEdge t b = true ↔ e ≤ t := by
  rw [atEdge, decide_eq_true_eq]
  constructor
  · intro h
    exact Nat.lt_succ_iff.1 (lt_of_pow_lt_pow_left₀ 4 (Nat.zero_le _) (hlo.trans_lt h))
  · intro h
    exact hhi.trans_le (Nat.pow_le_pow_left (Nat.succ_le_succ h) 4)

/-- A bin is `b` or above exactly where the sample reaches edge `b`. -/
theorem le_binOf_iff {t b : Nat} (h1 : 1 ≤ b) (h64 : b ≤ 64) : b ≤ binOf t ↔ atEdge t b = true := by
  obtain ⟨k, rfl⟩ := Nat.exists_eq_add_of_le' h1
  exact lt_length_filter_range_iff (fun i j hij => atEdge_mono (Nat.succ_le_succ hij)) h64

/-- There are 65 bins (R49). -/
theorem binOf_le (t : Nat) : binOf t ≤ 64 :=
  (List.length_filter_le _ _).trans_eq List.length_range

/-- Settles O26: the edges that a sample reaches are the lowest ones, so their number is the bin. -/
theorem sampleBins : Obligations.SampleBins := by
  unfold Obligations.SampleBins
  exact fun t => ⟨binOf_le t, fun b e h1 h64 hlo hhi => (le_binOf_iff h1 h64).trans (atEdge_iff hlo hhi)⟩

end Sys2Proof.Machine
end

section
/-!
SUPPORT. The Percentile Guard: the rank rule (R55), the guard's state after an evaluation (R56), and O28.
-/
namespace Sys2Proof.Machine

/-! ### The rank rule -/

/-- How many samples of a window lie in bins below `b`. -/
def countBelow (win : List WinEnt) (b : Nat) : Nat := win.countP (fun e => decide (e.bin < b))

/-- No sample lies below bin 0. -/
@[simp] theorem countBelow_zero (win : List WinEnt) : countBelow win 0 = 0 := by simp [countBelow]

/-- The samples below the next bin are those below this one and those in it. -/
theorem countBelow_succ (win : List WinEnt) (b : Nat) :
    countBelow win (b + 1) = countBelow win b + (win.filter (fun e => e.bin == b)).length := by
  rw [← List.countP_eq_length_filter]
  induction win with
  | nil => rfl
  | cons e win ih =>
    simp only [countBelow, List.countP_cons] at ih ⊢
    rw [ih]
    rcases Nat.lt_trichotomy e.bin b with h | h | h
    · simp [h, h.ne, Nat.lt_succ_of_lt h]
      omega
    · simp [h]
      omega
    · simp [h.ne', h.not_gt, h.not_ge]

/-- Higher bins have no fewer samples below them. -/
theorem countBelow_mono (win : List WinEnt) {a b : Nat} (h : a ≤ b) : countBelow win a ≤ countBelow win b :=
  List.countP_mono_left (fun _ _ he => decide_eq_true ((of_decide_eq_true he).trans_le h))

/-- The cumulative count of a bin. -/
theorem length_filter_le_bin (win : List WinEnt) (b : Nat) :
    (win.filter (fun e => decide (e.bin ≤ b))).length = countBelow win (b + 1) := by
  simp only [countBelow, List.countP_eq_length_filter, Nat.lt_succ_iff]

/-- Where every sample's bin is below `b`, all samples are. -/
theorem countBelow_of_all {win : List WinEnt} {b : Nat} (h : ∀ e ∈ win, e.bin < b) : countBelow win b = win.length :=
  List.countP_eq_length.2 (fun e he => decide_eq_true (h e he))

/-- The search stops within its fuel. -/
theorem rankBin_le (win : List WinEnt) (r fuel b seen : Nat) : rankBin win r fuel b seen ≤ b + fuel := by
  induction fuel generalizing b seen with
  | zero => exact Nat.le_refl b
  | succ fuel ih =>
    simp only [rankBin]
    split
    · omega
    · exact (ih _ _).trans (by omega)

/-- The search from a bin below which fewer than `r` samples lie stops where fewer than `r` still lie below, and at a bin whose cumulative
count reaches `r` unless its fuel ends. -/
theorem rankBin_spec (win : List WinEnt) (r fuel b : Nat) (h : countBelow win b < r) :
    countBelow win (rankBin win r fuel b (countBelow win b)) < r ∧
      (r ≤ countBelow win (rankBin win r fuel b (countBelow win b) + 1) ∨ rankBin win r fuel b (countBelow win b) = b + fuel) := by
  induction fuel generalizing b with
  | zero => exact ⟨h, .inr rfl⟩
  | succ fuel ih =>
    simp only [rankBin, ← countBelow_succ]
    split
    · next hr => exact ⟨h, .inl hr⟩
    · next hr =>
      obtain ⟨hlt, hend⟩ := ih (b + 1) (Nat.lt_of_not_le hr)
      exact ⟨hlt, hend.imp_right (by omega)⟩

/-- The estimate bin is the smallest whose cumulative count reaches the rank (R55). -/
theorem rankBin_isLeast {win : List WinEnt} {r : Nat} (hwin : ∀ e ∈ win, e.bin ≤ 64) (h1 : 1 ≤ r) (hr : r ≤ win.length) :
    r ≤ countBelow win (rankBin win r 64 0 0 + 1) ∧ ∀ b < rankBin win r 64 0 0, countBelow win (b + 1) < r := by
  obtain ⟨hlt, hend⟩ := rankBin_spec win r 64 0 (by rwa [countBelow_zero])
  rw [countBelow_zero] at hlt hend
  refine ⟨?_, fun b hb => (countBelow_mono win hb).trans_lt hlt⟩
  rcases hend with hend | hend
  · exact hend
  · rw [hend, countBelow_of_all (fun e he => Nat.lt_succ_of_le (hwin e he))]
    exact hr

/-! ### One class's evaluation -/

/-- The window of a class's guard at a boundary: the samples of its kind, but for those of the beat that begins. -/
def State.guardWin (s : State) (c : Nat) : List WinEnt :=
  s.tal.win.filter (fun e => e.idx != s.beat.idx && e.cls == c && e.kind == s.act (TAL_GUARD_KIND c))

/-- Whether the estimate is valid (R55). -/
def State.guardValid (s : State) (c : Nat) : Bool := decide (max (s.act (TAL_GUARD_MIN_MIN_N c)) 1 ≤ (s.guardWin c).length)

/-- The estimate bin, 0 where it is not valid (R55, Table 3-11). -/
def State.guardEst (s : State) (c : Nat) : Nat :=
  if s.guardValid c then
    rankBin (s.guardWin c) ((s.guardWin c).length - (s.guardWin c).length / pctlDiv (s.act (TAL_GUARD_PCTL c))) 64 0 0
  else 0

/-- What the evaluation does to the guard: close it, open it or leave it (R56). -/
def State.guardMove (s : State) (c : Nat) : Option Bool :=
  if s.act (TAL_GUARD_EN c) = 0 ∨ s.guardValid c = false then some false
  else if min (s.act (TAL_GUARD_THR c)) 64 ≤ s.guardEst c then some true
  else if s.guardEst c + s.act (TAL_GUARD_HYST c) < min (s.act (TAL_GUARD_THR c)) 64 then some false
  else none

/-- The state with the estimate shown, before the guard moves. -/
def State.guardShown (s : State) (c : Nat) : State :=
  ((s.setFlag (TAL_GUARD_EST_VALID c) (s.guardValid c)).setFld (TAL_GUARD_EST_EST_BIN c) (s.guardEst c)).setFld (TAL_GUARD_EST_WIN_N c)
    (min (s.guardWin c).length 0xFFFFFF)

/-- An evaluation shows the estimate and moves the guard. -/
theorem State.guardEval_eq (s : State) (c : Nat) : s.guardEval c = (s.guardShown c).guardSet c (s.guardMove c) := rfl

/-- The estimate is a bin. -/
theorem State.guardEst_le (s : State) (c : Nat) : s.guardEst c ≤ 64 := by
  unfold State.guardEst
  split
  · exact rankBin_le ..
  · omega

/-- An invalid estimate is 0. -/
theorem State.guardEst_of_invalid {s : State} {c : Nat} (h : s.guardValid c = false) : s.guardEst c = 0 := by
  simp [State.guardEst, h]

/-- The estimate as shown. -/
theorem State.guardShown_est (s : State) (c : Nat) :
    (s.guardShown c).flag (TAL_GUARD_EST_VALID c) = s.guardValid c ∧ (s.guardShown c).fld (TAL_GUARD_EST_EST_BIN c) = s.guardEst c := by
  have hle := s.guardEst_le c
  unfold State.guardShown
  constructor
  · rw [State.flag_setFld_apart _ _ _ _ (by simp) (by simp) (by simp), State.flag_setFld_apart _ _ _ _ (by simp) (by simp) (by simp),
      State.flag_setFlag_same _ _ _ (by simp) rfl]
  · rw [State.fld_setFld_apart _ _ _ _ (by simp) (by simp) (by simp), State.fld_setFld_same _ _ _ (by simp)]
    exact Nat.mod_eq_of_lt (by simp; omega)

/-- Showing the estimate leaves the guard. -/
theorem State.guardClosed_guardShown (s : State) (c : Nat) : (s.guardShown c).guardClosed c = s.guardClosed c := by
  unfold State.guardShown State.guardClosed
  rw [State.flag_setFld_apart _ _ _ _ (by simp) (by simp) (by simp), State.flag_setFld_apart _ _ _ _ (by simp) (by simp) (by simp),
    State.flag_setFlag_apart _ _ _ _ (by simp) (by simp) (by simp)]

/-- The guard's state is LEVEL_ABOVE of its watermark (R57). -/
theorem wmFlds_guard_above {c : Nat} (hc : c < 8) : (wmFlds (.guard (Fin.ofNat 8 c))).above = TAL_GUARD_STS_LEVEL_ABOVE c := by
  simp [wmFlds, Nat.mod_eq_of_lt hc]

/-- Moving the guard leaves every field of other registers. -/
theorem State.fld_guardSet (s : State) (c : Nat) (x : Option Bool) (g : Fld) (hg : g.lo + g.w ≤ 32)
    (hn : g.addr ≠ (wmFlds (.guard (Fin.ofNat 8 c))).count.addr) : (s.guardSet c x).fld g = s.fld g := by
  have hw := wmFlds_inLayout (.guard (Fin.ofNat 8 c))
  simp only [State.guardSet]
  split
  · split
    · rfl
    · exact State.fld_wmUp hw s g hg hn
  · split
    · exact State.fld_wmDown hw s g hg hn
    · rfl
  · rfl

/-- The guard is closed or open as it was moved. -/
theorem State.guardClosed_guardSet (s : State) {c : Nat} (hc : c < 8) (x : Option Bool) :
    (s.guardSet c x).guardClosed c = x.getD (s.guardClosed c) := by
  have hw := wmFlds_inLayout (.guard (Fin.ofNat 8 c))
  simp only [State.guardClosed, ← wmFlds_guard_above hc]
  rcases x with - | (- | -)
  case none => rfl
  case some.false =>
    simp only [State.guardSet]
    split
    · exact (State.wmDown_status hw s).1
    · next h => exact Bool.eq_false_iff.2 h
  case some.true =>
    simp only [State.guardSet]
    split
    · next h => exact h
    · exact State.flag_above_wmUp hw s

/-- EST_BIN and VALID after an evaluation. -/
theorem State.guardEval_est (s : State) (c : Nat) :
    (s.guardEval c).flag (TAL_GUARD_EST_VALID c) = s.guardValid c ∧ (s.guardEval c).fld (TAL_GUARD_EST_EST_BIN c) = s.guardEst c := by
  have hn : 0x5010c + 0x10 * c ≠ (wmFlds (.guard (Fin.ofNat 8 c))).count.addr := by
    simp only [wmFlds]
    omega
  rw [State.guardEval_eq, State.flag, State.fld_guardSet _ c _ (TAL_GUARD_EST_VALID c) (by simp) hn,
    State.fld_guardSet _ c _ (TAL_GUARD_EST_EST_BIN c) (by simp) hn]
  exact s.guardShown_est c

/-- The guard after an evaluation (R56). -/
theorem State.guardEval_closed (s : State) {c : Nat} (hc : c < 8) :
    (s.guardEval c).guardClosed c = (s.guardMove c).getD (s.guardClosed c) := by
  rw [State.guardEval_eq, State.guardClosed_guardSet _ hc, State.guardClosed_guardShown]

/-! ### The obligation -/

/-- Settles O28: the search finds the least bin of its rank, and an evaluation shows it and moves the guard. -/
theorem guardEvaluation : Obligations.GuardEvaluation := by
  unfold Obligations.GuardEvaluation
  refine ⟨?rank, ?eval⟩
  case rank =>
    intro win r hwin h1 hr est
    obtain ⟨hreach, hbelow⟩ := rankBin_isLeast hwin h1 hr
    simp only [length_filter_le_bin]
    exact ⟨(rankBin_le ..).trans (Nat.le_refl 64), hreach, hbelow⟩
  case eval =>
    intro s c hc t thr est n
    obtain ⟨hvalid, hest⟩ := s.guardEval_est c
    have hclosed := s.guardEval_closed hc
    simp only [t, est, hvalid, hest, hclosed]
    refine ⟨rfl, State.guardEst_of_invalid, fun h => by simp [State.guardMove, h], fun hen hv => ?_⟩
    rw [State.guardMove, if_neg (by simp [hen, hv])]
    split
    · rfl
    · split <;> rfl

end Sys2Proof.Machine
end

section
/-!
SUPPORT. What a TCLK edge leaves the tallies: the event log, messages and the mesh change neither the tally state nor a register of
its block, which lies below theirs (3.6).
-/
namespace Sys2Proof.Machine

/-! ### The view -/

/-- What the tallies have of a state: their own state, and what the Admission Port's view holds, so their registers and the beat.
(A definition of its own, so that the kernel compares the views of two states without evaluating the states.) -/
def State.tallyView (s : State) : TalSt × AdmSt × Tbl SlotRec × BeatSt × (Nat → BitVec 32) := (s.tal, s.admView)

/-- States that agree in both parts have one view. -/
theorem State.tallyView_eq {s t : State} (ht : t.tal = s.tal) (hv : t.admView = s.admView) : t.tallyView = s.tallyView := by
  rw [State.tallyView, State.tallyView, ht, hv]

/-- One view, one tally state. -/
theorem State.tal_of_tallyView {s t : State} (h : t.tallyView = s.tallyView) : t.tal = s.tal := congrArg (fun v => v.1) h

/-- One view, one view of the Admission Port. -/
theorem State.admView_of_tallyView {s t : State} (h : t.tallyView = s.tallyView) : t.admView = s.admView :=
  congrArg (fun v => v.2) h

/-- A fold of steps that each leave the view leaves it. -/
theorem State.tallyView_foldl {α : Type} (f : State → α → State) (hf : ∀ s x, (f s x).tallyView = s.tallyView) (l : List α)
    (s : State) : (l.foldl f s).tallyView = s.tallyView := by
  induction l generalizing s with
  | nil => rfl
  | cons x l ih => exact (ih _).trans (hf s x)

/-! ### Registers above the view -/

@[simp] theorem State.tallyView_setFld (s : State) {a lo w : Nat} (v : Nat) (ha : 0x60000 ≤ a) :
    (s.setFld ⟨a, lo, w⟩ v).tallyView = s.tallyView := State.tallyView_eq (by simp) (State.admView_setFld s v ha)

@[simp] theorem State.tallyView_setFlag (s : State) {a lo w : Nat} (b : Bool) (ha : 0x60000 ≤ a) :
    (s.setFlag ⟨a, lo, w⟩ b).tallyView = s.tallyView := State.tallyView_setFld s _ ha

@[simp] theorem State.tallyView_setFbit (s : State) {a lo w : Nat} (i : Nat) (b : Bool) (ha : 0x60000 ≤ a) :
    (s.setFbit ⟨a, lo, w⟩ i b).tallyView = s.tallyView := State.tallyView_setFld s _ ha

@[simp] theorem State.tallyView_countBy (s : State) {a lo w : Nat} (n : Nat) (ha : 0x60000 ≤ a) :
    (s.countBy ⟨a, lo, w⟩ n).tallyView = s.tallyView := State.tallyView_setFld s _ ha

@[simp] theorem State.tallyView_countSat (s : State) {a lo w : Nat} (ha : 0x60000 ≤ a) :
    (s.countSat ⟨a, lo, w⟩).tallyView = s.tallyView := State.tallyView_setFld s _ ha

@[simp] theorem State.tallyView_withNet (s : State) (x : NetSt) : (s.withNet x).tallyView = s.tallyView :=
  State.tallyView_eq rfl (State.admView_withNet s x)

@[simp] theorem State.tallyView_setMsix (s : State) (f : Nat) (m : MsixSt) : (s.setMsix f m).tallyView = s.tallyView :=
  State.tallyView_eq rfl (State.admView_setMsix s f m)

@[simp] theorem State.tallyView_send (s : State) (m : OutMsg) : (s.send m).tallyView = s.tallyView :=
  State.tallyView_eq rfl (State.admView_send s m)

@[simp] theorem State.tallyView_evt (s : State) (x : EvtSt) : State.tallyView { s with evt := x } = s.tallyView :=
  State.tallyView_eq rfl (State.admView_evt s x)

@[simp] theorem State.tallyView_hostMem (s : State) (x : Mem) : State.tallyView { s with hostMem := x } = s.tallyView :=
  State.tallyView_eq rfl (State.admView_hostMem s x)

@[simp] theorem State.tallyView_setPpwr (s : State) (p : Nat) (x : PartPwr) : (s.setPpwr p x).tallyView = s.tallyView :=
  State.tallyView_eq rfl (State.admView_of_regs rfl rfl rfl rfl)

@[simp] theorem State.tallyView_withMesh (s : State) (m : MeshSt) : (s.withMesh m).tallyView = s.tallyView :=
  State.tallyView_withNet ..

/-! ### Messages and the event log -/

@[simp] theorem State.tallyView_raise (s : State) (v : Nat) : (s.raise v).tallyView = s.tallyView := by
  simp only [State.raise, State.raiseFn]
  split
  · rfl
  · split
    · split
      · rfl
      · exact State.tallyView_setMsix ..
    · exact State.tallyView_send ..

@[simp] theorem State.tallyView_ringWrite (s : State) (e : Event) : (s.ringWrite e).tallyView = s.tallyView := by
  unfold State.ringWrite
  extract_lets head a _ _ s1 full s2 s3 _
  have h2 : s2.tallyView = s.tallyView := by
    unfold s2
    split
    · simp [s1]
    · rfl
  have h3 : s3.tallyView = s.tallyView := by simp [s3, h2]
  split
  · exact (State.tallyView_evt _ _).trans (State.tallyView_setFlag s _ (by decide))
  · split
    · exact (State.tallyView_raise _ _).trans ((State.tallyView_evt _ _).trans h3)
    · exact h3

@[simp] theorem State.tallyView_logD (s : State) (k : EvKind) (b a : Nat) (d : List Nat) : (s.logD k b a d).tallyView = s.tallyView := by
  unfold State.logD State.logEvent State.holdEvent
  split
  · exact State.tallyView_ringWrite ..
  · split
    · exact (State.tallyView_countSat _ (by decide)).trans (State.tallyView_evt ..)
    · exact State.tallyView_evt ..

/-! ### The mesh -/

@[simp] theorem State.tallyView_pmuAdd (s : State) (k n : Nat) : (s.pmuAdd k n).tallyView = s.tallyView := by
  simp [State.pmuAdd, apply_ite State.tallyView]

@[simp] theorem State.tallyView_pmuEvent (s : State) (ev n : Nat) (at_ : Nat → Bool) (vc : Option Nat) :
    (s.pmuEvent ev n at_ vc).tallyView = s.tallyView :=
  State.tallyView_foldl _ (fun t k => by simp [apply_ite State.tallyView]) _ s

@[simp] theorem State.tallyView_trvCe (s : State) (r plane port : Nat) : (s.trvCe r plane port).tallyView = s.tallyView := by
  simp [State.trvCe]

@[simp] theorem State.tallyView_trvUe (s : State) (k : EvKind) (r plane port : Nat) :
    (s.trvUe k r plane port).tallyView = s.tallyView := by
  unfold State.trvUe
  extract_lets s1
  have h1 : s1.tallyView = s.tallyView := by simp [s1, State.trvLoc]
  split
  · exact (State.tallyView_raise ..).trans h1
  · exact h1

@[simp] theorem State.tallyView_arriveAt (s : State) (i : Nat) (k : MeshPkt) (pk vc : Nat) (f : MeshFlit) :
    (s.arriveAt i k pk vc f).tallyView = s.tallyView := by
  unfold State.arriveAt
  extract_lets plane r q last gone ce ue
  have hgone : ∀ t k2, (gone t k2).tallyView = t.tallyView := fun t k2 => State.tallyView_withMesh ..
  split
  · exact hgone s k
  · split
    · exact State.tallyView_withMesh ..
    · exact (State.tallyView_withMesh ..).trans (State.tallyView_trvCe ..)
    · exact (State.tallyView_withMesh ..).trans (State.tallyView_trvUe ..)
    · exact (hgone _ _).trans ((State.tallyView_setFlag _ _ (by decide)).trans (State.tallyView_trvUe ..))

@[simp] theorem State.tallyView_meshOut (s : State) (plane r out : Nat) : (s.meshOut plane r out).tallyView = s.tallyView := by
  unfold State.meshOut
  extract_lets m ok
  split
  · rfl
  · extract_lets q m1
    split
    · rfl
    · extract_lets last m2 s1
      split <;> simp [s1]

@[simp] theorem State.tallyView_meshEject (s : State) (q : Nat) : (s.meshEject q).tallyView = s.tallyView := by
  unfold State.meshEject
  extract_lets m
  split <;> simp

@[simp] theorem State.tallyView_sinkTake (s : State) (i : Nat) (h : BitVec 64) : (s.sinkTake i h).tallyView = s.tallyView := by
  unfold State.sinkTake
  extract_lets vc s1
  have h1 : s1.tallyView = s.tallyView := by
    unfold s1
    split
    · exact State.tallyView_withNet ..
    · rfl
  split
  · rfl
  · split
    · exact (State.tallyView_withMesh ..).trans h1
    · exact h1

@[simp] theorem State.tallyView_meshInject (s : State) (i : Nat) : (s.meshInject i).tallyView = s.tallyView := by
  unfold State.meshInject
  split
  · rfl
  · extract_lets m vc s1 k1 q k2 m1 m2
    have h1 : s1.tallyView = s.tallyView := by simp [s1, apply_ite State.tallyView]
    split
    · rfl
    · split <;> simp [h1]

@[simp] theorem State.tallyView_meshCycle (s : State) : s.meshCycle.tallyView = s.tallyView := by
  unfold State.meshCycle
  extract_lets m back m1 s1 s2 s3 s4
  have h2 : s2.tallyView = s.tallyView := (State.tallyView_foldl _ State.tallyView_meshEject _ _).trans (State.tallyView_withMesh ..)
  have h3 : s3.tallyView = s2.tallyView := State.tallyView_foldl _ (fun t w => State.tallyView_meshOut ..) _ _
  have h4 : s4.tallyView = s3.tallyView := State.tallyView_foldl _ State.tallyView_meshInject _ _
  exact (State.tallyView_withMesh ..).trans (h4.trans (h3.trans h2))

@[simp] theorem State.tallyView_tokWaiting (s : State) (n : Nat) : (s.tokWaiting n).tallyView = s.tallyView :=
  State.tallyView_foldl _ (fun t _ => State.tallyView_foldl _ (fun _ _ => State.tallyView_pmuEvent ..) _ t) _ s

@[simp] theorem State.tallyView_meshRun (s : State) (n : Nat) : (s.meshRun n).tallyView = s.tallyView := by
  induction n generalizing s with
  | zero => rfl
  | succ n ih =>
    unfold State.meshRun
    split <;> simp [ih]

/-! ### Time -/

@[simp] theorem State.tallyView_pclkTicks (s : State) (n : Nat) : (s.pclkTicks n).tallyView = s.tallyView :=
  State.tallyView_foldl _ (fun t p => State.tallyView_setPpwr t p _) _ s

@[simp] theorem State.tallyView_busyTicks (s : State) (n : Nat) : (s.busyTicks n).tallyView = s.tallyView :=
  (State.tallyView_foldl _ (fun t e => by simp [apply_ite State.tallyView]) _ _).trans
    (State.tallyView_foldl _ (fun t e => by simp [apply_ite State.tallyView]) _ _)

end Sys2Proof.Machine
end

section
/-!
SUPPORT. Samples, snapshots, clears and window clears of the tallies (R50 to R54), and O27.
-/
namespace Sys2Proof.Machine

/-! ### Tables copied and filtered -/

/-- A key of a table filtered by key reads as before where it is kept, and else as its default. -/
theorem Tbl.get_filter_key {α : Type} (d : Nat → α) (t : Tbl α) (p : Nat → Bool) (k : Nat) :
    Tbl.get d (t.filter (fun e => p e.1)) k = if p k then Tbl.get d t k else d k := by
  induction t with
  | nil => simp [Tbl.get]
  | cons e t ih =>
    obtain ⟨j, v⟩ := e
    by_cases hj : j = k
    · subst hj
      cases hp : p j <;> simp [hp, Tbl.get, ih]
    · cases hp : p j <;> simp [hp, Tbl.get, hj, ih]

/-- Keys that rise from a bound reach it. -/
theorem Tbl.le_of_risesFrom {α : Type} {t : Tbl α} {lo : Nat} (h : Tbl.risesFrom lo t = true) : ∀ e ∈ t, lo ≤ e.1 := by
  induction t generalizing lo with
  | nil => simp
  | cons x t ih =>
    obtain ⟨j, v⟩ := x
    simp only [Tbl.risesFrom, Bool.and_eq_true, decide_eq_true_eq] at h
    obtain ⟨hj, ht⟩ := h
    rintro e (- | ⟨-, he⟩)
    · exact hj
    · exact hj.trans ((Nat.le_succ j).trans (ih ht e he))

/-- Setting the entries of a table that does not list a key leaves the key. -/
theorem Tbl.get_foldl_set_of_unlisted {α : Type} [DecidableEq α] (d : Nat → α) (src t : Tbl α) {k : Nat}
    (h : ∀ e ∈ src, e.1 ≠ k) : Tbl.get d (src.foldl (fun t e => Tbl.set d t e.1 e.2) t) k = Tbl.get d t k := by
  induction src generalizing t with
  | nil => rfl
  | cons e src ih =>
    rw [List.foldl_cons, ih _ (fun x hx => h x (List.mem_cons_of_mem _ hx)), Tbl.get_set_ne _ _ _ (h e List.mem_cons_self).symm]

/-- Setting the entries of a table with rising keys gives a key that read as its default the table's own value. -/
theorem Tbl.get_foldl_set {α : Type} [DecidableEq α] (d : Nat → α) (src t : Tbl α) {k lo : Nat} (hs : Tbl.risesFrom lo src = true)
    (ht : Tbl.get d t k = d k) : Tbl.get d (src.foldl (fun t e => Tbl.set d t e.1 e.2) t) k = Tbl.get d src k := by
  induction src generalizing t lo with
  | nil => exact ht
  | cons e src ih =>
    obtain ⟨j, v⟩ := e
    simp only [Tbl.risesFrom, Bool.and_eq_true] at hs
    rw [List.foldl_cons]
    by_cases hj : j = k
    · subst hj
      have hn : ∀ e ∈ src, e.1 ≠ j := fun e he => Nat.ne_of_gt (Tbl.le_of_risesFrom hs.2 e he)
      rw [Tbl.get_foldl_set_of_unlisted d src _ hn, Tbl.get_set_same, Tbl.get, if_pos rfl]
    · rw [ih _ hs.2 (by rw [Tbl.get_set_ne _ _ _ (Ne.symm hj), ht]), Tbl.get, if_neg hj]

/-- A copy of classes reads as its source in them and as before elsewhere (R51). -/
theorem get_copyClasses {α : Type} [DecidableEq α] (d : Nat → α) (mask : Nat) (src dst : Tbl α) (k : Nat) (hs : Tbl.wf d src = true) :
    Tbl.get d (copyClasses d mask src dst) k = if inMask mask k then Tbl.get d src k else Tbl.get d dst k := by
  have hdst := Tbl.get_filter_key d dst (fun k => !inMask mask k) k
  unfold copyClasses
  cases hk : inMask mask k with
  | true =>
    have hr := Tbl.risesFrom_filter (fun e => inMask mask e.1) src 0 ((Tbl.wf_iff d src).1 hs).1
    rw [Tbl.get_foldl_set d _ _ hr (by simpa [hk] using hdst), Tbl.get_filter_key d src (inMask mask), hk]
    rfl
  | false =>
    have hn : ∀ e ∈ src.filter (fun e => inMask mask e.1), e.1 ≠ k := by
      rintro e he rfl
      exact Bool.false_ne_true (hk.symm.trans (List.mem_filter.1 he).2)
    rw [Tbl.get_foldl_set_of_unlisted d _ _ hn, hdst, hk]
    rfl

/-- A bin's class is that of its key. -/
theorem inMask_binKey (mask c : Nat) {kind b : Nat} (hk : kind < 2) (hb : b < 65) :
    inMask mask (binKey c kind b) = mask.testBit c := by
  have h : binKey c kind b / 130 = c := by
    unfold binKey
    omega
  rw [inMask, h]

/-! ### Samples (R50, R53, R54) -/

/-- The live count of a bin. -/
def State.binCount (s : State) (k : Nat) : Nat := Tbl.get (fun _ => 0) s.tal.bins k

/-- The entry of a sample in the guard window, at the present count beat (R54). -/
def State.winEntry (s : State) (c kind t : Nat) : WinEnt := ⟨s.beat.idx, c, kind, binOf t⟩

/-- The key of a sample's bin. -/
def sampleKey (c kind t : Nat) : Nat := binKey c kind (binOf t)

/-- A bit of a field reads as it was last written. -/
theorem State.testBit_setFbit_same (s : State) (f : Fld) {i : Nat} (b : Bool) (hf : f.lo + f.w ≤ 32) (hi : i < f.w) :
    ((s.setFbit f i b).fld f).testBit i = b := by
  rw [State.setFbit, State.fld_setFld_same _ _ _ hf, Nat.testBit_mod_two_pow, testBit_putBits]
  cases b <;> simp [hi]

/-- A sample of a bin that is not full is counted in it (R50). -/
theorem State.countSample_of_room {s : State} {c kind t : Nat} (h : s.binCount (sampleKey c kind t) < 2 ^ 48 - 1) :
    (s.countSample c kind t).tal = { s.tal with
      bins := Tbl.set (fun _ => 0) s.tal.bins (sampleKey c kind t) (s.binCount (sampleKey c kind t) + 1)
      win := s.tal.win ++ [s.winEntry c kind t] } :=
  congrArg State.tal (if_pos h)

/-- A sample of a full bin is lost, and sets the bin's SAT bit and its class's (R53). -/
theorem State.countSample_of_full {s : State} {c kind t : Nat} (hc : c < 8) (h : 2 ^ 48 - 1 ≤ s.binCount (sampleKey c kind t)) :
    (s.countSample c kind t).tal = { s.tal with
      sat := Tbl.set (fun _ => false) s.tal.sat (sampleKey c kind t) true
      win := s.tal.win ++ [s.winEntry c kind t] } ∧
    ((s.countSample c kind t).fld TAL_STS_SAT).testBit c = true := by
  simp only [State.countSample]
  rw [if_neg (show ¬ Tbl.get (fun _ => 0) s.tal.bins (binKey c kind (binOf t)) < 2 ^ 48 - 1 from Nat.not_lt.2 h)]
  have hsat : ∀ u : State, ((u.setFbit TAL_STS_SAT c true).fld TAL_STS_SAT).testBit c = true :=
    fun u => u.testBit_setFbit_same TAL_STS_SAT true (by decide) hc
  split
  · exact ⟨State.setFbit_tal .., hsat _⟩
  · have hv := State.tallyView_logD
    exact ⟨(State.tal_of_tallyView (hv ..)).trans (State.setFbit_tal ..),
      by rw [State.fld_of_admView (State.admView_of_tallyView (hv ..)) _ (by decide)]; exact hsat _⟩

/-- What counting a sample does to the bins, the window and the SAT bits. -/
theorem State.countSample_spec (s : State) {c kind t : Nat} (hc : c < 8) :
    (s.countSample c kind t).tal.win = s.tal.win ++ [s.winEntry c kind t] ∧
    (∀ k, (s.countSample c kind t).binCount k =
      if k = sampleKey c kind t ∧ s.binCount (sampleKey c kind t) < 2 ^ 48 - 1 then s.binCount (sampleKey c kind t) + 1
      else s.binCount k) ∧
    (2 ^ 48 - 1 ≤ s.binCount (sampleKey c kind t) →
      Tbl.get (fun _ => false) (s.countSample c kind t).tal.sat (sampleKey c kind t) = true ∧
        ((s.countSample c kind t).fld TAL_STS_SAT).testBit c = true) := by
  rcases Nat.lt_or_ge (s.binCount (sampleKey c kind t)) (2 ^ 48 - 1) with h | h
  · have htal := State.countSample_of_room h
    refine ⟨by rw [htal], fun k => ?_, fun hf => absurd hf h.not_ge⟩
    rw [State.binCount, htal, Tbl.get_set]
    simp only [h, and_true]
    rfl
  · obtain ⟨htal, hsts⟩ := State.countSample_of_full hc h
    refine ⟨by rw [htal], fun k => ?_, fun _ => ⟨by rw [htal, Tbl.get_set_same], hsts⟩⟩
    rw [State.binCount, htal, if_neg (fun hk => hk.2.not_ge h)]
    rfl

/-! ### A TCLK edge (R51, R52) -/

/-- The tally state after a TCLK edge: the copies that wait are made, then the clears. -/
def TalSt.edge (t : TalSt) : TalSt :=
  { t with
    snap := copyClasses (fun _ => 0) t.snapPend t.bins t.snap
    snapSat := copyClasses (fun _ => false) t.snapPend t.sat t.snapSat
    bins := t.bins.filter (fun e => !inMask t.clearPend e.1)
    sat := t.sat.filter (fun e => !inMask t.clearPend e.1)
    snapPend := 0
    clearPend := 0 }

/-- An edge at which nothing waits changes nothing. -/
theorem TalSt.edge_of_idle {t : TalSt} (h : t.snapPend = 0 ∧ t.clearPend = 0) : t.edge = t := by
  obtain ⟨bins, sat, snap, snapSat, win, winClear, snapPend, clearPend⟩ := t
  obtain ⟨rfl, rfl⟩ := h
  simp [TalSt.edge, copyClasses, inMask]

/-- A TCLK edge does what waits (R51, R52). -/
theorem State.tallyEdge_tal (s : State) : s.tallyEdge.tal = s.tal.edge := by
  unfold State.tallyEdge
  extract_lets t s1
  split
  · next h => exact (TalSt.edge_of_idle h).symm
  · rfl

/-- The tally state is apart from the registers. -/
@[simp] theorem State.fld_withTal (s : State) (x : TalSt) (f : Fld) : (s.withTal x).fld f = s.fld f := State.fld_of_regs rfl f

@[simp] theorem State.flag_withTal (s : State) (x : TalSt) (f : Fld) : (s.withTal x).flag f = s.flag f := State.flag_of_regs rfl f

/-- So is the beat. -/
@[simp] theorem State.fld_withBeat (s : State) (x : BeatSt) (f : Fld) : (s.withBeat x).fld f = s.fld f := State.fld_of_regs rfl f

/-- The time of a snapshot reads as stored. -/
theorem State.fld_snapTime_same (s : State) (n v : Nat) (hv : v < 2 ^ 64) :
    (s.setFld (TAL_SNAP_TIME_TIME n) v).fld (TAL_SNAP_TIME_TIME n) = v := by
  rw [State.fld_setFld_same_pair _ _ _ (by simp) (by simp), Nat.mod_eq_of_lt hv]

/-- A pair's field depends on its two words. -/
theorem State.fld_of_words {s t : State} (f : Fld) (h0 : t.word f.addr = s.word f.addr) (h1 : t.word (f.addr + 4) = s.word (f.addr + 4)) :
    t.fld f = s.fld f := by
  simp only [State.fld, State.dword, h0, h1]

/-- The time of one class's snapshot leaves the others'. -/
theorem State.fld_snapTime_ne (s : State) {n c : Nat} (v : Nat) (h : n ≠ c) :
    (s.setFld (TAL_SNAP_TIME_TIME n) v).fld (TAL_SNAP_TIME_TIME c) = s.fld (TAL_SNAP_TIME_TIME c) :=
  State.fld_of_words _ (State.word_setFld_ne _ _ _ _ (by simp; omega)) (State.word_setFld_ne _ _ _ _ (by simp; omega))

/-- Storing the times of a list of classes stores the timestamp for those of the mask. -/
theorem State.fld_snapTimes_foldl (mask c : Nat) (l : List Nat) (s : State) :
    (l.foldl (fun t n => if mask.testBit n then t.setFld (TAL_SNAP_TIME_TIME n) t.beat.ts.toNat else t) s).fld (TAL_SNAP_TIME_TIME c) =
      if c ∈ l ∧ mask.testBit c = true then s.beat.ts.toNat else s.fld (TAL_SNAP_TIME_TIME c) := by
  induction l generalizing s with
  | nil => simp
  | cons n l ih =>
    rw [List.foldl_cons, ih]
    by_cases hn : mask.testBit n = true
    · by_cases hnc : n = c
      · subst hnc
        simp [hn, State.fld_snapTime_same _ _ _ s.beat.ts.isLt]
      · simp [hn, State.fld_snapTime_ne _ _ hnc, Ne.symm hnc]
    · by_cases hnc : c = n
      · subst hnc
        simp [hn]
      · simp [hn, hnc]

/-- After an edge with a snapshot that waits SNAP_BUSY reads 0 (R51). -/
theorem State.tallyEdge_busy {s : State} (h : s.tal.snapPend ≠ 0) : s.tallyEdge.flag TAL_STS_SNAP_BUSY = false := by
  unfold State.tallyEdge
  extract_lets t s1
  rw [if_neg (fun hz => h hz.1), State.flag_withTal]
  exact State.flag_setFlag_same _ _ _ (by decide) rfl

/-- An edge stores the timestamp for each class of a snapshot that waits (R51). -/
theorem State.tallyEdge_time {s : State} {c : Nat} (hc : c < 8) (h : s.tal.snapPend.testBit c = true) :
    s.tallyEdge.fld (TAL_SNAP_TIME_TIME c) = s.beat.ts.toNat := by
  have hz : s.tal.snapPend ≠ 0 := fun hz => by simp [hz] at h
  unfold State.tallyEdge
  extract_lets t s1
  rw [if_neg (fun h0 => hz h0.1), State.fld_withTal]
  unfold s1 t
  rw [State.setFlag, State.fld_of_words _ (State.word_setFld_ne _ _ _ _ (by simp; omega)) (State.word_setFld_ne _ _ _ _ (by simp; omega)),
    State.snapTimes, State.fld_snapTimes_foldl, if_pos ⟨List.mem_range.2 hc, h⟩]

section Bin
variable (t : TalSt) (c : Nat) {kind b : Nat} (hk : kind < 2) (hb : b < 65)
include hk hb

/-- The live bins of the classes of a clear that waits read 0 after the edge. -/
theorem TalSt.get_edge_bins : Tbl.get (fun _ => 0) t.edge.bins (binKey c kind b) =
    if t.clearPend.testBit c then 0 else Tbl.get (fun _ => 0) t.bins (binKey c kind b) := by
  rw [TalSt.edge, Tbl.get_filter_key _ _ (fun k => !inMask t.clearPend k), inMask_binKey _ _ hk hb]
  cases t.clearPend.testBit c <;> rfl

/-- So do their SAT bits. -/
theorem TalSt.get_edge_sat : Tbl.get (fun _ => false) t.edge.sat (binKey c kind b) =
    if t.clearPend.testBit c then false else Tbl.get (fun _ => false) t.sat (binKey c kind b) := by
  rw [TalSt.edge, Tbl.get_filter_key _ _ (fun k => !inMask t.clearPend k), inMask_binKey _ _ hk hb]
  cases t.clearPend.testBit c <;> rfl

/-- The snapshot bins of the classes of a snapshot that waits read as the live bins did. -/
theorem TalSt.get_edge_snap (hw : Tbl.wf (fun _ => (0 : Nat)) t.bins = true) :
    Tbl.get (fun _ => 0) t.edge.snap (binKey c kind b) =
      if t.snapPend.testBit c then Tbl.get (fun _ => 0) t.bins (binKey c kind b) else Tbl.get (fun _ => 0) t.snap (binKey c kind b) := by
  rw [TalSt.edge, get_copyClasses _ _ _ _ _ hw, inMask_binKey _ _ hk hb]

end Bin

/-! ### The commands -/

/-- The tally state in which SNAP, CLEAR and WIN_CLEAR of these classes wait as well. -/
def TalSt.asked (t : TalSt) (snap clear winClear : Nat) : TalSt :=
  { t with snapPend := t.snapPend ||| snap, clearPend := t.clearPend ||| clear, winClear := t.winClear ||| winClear }

/-- What TAL_CMD asks for waits. -/
theorem State.tallyCmd_tal (s : State) (snap clear winClear : Nat) :
    (s.tallyCmd snap clear winClear).tal = s.tal.asked snap clear winClear := by
  unfold State.tallyCmd
  split
  · rfl
  · rw [State.withTal_tal, State.setFlag_tal]
    rfl

/-- A write of TAL_CMD leaves the beat. -/
theorem State.tallyCmd_beat (s : State) (snap clear winClear : Nat) : (s.tallyCmd snap clear winClear).beat = s.beat := by
  unfold State.tallyCmd
  split
  · rfl
  · rw [State.withTal_beat, State.setFlag_beat]

/-- A write of TAL_CMD leaves the beat generator. -/
theorem State.tallyCmd_running (s : State) (snap clear winClear : Nat) : (s.tallyCmd snap clear winClear).running = s.running := by
  unfold State.tallyCmd State.running
  rw [State.flag_withTal]
  split
  · rfl
  · exact State.flag_setFlag_apart _ _ _ _ (by decide) (by decide) (by decide)

/-- The first edge after the present tick. -/
def State.nextEdge (s : State) : State := (s.withBeat (s.beat.ticks 1)).tallyEdge

/-- One tick on, with the clock locked and the next boundary not due, the tallies and their registers are as the edge left them: the rest
that happens in the tick is apart from them. -/
theorem State.timeTo_next {s : State} (hl : s.beat.locked1st = true) (hp : s.running = true → s.beat.tick < s.beat.placed) :
    (s.timeTo (s.beat.tick + 1)).tal = s.nextEdge.tal ∧
      ∀ f : Fld, f.addr + 4 < 0x60000 → (s.timeTo (s.beat.tick + 1)).fld f = s.nextEdge.fld f := by
  unfold State.timeTo
  extract_lets u s1 s2
  have hu : ¬(u ≤ s.beat.tick ∨ s.beat.locked1st = false) := by
    unfold u
    split
    · next hr => simp [hl, hp hr]
    · simp [hl]
  rw [if_neg hu]
  have hv : ((((s2.pclkTicks (u - s.beat.tick)).busyTicks (u - s.beat.tick)).pmuEvent 8 (u - s.beat.tick) (fun _ => true) none).meshRun
      (u - s.beat.tick)).tallyView = s2.tallyView := by simp
  refine ⟨(State.tal_of_tallyView hv).trans (State.withBeat_tal ..), fun f hf => ?_⟩
  rw [State.fld_of_admView (State.admView_of_tallyView hv) f hf]
  exact State.fld_withBeat ..

/-- SNAP and CLEAR are done at the next edge. -/
theorem State.tallyCmd_timeTo {s : State} (snap clear : Nat) (hl : s.beat.locked1st = true)
    (hp : s.running = true → s.beat.tick < s.beat.placed) :
    let s1 := s.tallyCmd snap clear 0
    let t := s1.timeTo (s1.beat.tick + 1)
    t.tal = (s.tal.asked snap clear 0).edge ∧
      (s.tal.snapPend ||| snap ≠ 0 → t.flag TAL_STS_SNAP_BUSY = false) ∧
      ∀ c < 8, (s.tal.snapPend ||| snap).testBit c = true → t.fld (TAL_SNAP_TIME_TIME c) = (s.beat.ticks 1).ts.toNat := by
  intro s1 t
  have hb : s1.beat = s.beat := s.tallyCmd_beat ..
  have htal : s1.tal = s.tal.asked snap clear 0 := s.tallyCmd_tal ..
  obtain ⟨hedge, hfld⟩ := State.timeTo_next (s := s1) (by rw [hb, hl]) (by rw [hb, State.tallyCmd_running]; exact hp)
  have hw : (s1.withBeat (s1.beat.ticks 1)).tal = s1.tal := State.withBeat_tal ..
  refine ⟨?_, fun hs => ?_, fun c hc hs => ?_⟩
  · rw [hedge, State.nextEdge, State.tallyEdge_tal, hw, htal]
  · rw [State.flag, hfld _ (by decide)]
    exact State.tallyEdge_busy (by rw [hw, htal]; exact hs)
  · rw [hfld _ (by simp; omega), State.nextEdge, State.tallyEdge_time hc (by rw [hw, htal]; exact hs), State.withBeat_beat, hb]

/-- Canonical tallies have canonical live bins. -/
theorem State.tallyWf_bins {s : State} (h : s.tallyWf = true) : Tbl.wf (fun _ => (0 : Nat)) s.tal.bins = true := by
  simp only [State.tallyWf, Bool.and_eq_true] at h
  obtain ⟨⟨⟨hbins, -⟩, -⟩, -⟩ := h
  exact hbins

/-- SNAP waits for the next edge. -/
theorem exec_snap (m : BitVec 8) (s : State) :
    exec (.snap m) s = .next ((s.tallyCmd m.toNat 0 0).timeTo ((s.tallyCmd m.toNat 0 0).beat.tick + 1)) := rfl

/-- CLEAR waits for the next edge. -/
theorem exec_clear (m : BitVec 8) (s : State) :
    exec (.clear m) s = .next ((s.tallyCmd 0 m.toNat 0).timeTo ((s.tallyCmd 0 m.toNat 0).beat.tick + 1)) := rfl

/-- WIN_CLEAR waits for the next boundary. -/
theorem exec_winClear (m : BitVec 8) (s : State) : exec (.winClear m) s = .next (s.tallyCmd 0 0 m.toNat) := rfl

/-- The windows after a boundary: what the beat that begins has counted, and of the last 1024 beats the classes not cleared (R54). -/
theorem State.mem_windowTurn (s : State) (e : WinEnt) :
    e ∈ s.windowTurn.tal.win ↔ e ∈ s.tal.win ∧
      (e.idx = s.beat.idx ∨ (s.beat.idx ≤ e.idx + 1024 ∧ s.tal.winClear.testBit e.cls = false)) := by
  simp [State.windowTurn]

/-! ### The obligation -/

/-- Settles O27: a sample changes one bin or is lost at a full one, and SNAP and CLEAR wait for one edge, after which nothing of the tick
touches the tallies. -/
theorem tallySamplesAndSnapshots : Obligations.TallySamplesAndSnapshots := by
  unfold Obligations.TallySamplesAndSnapshots
  refine ⟨?sample, ?snap, ?clear, ?winClear⟩
  case sample => exact fun s c kind t hc _ => s.countSample_spec hc
  case snap =>
    intro s m hw hl hp
    obtain ⟨htal, hbusy, htime⟩ := State.tallyCmd_timeTo m.toNat 0 hl hp
    refine ⟨_, exec_snap m s, fun hm => hbusy ?_, by rw [htal]; rfl, fun c kind b hc hk hb => ⟨?_, fun ht => htime c hc ?_, ?_⟩⟩
    · exact fun h0 => hm (BitVec.eq_of_toNat_eq (Nat.or_eq_zero_iff.1 h0).2)
    · rw [htal, TalSt.get_edge_snap (s.tal.asked m.toNat 0 0) c hk hb (State.tallyWf_bins hw), Nat.or_comm m.toNat]
      rfl
    · rw [Nat.testBit_or, ht, Bool.or_true]
    · rw [htal, TalSt.get_edge_bins _ c hk hb, ← Nat.or_zero s.tal.clearPend]
      rfl
  case clear =>
    intro s m hl hp
    obtain ⟨htal, -, -⟩ := State.tallyCmd_timeTo 0 m.toNat hl hp
    refine ⟨_, exec_clear m s, by rw [htal]; rfl, fun c kind b _ hk hb => ⟨?_, fun ht => ?_⟩⟩
    · rw [htal, TalSt.get_edge_bins _ c hk hb, Nat.or_comm m.toNat]
      rfl
    · rw [htal, TalSt.get_edge_sat _ c hk hb, if_pos (by rw [TalSt.asked, Nat.testBit_or, ht, Bool.or_true])]
  case winClear =>
    intro s m
    have htal := s.tallyCmd_tal 0 0 m.toNat
    refine ⟨_, exec_winClear m s, by rw [htal]; rfl, by rw [htal]; rfl, fun e => ?_⟩
    rw [State.mem_windowTurn, htal, State.tallyCmd_beat]
    rfl

end Sys2Proof.Machine
end

section
/-!
SUPPORT. What the work in the background of a command leaves: the event log, messages, the mesh, memory and the links leave the beat, the
values active in it, the Admission Port's tables, boot, the fuses, the clusters, the plats and most registers; work at the plats leaves
all of these but the plats.
-/
namespace Sys2Proof.Machine

/-! ### The view -/

/-- What background work leaves of a state. -/
structure Calm where
  beat : BeatSt
  active : Tbl (BitVec 32)
  adm : AdmSt
  boot : BootSt
  fuses : Fuses
  cxlOut : List CxlReq
  plats : Tbl PlatSt
  clus : Tbl Cluster
  word : Nat → BitVec 32

/-- Registers that background work leaves: those below the tallies' block, and every partition's PCTL block. -/
def kept (a : Nat) : Bool := decide (a < 0x50000) || (decide (0x100000 ≤ a) && decide (a % 0x100000 < 0x4000))

/-- What a state holds of it: all of it at depth 0, where memory, mesh, links and log work; without the plats at depth 1, where plats
work too; without clusters and registers as well from depth 2 on, where a cluster may fault. -/
def State.calm (n : Nat) (s : State) : Calm :=
  { beat := s.beat, active := s.active, adm := s.adm, boot := s.boot, fuses := s.fuses, cxlOut := s.mem.cxlOut
    plats := if n = 0 then s.plats else [], clus := if n ≤ 1 then s.clus else []
    word := fun a => if n ≤ 1 ∧ kept a = true then s.word a else 0 }

/-- States that agree in all parts are alike at every depth. -/
theorem State.calm_congr {s t : State} (n : Nat) (hb : t.beat = s.beat) (ha : t.active = s.active) (hd : t.adm = s.adm)
    (ho : t.boot = s.boot) (hf : t.fuses = s.fuses) (hx : t.mem.cxlOut = s.mem.cxlOut) (hp : n = 0 → t.plats = s.plats)
    (hc : n ≤ 1 → t.clus = s.clus) (hw : n ≤ 1 → ∀ a, kept a = true → t.word a = s.word a) : t.calm n = s.calm n := by
  have h1 : (if n = 0 then t.plats else []) = if n = 0 then s.plats else [] := by
    split
    · next h => exact hp h
    · rfl
  have h2 : (if n ≤ 1 then t.clus else []) = if n ≤ 1 then s.clus else [] := by
    split
    · next h => exact hc h
    · rfl
  have h3 : (fun a => if n ≤ 1 ∧ kept a = true then t.word a else 0) = fun a => if n ≤ 1 ∧ kept a = true then s.word a else 0 := by
    funext a
    split
    · next h => exact hw h.1 a h.2
    · rfl
  rw [State.calm, State.calm, hb, ha, hd, ho, hf, hx, h1, h2, h3]

section View
variable {n : Nat} {s t : State} (h : t.calm n = s.calm n)
include h

theorem State.beat_of_calm : t.beat = s.beat := congrArg Calm.beat h
theorem State.active_of_calm : t.active = s.active := congrArg Calm.active h
theorem State.adm_of_calm : t.adm = s.adm := congrArg Calm.adm h
theorem State.boot_of_calm : t.boot = s.boot := congrArg Calm.boot h
theorem State.fuses_of_calm : t.fuses = s.fuses := congrArg Calm.fuses h
theorem State.cxlOut_of_calm : t.mem.cxlOut = s.mem.cxlOut := congrArg Calm.cxlOut h

theorem State.clus_of_calm (hn : n ≤ 1) : t.clus = s.clus := by
  simpa [State.calm, hn] using congrArg Calm.clus h

theorem State.word_of_calm (hn : n ≤ 1) {a : Nat} (ha : kept a = true) : t.word a = s.word a := by
  simpa [State.calm, hn, ha] using congrFun (congrArg Calm.word h) a

theorem State.fld_of_calm (hn : n ≤ 1) (f : Fld) (h0 : kept f.addr = true) (h4 : kept (f.addr + 4) = true) : t.fld f = s.fld f :=
  State.fld_of_words f (State.word_of_calm h hn h0) (State.word_of_calm h hn h4)

theorem State.flag_of_calm (hn : n ≤ 1) (f : Fld) (h0 : kept f.addr = true) (h4 : kept (f.addr + 4) = true) : t.flag f = s.flag f := by
  rw [State.flag, State.fld_of_calm h hn f h0 h4, State.flag]

end View

/-- All plats are left at depth 0. -/
theorem State.plats_of_calm {s t : State} (h : t.calm 0 = s.calm 0) : t.plats = s.plats := congrArg Calm.plats h

/-! ### What leaves it: registers and parts of the state -/

/-- Registers of the blocks between the tallies' and the partitions' windows. -/
@[simp] theorem kept_block {a : Nat} (h : 0x50000 ≤ a) (h' : a < 0x100000) : kept a = false := by
  simp [kept, h, h']

/-- A register of a partition's window by its offset: PCTL is kept. -/
@[simp] theorem kept_partBase_add (p o : Nat) : kept (partBase p + o) = decide (o % 0x100000 < 0x4000) := by
  have h0 : ¬partBase p + o < 0x50000 := by unfold partBase; omega
  have h1 : 0x100000 ≤ partBase p + o := by unfold partBase; omega
  have h2 : (partBase p + o) % 0x100000 = o % 0x100000 := by unfold partBase; omega
  simp [kept, h0, h1, h2]

@[simp] theorem kept_partBase_add_add (p o i : Nat) : kept (partBase p + o + i) = decide ((o + i) % 0x100000 < 0x4000) := by
  rw [Nat.add_assoc, kept_partBase_add]

/-- A fold of steps that each leave it. -/
theorem State.calm_foldl {α : Type} {n : Nat} (f : State → α → State) (l : List α) (hf : ∀ s, ∀ x ∈ l, (f s x).calm n = s.calm n) (s : State) :
    (l.foldl f s).calm n = s.calm n := by
  induction l generalizing s with
  | nil => rfl
  | cons x l ih => exact (ih (fun s y hy => hf s y (List.mem_cons_of_mem _ hy)) _).trans (hf s x List.mem_cons_self)

section Part
variable (n : Nat) (s : State)

/-- Writing a register that is not kept. -/
@[simp] theorem State.calm_setFld {a lo w : Nat} (v : Nat) (h0 : kept a = false) (h4 : kept (a + 4) = false) :
    (s.setFld ⟨a, lo, w⟩ v).calm n = s.calm n :=
  State.calm_congr n (by simp) (by simp) (by simp) (by simp) (by simp) (by simp) (fun _ => by simp) (fun _ => by simp) (fun _ b hb =>
    State.word_setFld_ne s _ v b
      ⟨fun e => by simp only at e; simp [e, h0] at hb, .inr (fun e => by simp only at e; simp [e, h4] at hb)⟩)

@[simp] theorem State.calm_setFlag {a lo w : Nat} (b : Bool) (h0 : kept a = false) (h4 : kept (a + 4) = false) :
    (s.setFlag ⟨a, lo, w⟩ b).calm n = s.calm n := State.calm_setFld n s _ h0 h4
@[simp] theorem State.calm_setFbit {a lo w : Nat} (i : Nat) (b : Bool) (h0 : kept a = false) (h4 : kept (a + 4) = false) :
    (s.setFbit ⟨a, lo, w⟩ i b).calm n = s.calm n := State.calm_setFld n s _ h0 h4
@[simp] theorem State.calm_countUp {a lo w : Nat} (h0 : kept a = false) (h4 : kept (a + 4) = false) :
    (s.countUp ⟨a, lo, w⟩).calm n = s.calm n := State.calm_setFld n s _ h0 h4
@[simp] theorem State.calm_countBy {a lo w : Nat} (k : Nat) (h0 : kept a = false) (h4 : kept (a + 4) = false) :
    (s.countBy ⟨a, lo, w⟩ k).calm n = s.calm n := State.calm_setFld n s _ h0 h4
@[simp] theorem State.calm_countSat {a lo w : Nat} (h0 : kept a = false) (h4 : kept (a + 4) = false) :
    (s.countSat ⟨a, lo, w⟩).calm n = s.calm n := State.calm_setFld n s _ h0 h4

@[simp] theorem State.calm_withMem (m : MemSt) (h : m.cxlOut = s.mem.cxlOut) : (s.withMem m).calm n = s.calm n :=
  State.calm_congr n rfl rfl rfl rfl rfl h (fun _ => rfl) (fun _ => rfl) (fun _ _ _ => rfl)
@[simp] theorem State.calm_withNet (x : NetSt) : (s.withNet x).calm n = s.calm n := by rfl
@[simp] theorem State.calm_withTal (x : TalSt) : (s.withTal x).calm n = s.calm n := by rfl
@[simp] theorem State.calm_withMesh (m : MeshSt) : (s.withMesh m).calm n = s.calm n := by rfl
@[simp] theorem State.calm_setLink (p : Nat) (l : LinkSt) : (s.setLink p l).calm n = s.calm n := by rfl
@[simp] theorem State.calm_setMsix (f : Nat) (m : MsixSt) : (s.setMsix f m).calm n = s.calm n := by rfl
@[simp] theorem State.calm_setPpwr (p : Nat) (x : PartPwr) : (s.setPpwr p x).calm n = s.calm n := by rfl
@[simp] theorem State.calm_setSlot (k : Nat) (r : SlotRec) : (s.setSlot k r).calm n = s.calm n := by rfl
@[simp] theorem State.calm_send (m : OutMsg) : (s.send m).calm n = s.calm n := by rfl
@[simp] theorem State.calm_useEnd (u : TransUse) : (s.useEnd u).calm n = s.calm n := by rfl
@[simp] theorem State.calm_fresh : s.fresh.2.calm n = s.calm n := by rfl
@[simp] theorem State.calm_evt (x : EvtSt) : State.calm n { s with evt := x } = s.calm n := by rfl
@[simp] theorem State.calm_hostMem (x : Mem) : State.calm n { s with hostMem := x } = s.calm n := by rfl
@[simp] theorem State.calm_freeCtr (x : Nat) : State.calm n { s with freeCtr := x } = s.calm n := by rfl

end Part

end Sys2Proof.Machine
end

section
/-!
SUPPORT. Messages, the event log, the Traverse's counters, write combining, memory and the links leave what background work leaves.
-/
namespace Sys2Proof.Machine

section Part
variable (n : Nat) (s : State)

/-! ### Messages and the event log -/

@[simp] theorem State.calm_raiseFn (fn k v : Nat) : (s.raiseFn fn k v).calm n = s.calm n := by
  unfold State.raiseFn
  extract_lets m
  split
  · rfl
  · split
    · split <;> simp
    · simp

@[simp] theorem State.calm_raise (v : Nat) : (s.raise v).calm n = s.calm n := State.calm_raiseFn ..

@[simp] theorem State.calm_raisePart (p a b : Nat) : (s.raisePart p a b).calm n = s.calm n := by
  unfold State.raisePart
  split
  · split <;> simp
  · simp

@[simp] theorem State.calm_ringWrite (e : Event) : (s.ringWrite e).calm n = s.calm n := by
  unfold State.ringWrite
  extract_lets head a _ _ s1 full s2 s3 _
  have h2 : s2.calm n = s.calm n := by
    unfold s2
    split
    · simp [s1]
    · rfl
  have h3 : s3.calm n = s.calm n := by simp [s3, h2]
  split
  · exact (State.calm_evt ..).trans (State.calm_setFlag n s _ (by decide) (by decide))
  · split
    · exact (State.calm_raise ..).trans ((State.calm_evt ..).trans h3)
    · exact h3

@[simp] theorem State.calm_holdEvent (e : Event) : (s.holdEvent e).calm n = s.calm n := by
  unfold State.holdEvent
  split
  · exact (State.calm_countSat n _ (by decide) (by decide)).trans (State.calm_evt ..)
  · rfl

@[simp] theorem State.calm_logEvent (e : Event) : (s.logEvent e).calm n = s.calm n := by
  unfold State.logEvent
  split <;> simp

@[simp] theorem State.calm_logD (k : EvKind) (b a : Nat) (d : List Nat) : (s.logD k b a d).calm n = s.calm n := State.calm_logEvent ..

/-! ### Claims and error reports -/

@[simp] theorem State.calm_deny (q : Req) (pa : Nat) (w : Bool) : (s.deny q pa w).calm n = s.calm n := by
  simp [State.deny, apply_ite (State.calm n)]

@[simp] theorem State.calm_abortAt (q : Req) (a : Nat) (w : Bool) : (s.abortAt q a w).calm n = s.calm n := by
  unfold State.abortAt
  split <;> simp

@[simp] theorem State.calm_ceAt (a : Nat) : (s.ceAt a).calm n = s.calm n := by
  unfold State.ceAt
  split <;> simp [apply_ite (State.calm n)]

@[simp] theorem State.calm_ueAt (q : Req) (a : Nat) : (s.ueAt q a).calm n = s.calm n := by
  unfold State.ueAt
  split <;> simp [apply_ite (State.calm n)]

@[simp] theorem State.calm_rdBytes (a k : Nat) : (s.rdBytes a k).calm n = s.calm n := by
  unfold State.rdBytes
  split <;> simp

@[simp] theorem State.calm_wrBytes (a k : Nat) : (s.wrBytes a k).calm n = s.calm n := by
  unfold State.wrBytes
  split <;> simp

@[simp] theorem MemSt.setErr_cxlOut (m : MemSt) (g : Nat) (e : EccErr) : (m.setErr g e).cxlOut = m.cxlOut := by rfl
@[simp] theorem MemSt.setPoison_cxlOut (m : MemSt) (g : Nat) (b : Bool) : (m.setPoison g b).cxlOut = m.cxlOut := by rfl
@[simp] theorem MemSt.setWcb_cxlOut (m : MemSt) (k : Nat) (w : WcbGroup) : (m.setWcb k w).cxlOut = m.cxlOut := by rfl
@[simp] theorem MemSt.farPut_cxlOut (m : MemSt) (a : Nat) (d : List Byte) : (m.farPut a d).cxlOut = m.cxlOut := by
  simp only [MemSt.farPut]
  split <;> rfl

@[simp] theorem State.calm_granuleRead (q : Req) (a : Nat) : (s.granuleRead q a).2.calm n = s.calm n := by
  unfold State.granuleRead
  extract_lets g s1
  split
  · simp [s1]
  · split <;> simp [s1]

@[simp] theorem State.calm_exitSr (a : Nat) : (s.exitSr a).calm n = s.calm n := by
  unfold State.exitSr
  split
  · split <;> simp
  · rfl

/-! ### The Traverse's counters -/

theorem State.calm_pmuAdd {k : Nat} (hk : k < 8) (v : Nat) : (s.pmuAdd k v).calm n = s.calm n := by
  have h0 : kept (0xa0108 + 0x10 * k) = false := kept_block (by omega) (by omega)
  have h4 : kept (0xa0108 + 0x10 * k + 4) = false := kept_block (by omega) (by omega)
  simp [State.pmuAdd, apply_ite (State.calm n), h0, h4]

@[simp] theorem State.calm_pmuEvent (ev v : Nat) (at_ : Nat → Bool) (vc : Option Nat) : (s.pmuEvent ev v at_ vc).calm n = s.calm n :=
  State.calm_foldl _ _ (fun t k hk => by simp [apply_ite (State.calm n), State.calm_pmuAdd n t (List.mem_range.1 hk)]) s

@[simp] theorem State.calm_trvUse (src dst vc flits : Nat) : (s.trvUse src dst vc flits).calm n = s.calm n := by
  unfold State.trvUse
  split
  · rfl
  · exact (State.calm_foldl _ _ (fun t r _ => State.calm_pmuEvent ..) _).trans (by simp)

@[simp] theorem State.calm_trvMem (q : Req) (a : Nat) : (s.trvMem q a).calm n = s.calm n := by
  unfold State.trvMem
  split <;> simp

/-! ### Write combining -/

theorem DrainCause.idx_le (c : DrainCause) : c.idx ≤ 4 := by cases c <;> decide

@[simp] theorem State.calm_countDrain (k : Nat) (c : DrainCause) : (s.countDrain k c).calm n = s.calm n := by
  have hc := c.idx_le
  have hk : k % 4 < 4 := Nat.mod_lt _ (by decide)
  refine State.calm_countUp n s ?_ ?_
  · rw [Nat.add_assoc, Nat.add_assoc, kept_partBase_add, decide_eq_false_iff_not]
    omega
  · rw [Nat.add_assoc, Nat.add_assoc, Nat.add_assoc, kept_partBase_add, decide_eq_false_iff_not]
    omega

@[simp] theorem State.calm_startDrain (k : Nat) (c : DrainCause) (f : WcbEntry → Bool) : (s.startDrain k c f).calm n = s.calm n :=
  (State.calm_foldl _ _ (fun t _ _ => State.calm_countDrain n t k c) _).trans (State.calm_withMem n s _ rfl)

@[simp] theorem State.calm_wcbMerge (k : Nat) (w : WcbWrite) : (s.wcbMerge k w).calm n = s.calm n := by
  simp [State.wcbMerge, State.drainFull]

@[simp] theorem State.calm_drainCapacity (k : Nat) : (s.drainCapacity k).calm n = s.calm n := by
  unfold State.drainCapacity
  extract_lets g
  split
  · split <;> simp
  · rfl

@[simp] theorem State.calm_wcbArrive (k : Nat) (w : WcbWrite) : (s.wcbArrive k w).calm n = s.calm n := by
  unfold State.wcbArrive
  extract_lets g
  split <;> simp

@[simp] theorem State.calm_ackMerged (id : Nat) : (s.ackMerged id).calm n = s.calm n := by
  unfold State.ackMerged
  split <;> simp

@[simp] theorem State.calm_retryStalled (k : Nat) (l : List WcbWrite) : (s.retryStalled k l).calm n = s.calm n := by
  induction l generalizing s with
  | nil => rfl
  | cons w l ih =>
    unfold State.retryStalled
    extract_lets g
    split <;> simp [ih]

@[simp] theorem State.calm_drainAnswer (r : DrainReq) : (s.drainAnswer r).calm n = s.calm n := by
  unfold State.drainAnswer
  split
  case h_1 => split <;> simp
  all_goals simp

@[simp] theorem State.calm_answerDrains : s.answerDrains.calm n = s.calm n :=
  (State.calm_foldl _ _ (fun t r _ => State.calm_drainAnswer n t r) _).trans (State.calm_withMem n s _ rfl)

@[simp] theorem State.calm_drainHalf (k : Nat) (e : WcbEntry) (h : Nat) : (s.drainHalf k e h).calm n = s.calm n := by
  have hk : k % 4 < 4 := Nat.mod_lt _ (by decide)
  have h0 : kept (partBase (k / 4) + 0x8124 + 0x40 * (k % 4)) = false := by
    rw [Nat.add_assoc, kept_partBase_add, decide_eq_false_iff_not]
    omega
  have h4 : kept (partBase (k / 4) + 0x8124 + 0x40 * (k % 4) + 4) = false := by
    rw [Nat.add_assoc, Nat.add_assoc, kept_partBase_add, decide_eq_false_iff_not]
    omega
  unfold State.drainHalf
  extract_lets a c m0 q r s1 m s2
  have h1 : s1.calm n = s.calm n := (State.calm_countUp n _ h0 h4).trans (State.calm_granuleRead ..)
  have h2 : s2.calm n = s.calm n := by simp [s2, h1, m]
  split
  · rfl
  · split
    · simp [m0]
    · split
      · exact h2
      · exact (State.calm_logD ..).trans h2

@[simp] theorem State.calm_freeEntry (k : Nat) : (s.freeEntry k).calm n = s.calm n := by
  unfold State.freeEntry
  extract_lets g
  split
  · rfl
  · simp

@[simp] theorem State.calm_freeEntries (k m : Nat) : (s.freeEntries k m).calm n = s.calm n := by
  induction m generalizing s with
  | zero => rfl
  | succ m ih =>
    unfold State.freeEntries
    split <;> simp [ih]

@[simp] theorem State.calm_wcbWait (k : Nat) (w : WcbWrite) : (s.wcbWait k w).calm n = s.calm n := by
  unfold State.wcbWait
  extract_lets s1
  split <;> simp [s1]

@[simp] theorem State.calm_drainRequest (src : DrainSrc) (c : DrainCause) (l : List Nat) :
    (s.drainRequest src c l).calm n = s.calm n := by
  unfold State.drainRequest
  extract_lets id _ s1 s2
  have h2 : s2.calm n = s1.calm n := State.calm_foldl _ _ (fun t k _ => by simp) s1
  exact (State.calm_answerDrains n s2).trans (h2.trans (State.calm_withMem n s _ rfl))

@[simp] theorem State.calm_drainWait (src : DrainSrc) (c : DrainCause) (l : List Nat) :
    (s.drainWait src c l).calm n = s.calm n :=
  (State.calm_foldl _ _ (fun _ _ _ => State.calm_freeEntries ..) _).trans (State.calm_drainRequest ..)

/-! ### Writes of this chip's memory -/

@[simp] theorem State.calm_writePiece (q : Req) (wait : Bool) (a : Nat) (d : List Byte) :
    (s.writePiece q wait a d).2.calm n = s.calm n := by
  simp only [State.writePiece]
  split
  · simp [apply_ite (State.calm n)]
  · split <;> simp
  · simp

@[simp] theorem State.calm_writePieces (q : Req) (wait : Bool) (l : List (Nat × Nat)) (d : List Byte) (ue : Option Nat) :
    (s.writePieces q wait l d ue).2.calm n = s.calm n := by
  induction l generalizing s d ue with
  | nil => rfl
  | cons p l ih =>
    obtain ⟨a, m⟩ := p
    unfold State.writePieces
    split <;> simp [ih]

@[simp] theorem State.calm_localWrite (q : Req) (wait : Bool) (a : Nat) (d : List Byte) :
    (s.localWrite q wait a d).2.calm n = s.calm n := by
  simp only [State.localWrite]
  cases s.firstDenied q false true (granules a d.length) with
  | some x => simp
  | none =>
    dsimp only
    split <;> simp

/-! ### Links and requests to another chip's memory -/

@[simp] theorem State.calm_bufferFree (src : Option Nat) : (s.bufferFree src).calm n = s.calm n := by
  unfold State.bufferFree
  split <;> simp

theorem State.calm_linkEmit {p : Nat} (hp : p < 8) (m : Nat) : (s.linkEmit p m).calm n = s.calm n := by
  have h0 : kept (0xc0030 + 0x2000 * p) = false := kept_block (by omega) (by omega)
  have h4 : kept (0xc0030 + 0x2000 * p + 4) = false := kept_block (by omega) (by omega)
  induction m generalizing s with
  | zero => rfl
  | succ m ih =>
    unfold State.linkEmit
    extract_lets l
    split <;> simp [ih, State.flitOut, h0, h4]

theorem State.calm_sendPkt {p : Nat} (hp : p < 8) (k : QueuedPkt) : (s.sendPkt p k).calm n = s.calm n := by
  have h0 : kept (0xc0058 + 0x2000 * p) = false := kept_block (by omega) (by omega)
  have h4 : kept (0xc0058 + 0x2000 * p + 4) = false := kept_block (by omega) (by omega)
  simp [State.sendPkt, h0, h4]

theorem State.calm_linkDrain {p : Nat} (hp : p < 8) (l w : List QueuedPkt) : (s.linkDrain p l w).calm n = s.calm n := by
  induction l generalizing s w with
  | nil => simp [State.linkDrain, State.calm_linkEmit n _ hp]
  | cons k l ih =>
    unfold State.linkDrain
    split <;> simp [ih, State.calm_sendPkt n _ hp]

/-- Packets that leave by the port of a chip's route. -/
@[simp] theorem State.calm_linkSendAll (c : Nat) (ks : List QueuedPkt) :
    (s.linkSendAll (s.fld (LNK_ROUTE_PORT c)) ks).calm n = s.calm n :=
  State.calm_linkDrain n s (s.fld_lt (LNK_ROUTE_PORT c)) _ _

@[simp] theorem State.calm_linkTo (c : Nat) (k : LinkPkt) : (s.linkTo c k).calm n = s.calm n := State.calm_linkSendAll ..

@[simp] theorem State.calm_remoteSend (self cid stop pa : Nat) (ask : RemAsk) :
    (s.remoteSend self cid stop pa ask).calm n = s.calm n := State.calm_linkSendAll ..

@[simp] theorem State.calm_remoteAsk (q : Req) (pa : Nat) (ask : RemAsk) : (s.remoteAsk q pa ask).2.calm n = s.calm n := by
  unfold State.remoteAsk
  split
  · simp
  · extract_lets s1 r
    have hr : r.2.calm n = s.calm n := by simp [r, s1]
    split
    · exact (State.calm_freeCtr ..).trans hr
    · exact hr
    · exact hr

@[simp] theorem State.calm_physWrite (q : Req) (pa : Nat) (d : List Byte) : (s.physWrite q pa d).2.calm n = s.calm n := by
  unfold State.physWrite
  split <;> simp

/-! ### The mesh -/

@[simp] theorem State.calm_trvCe (r plane port : Nat) : (s.trvCe r plane port).calm n = s.calm n := by simp [State.trvCe]

@[simp] theorem State.calm_trvUe (k : EvKind) (r plane port : Nat) : (s.trvUe k r plane port).calm n = s.calm n := by
  unfold State.trvUe
  extract_lets s1
  have h1 : s1.calm n = s.calm n := by simp [s1, State.trvLoc]
  split
  · exact (State.calm_raise ..).trans h1
  · exact h1

@[simp] theorem State.calm_arriveAt (i : Nat) (k : MeshPkt) (pk vc : Nat) (f : MeshFlit) :
    (s.arriveAt i k pk vc f).calm n = s.calm n := by
  unfold State.arriveAt
  extract_lets plane r q last gone ce ue
  have hgone : ∀ t k2, (gone t k2).calm n = t.calm n := fun t k2 => State.calm_withMesh ..
  split
  · exact hgone s k
  · split
    · exact State.calm_withMesh ..
    · exact (State.calm_withMesh ..).trans (State.calm_trvCe ..)
    · exact (State.calm_withMesh ..).trans (State.calm_trvUe ..)
    · exact (hgone _ _).trans ((State.calm_setFlag n _ _ (by decide) (by decide)).trans (State.calm_trvUe ..))

@[simp] theorem State.calm_meshOut (plane r out : Nat) : (s.meshOut plane r out).calm n = s.calm n := by
  unfold State.meshOut
  extract_lets m ok
  split
  · rfl
  · extract_lets q m1
    split
    · rfl
    · extract_lets last m2 s1
      split <;> simp [s1]

@[simp] theorem State.calm_meshEject (q : Nat) : (s.meshEject q).calm n = s.calm n := by
  unfold State.meshEject
  extract_lets m
  split <;> simp

@[simp] theorem State.calm_sinkTake (i : Nat) (h : BitVec 64) : (s.sinkTake i h).calm n = s.calm n := by
  unfold State.sinkTake
  extract_lets vc s1
  have h1 : s1.calm n = s.calm n := by
    unfold s1
    split <;> rfl
  split
  · rfl
  · split
    · exact (State.calm_withMesh ..).trans h1
    · exact h1

@[simp] theorem State.calm_meshInject (i : Nat) : (s.meshInject i).calm n = s.calm n := by
  unfold State.meshInject
  split
  · rfl
  · extract_lets m vc s1 k1 q k2 m1 m2
    have h1 : s1.calm n = s.calm n := by simp [s1, apply_ite (State.calm n)]
    split
    · rfl
    · split <;> simp [h1]

@[simp] theorem State.calm_meshCycle : s.meshCycle.calm n = s.calm n := by
  unfold State.meshCycle
  extract_lets m back m1 s1 s2 s3 s4
  have h2 : s2.calm n = s1.calm n := State.calm_foldl _ _ (fun t q _ => State.calm_meshEject n t q) _
  have h3 : s3.calm n = s2.calm n := State.calm_foldl _ _ (fun t w _ => State.calm_meshOut ..) _
  have h4 : s4.calm n = s3.calm n := State.calm_foldl _ _ (fun t i _ => State.calm_meshInject n t i) _
  exact (State.calm_withMesh ..).trans (h4.trans (h3.trans (h2.trans (State.calm_withMesh ..))))

@[simp] theorem State.calm_tokWaiting (m : Nat) : (s.tokWaiting m).calm n = s.calm n :=
  State.calm_foldl _ _ (fun _ _ _ => State.calm_foldl _ _ (fun _ _ _ => State.calm_pmuEvent ..) _) s

@[simp] theorem State.calm_meshRun (m : Nat) : (s.meshRun m).calm n = s.calm n := by
  induction m generalizing s with
  | zero => rfl
  | succ m ih =>
    unfold State.meshRun
    split <;> simp [ih]

/-! ### The tallies and the counters of time -/

@[simp] theorem State.calm_snapTimes (m : Nat) : (s.snapTimes m).calm n = s.calm n := by
  refine State.calm_foldl _ _ (fun t k hk => ?_) s
  have hk8 := List.mem_range.1 hk
  split
  · exact State.calm_setFld n t _ (kept_block (by omega) (by omega)) (kept_block (by omega) (by omega))
  · rfl

@[simp] theorem State.calm_tallyEdge : s.tallyEdge.calm n = s.calm n := by
  unfold State.tallyEdge
  extract_lets t s1
  split
  · rfl
  · simp [s1]

@[simp] theorem State.calm_pclkTicks (m : Nat) : (s.pclkTicks m).calm n = s.calm n :=
  State.calm_foldl _ _ (fun t p _ => State.calm_setPpwr n t p _) s

@[simp] theorem State.calm_busyTicks (m : Nat) : (s.busyTicks m).calm n = s.calm n :=
  (State.calm_foldl _ _ (fun t e _ => by simp [apply_ite (State.calm n)]) _).trans
    (State.calm_foldl _ _ (fun t e _ => by simp [apply_ite (State.calm n)]) _)

end Part

end Sys2Proof.Machine
end

section
/-!
SUPPORT. The reference monitor and the droop monitors (R64 to R71), and O29.
-/
namespace Sys2Proof.Machine

/-! ### The reference monitor -/

/-- What a loss of reference writes, before its event and its message (R70). -/
def State.lossMarked (s : State) (cause : Nat) : State :=
  (((((s.setFlag CLK_REF_STS_LOSS_OF_REF true).setFlag CLK_REF_STS_HOLDOVER true).setFlag CLK_REF_STS_LOCKED false).setFlag
    CLK_REF_STS_RELOCKING false).setFld CLK_REF_STS_LOR_CAUSE cause).countSat CLK_REF_STS_LOR_COUNT

/-- The event and the message of a loss leave the clock's registers. -/
theorem State.fld_lossOfRef (s : State) (cause : Nat) (f : Fld) (hf : f.addr + 4 < 0x60000) :
    (s.lossOfRef cause).fld f = (s.lossMarked cause).fld f := by
  unfold State.lossOfRef
  extract_lets s1 s2 _ s3
  have h3 : s3.fld f = (s.lossMarked cause).fld f :=
    (State.fld_of_admView (State.admView_logD ..) f hf).trans (State.fld_withBeat ..)
  split
  · exact (State.fld_of_admView (State.admView_raise ..) f hf).trans h3
  · exact h3

theorem State.flag_lossOfRef (s : State) (cause : Nat) (f : Fld) (hf : f.addr + 4 < 0x60000) :
    (s.lossOfRef cause).flag f = (s.lossMarked cause).flag f := by
  rw [State.flag, State.fld_lossOfRef s cause f hf, State.flag]

/-- A loss shows in every status bit of the monitor, and is counted (R70). -/
theorem State.lossOfRef_shows (s : State) {cause : Nat} (hc : cause < 2) :
    (s.lossOfRef cause).flag CLK_REF_STS_LOSS_OF_REF = true ∧ (s.lossOfRef cause).flag CLK_REF_STS_HOLDOVER = true ∧
    (s.lossOfRef cause).flag CLK_REF_STS_LOCKED = false ∧ (s.lossOfRef cause).flag CLK_REF_STS_RELOCKING = false ∧
    (s.lossOfRef cause).fld CLK_REF_STS_LOR_CAUSE = cause ∧
    (s.lossOfRef cause).fld CLK_REF_STS_LOR_COUNT = min (s.fld CLK_REF_STS_LOR_COUNT + 1) 0xFFFF := by
  have hc2 : cause % 2 = cause := Nat.mod_eq_of_lt hc
  refine ⟨?_, ?_, ?_, ?_, ?_, ?_⟩
  · simp [State.flag_lossOfRef, State.lossMarked, State.countSat, State.flag_setFlag_same, State.flag_setFlag_apart,
      State.flag_setFld_apart]
  · simp [State.flag_lossOfRef, State.lossMarked, State.countSat, State.flag_setFlag_same, State.flag_setFlag_apart,
      State.flag_setFld_apart]
  · simp [State.flag_lossOfRef, State.lossMarked, State.countSat, State.flag_setFlag_same, State.flag_setFlag_apart,
      State.flag_setFld_apart]
  · simp [State.flag_lossOfRef, State.lossMarked, State.countSat, State.flag_setFlag_same, State.flag_setFld_apart]
  · simp [State.fld_lossOfRef, State.lossMarked, State.countSat, State.fld_setFld_same, State.fld_setFld_apart, hc2]
  · simp [State.fld_lossOfRef, State.lossMarked, State.fld_countSat, State.setFlag, State.fld_setFld_apart]

/-- The return of the reference ends the holdover and begins the relock (R71). -/
theorem State.refReturned_shows (s : State) :
    s.refReturned.flag CLK_REF_STS_HOLDOVER = false ∧ s.refReturned.flag CLK_REF_STS_RELOCKING = true ∧ s.refReturned.beat = s.beat := by
  unfold State.refReturned
  refine ⟨?_, ?_, ?_⟩
  · rw [State.flag_of_admView (State.admView_logD ..) _ (by decide)]
    simp [State.flag_setFlag_same, State.flag_setFlag_apart]
  · rw [State.flag_of_admView (State.admView_logD ..) _ (by decide)]
    simp [State.flag_setFlag_same]
  · rw [State.beat_of_admView (State.admView_logD ..)]
    simp

/-! ### Droop -/

/-- The stretch that a partition's depth entry gives. -/
theorem State.depthOf_of_beat {s : State} {p e : Nat} {t : Tbl Nat} (h : s.beat.depth = Tbl.set (fun _ => 0) t p e) :
    s.depthOf p = e := by
  rw [State.depthOf, h, Tbl.get_set_same]

/-- Setting the depth gives min(d, 4) and its greatest, counts nothing, and beyond 4 sets LIMIT (R67, R68). -/
theorem State.setDepth_shows (s : State) (p : Part) (d : Nat) :
    (s.setDepth p d).depthOf p = min d 4 ∧
    (s.setDepth p d).fld (CLK_PCLK_STS_MAX_STRETCH p) = max (s.fld (CLK_PCLK_STS_MAX_STRETCH p)) (min d 4) ∧
    (4 < d → ((s.setDepth p d).fld CLK_DROOP_STS_LIMIT).testBit p = true) ∧
    (∀ f : Fld, f.addr < 0x10140 → f.lo + f.w ≤ 32 → f.addr ≠ 0x10010 ∨ f.lo + f.w ≤ 16 → (s.setDepth p d).fld f = s.fld f) := by
  have hp := p.isLt
  have hmax : max (s.fld (CLK_PCLK_STS_MAX_STRETCH p)) (min d 4) % 2 ^ 4 = max (s.fld (CLK_PCLK_STS_MAX_STRETCH p)) (min d 4) :=
    Nat.mod_eq_of_lt (max_lt (s.fld_lt (CLK_PCLK_STS_MAX_STRETCH p)) (by omega))
  unfold State.setDepth
  extract_lets e _ s1 s2
  have hm : s2.fld (CLK_PCLK_STS_MAX_STRETCH p) = max (s.fld (CLK_PCLK_STS_MAX_STRETCH p)) (min d 4) := by
    rw [State.fld_setFld_same _ _ _ (by simp), State.fld_withBeat]
    exact hmax
  have hfar : ∀ f : Fld, f.addr < 0x10140 → f.lo + f.w ≤ 32 → s2.fld f = s.fld f := fun f hf hl => by
    rw [State.fld_setFld_apart _ _ _ _ (by simp) hl (.inl (by simp only; omega)), State.fld_withBeat]
  have hb : s2.beat.depth = Tbl.set (fun _ => 0) s.beat.depth p e := congrArg BeatSt.depth (State.setFld_beat ..)
  split
  · have hv := fun (t : State) (f : Fld) => State.fld_of_admView (State.admView_logD t ev_DROOP_LIMIT blkClk 0 [p.val]) f
    refine ⟨?_, ?_, fun _ => ?_, fun f hf hl ha => ?_⟩
    · refine State.depthOf_of_beat (t := s.beat.depth) ?_
      rw [State.beat_of_admView (State.admView_logD ..), State.setFbit_beat, hb]
    · rw [hv _ _ (by simp only; omega), State.setFbit, State.fld_setFld_apart _ _ _ _ (by simp) (by simp) (.inl (by simp only; omega)), hm]
    · rw [hv _ _ (by decide)]
      exact State.testBit_setFbit_same _ _ _ (by decide) hp
    · rw [hv _ _ (by omega), State.setFbit, State.fld_setFld_apart _ _ _ _ (by decide) hl (by simp only; omega), hfar f hf hl]
  · next h4 => exact ⟨State.depthOf_of_beat hb, hm, fun h => absurd h h4, fun f hf hl _ => hfar f hf hl⟩

/-- A stretch that begins is counted, with OVF where the count wraps, and shows ACTIVE (R68). -/
theorem State.stretch_shows (s : State) (p : Part) (d : Nat) :
    (s.stretch p d).depthOf p = min d 4 ∧
    (s.stretch p d).fld (CLK_DROOP_CNT_COUNT p) = (s.fld (CLK_DROOP_CNT_COUNT p) + 1) % 2 ^ 32 ∧
    ((s.stretch p d).fld CLK_DROOP_STS_ACTIVE).testBit p = true ∧
    ((s.stretch p d).fld (CLK_DROOP_CNT_COUNT p) = 0 → ((s.stretch p d).fld CLK_DROOP_STS_OVF).testBit p = true) ∧
    (s.stretch p d).fld (CLK_PCLK_STS_MAX_STRETCH p) = max (s.fld (CLK_PCLK_STS_MAX_STRETCH p)) (min d 4) ∧
    (4 < d → ((s.stretch p d).fld CLK_DROOP_STS_LIMIT).testBit p = true) := by
  have hp := p.isLt
  unfold State.stretch
  extract_lets s1 s2
  obtain ⟨hdep, hmax, hlim, hfar⟩ := State.setDepth_shows (s2.setFbit CLK_DROOP_STS_ACTIVE p true) p d
  have h1 : s1.fld (CLK_DROOP_CNT_COUNT p) = (s.fld (CLK_DROOP_CNT_COUNT p) + 1) % 2 ^ 32 := State.fld_setFld_same _ _ _ (by simp)
  have h2 : ∀ f : Fld, f.addr ≠ 0x10010 → f.lo + f.w ≤ 32 → s2.fld f = s1.fld f := fun f ha hl => by
    unfold s2
    split
    · exact State.fld_setFld_apart _ _ _ _ (by decide) hl (.inl ha)
    · rfl
  have h3 : ∀ f : Fld, f.addr ≠ 0x10010 → f.lo + f.w ≤ 32 → (s2.setFbit CLK_DROOP_STS_ACTIVE p true).fld f = s1.fld f := fun f ha hl =>
    (State.fld_setFld_apart _ _ _ _ (by decide) hl (.inl ha)).trans (h2 f ha hl)
  have hcnt := (hfar (CLK_DROOP_CNT_COUNT p) (by simp only; omega) (by simp) (.inl (by simp only; omega))).trans
    (h3 (CLK_DROOP_CNT_COUNT p) (by simp only; omega) (by simp))
  refine ⟨hdep, hcnt.trans h1, ?_, fun h0 => ?_, ?_, hlim⟩
  · rw [hfar _ (by decide) (by decide) (by decide)]
    exact State.testBit_setFbit_same _ _ _ (by decide) hp
  · rw [hfar _ (by decide) (by decide) (by decide), State.setFbit, State.fld_setFld_apart _ _ _ _ (by decide) (by decide) (by decide)]
    unfold s2
    rw [if_pos (hcnt.symm.trans h0)]
    exact State.testBit_setFbit_same _ _ _ (by decide) hp
  · rw [hmax, h3 _ (by simp only; omega) (by simp)]
    exact congrArg (max · _) (State.fld_setFld_apart _ _ _ _ (by simp) (by simp) (.inl (by simp only; omega)))

/-- DROOP_RECOVERY returns the partition to its nominal period (R67). -/
theorem execDroopRecovery_shows (s : State) (p : Part) :
    ∃ t, execDroopRecovery p s = .next t ∧ t.depthOf p = 0 ∧ (t.fld CLK_DROOP_STS_ACTIVE).testBit p = false ∧
      t.fld (CLK_DROOP_CNT_COUNT p) = s.fld (CLK_DROOP_CNT_COUNT p) := by
  refine ⟨_, rfl, State.depthOf_of_beat (t := s.beat.depth) rfl, ?_, ?_⟩
  · rw [State.fld_withBeat]
    exact State.testBit_setFbit_same _ _ _ (by decide) p.isLt
  · rw [State.fld_withBeat]
    exact State.fld_setFld_apart _ _ _ _ (by simp) (by simp) (.inl (by simp only; omega))

/-- A write of 0 to the droop counter clears it, and MAX_STRETCH becomes the present depth (R68). -/
theorem State.droopClear_shows (s : State) (p : Part) :
    (s.droopClear p).fld (CLK_DROOP_CNT_COUNT p) = 0 ∧ (s.droopClear p).fld (CLK_PCLK_STS_MAX_STRETCH p) = s.depthOf p % 16 := by
  have hp := p.isLt
  unfold State.droopClear
  constructor
  · rw [State.fld_setFld_apart _ _ _ _ (by simp) (by simp) (.inl (by simp only; omega)), State.fld_setFld_same _ _ _ (by simp)]
    rfl
  · exact State.fld_setFld_same _ _ _ (by simp)

/-! ### O29 -/

/-- Settles O29 from what a loss, a return, a stretch and a depth show. -/
theorem referenceMonitorAndDroop : Obligations.ReferenceMonitorAndDroop := by
  unfold Obligations.ReferenceMonitorAndDroop
  refine ⟨⟨fun s h1 ht => ?_, fun s h1 => ?_, fun s h1 hh => ?_, fun s edges present htr => ⟨?_, ?_, ?_, ?_⟩, fun s hr => ?_⟩,
    fun s p d hd => ⟨fun h0 => ?_, fun h0 c hc => ?_, execDroopRecovery_shows s p, ⟨_, rfl, s.droopClear_shows p⟩⟩⟩
  · refine ⟨(s.setFlag CLK_REF_STS_LOCKED true).withBeat { s.beat with locked1st := true }, ?_, ?_, rfl⟩
    · change execPllLock s = _
      simp [execPllLock, h1, ht]
    · exact State.flag_setFlag_same s CLK_REF_STS_LOCKED true (by decide) rfl
  · refine ⟨s.setFlag CLK_REF_STS_OCLK_TRIMMED true, ?_, State.flag_setFlag_same _ _ _ (by decide) rfl⟩
    change execOclkTrimComplete s = _
    simp [execOclkTrimComplete, h1]
  · refine ⟨s.lossOfRef 0, ?_, s.lossOfRef_shows (by decide)⟩
    change execRefEdgeTimeout s = _
    simp [execRefEdgeTimeout, h1, hh]
  · intro hh he
    refine ⟨s.lossOfRef 1, ?_, s.lossOfRef_shows (by decide)⟩
    change execRefFrequencyWindow edges present s = _
    simp [execRefFrequencyWindow, htr, hh, he]
  · intro hh h1 h2
    change execRefFrequencyWindow edges present s = _
    simp [execRefFrequencyWindow, htr, hh, Nat.not_lt.2 h1, Nat.not_lt.2 h2]
  · intro hh hp h1 h2 hg
    obtain ⟨hh', hr, hb⟩ := (s.withBeat { s.beat with goodWin := 0 }).refReturned_shows
    refine ⟨(s.withBeat { s.beat with goodWin := 0 }).refReturned, ?_, hh', hr, by rw [hb, State.withBeat_beat]⟩
    change execRefFrequencyWindow edges present s = _
    simp [execRefFrequencyWindow, htr, hh, hp, h1, h2, hg]
  · intro hh hbad
    have hn : (present && decide (6336 ≤ edges) && decide (edges ≤ 6464)) = false := by
      simpa only [Bool.and_eq_false_iff, decide_eq_false_iff_not, Nat.not_le, or_assoc] using hbad
    change execRefFrequencyWindow edges present s = _
    simp [execRefFrequencyWindow, htr, hh, hn]
  · refine ⟨(s.setFlag CLK_REF_STS_RELOCKING false).setFlag CLK_REF_STS_LOCKED true, ?_, ?_, ?_⟩
    · change execRelockComplete s = _
      simp [execRelockComplete, hr]
    · exact State.flag_setFlag_same _ _ _ (by decide) rfl
    · simp [State.flag_setFlag_apart, State.flag_setFlag_same]
  · refine ⟨s.stretch p d, ?_, s.stretch_shows p d⟩
    change execStretchEvent p d s = _
    simp [execStretchEvent, h0, Nat.one_le_iff_ne_zero.1 hd]
  · have hd0 := Nat.one_le_iff_ne_zero.1 hd
    obtain ⟨hdep, hmax, hlim, hfar⟩ := s.setDepth_shows p d
    refine ⟨s.setDepth p d, ?_, hdep, hfar _ (by simp only; omega) (by simp) (.inl (by simp only; omega)), hmax, hlim⟩
    obtain rfl | rfl : c = .stretchEvent p d ∨ c = .stretchDepthChange p d := by simpa using hc
    · change execStretchEvent p d s = _
      simp [execStretchEvent, h0, hd0]
    · change execStretchDepthChange p d s = _
      simp [execStretchDepthChange, h0, hd0]

end Sys2Proof.Machine
end

section
/-!
SUPPORT. Time and the sync state (R73 to R81): what passing time leaves, and what hits, misses and the timestamp change of the beat.
-/
namespace Sys2Proof.Machine

/-! ### Parts of the beat -/

/-- The beat without its timestamps: what a load or a chain of the timestamp leaves of it (R80, R81). -/
def BeatSt.untimed (b : BeatSt) : BeatSt :=
  { b with ts := 0, slew := 0, slewPhase := 0, loadTs := false, loadCount := false, bkTs := 0, oldLines := [], chain := none, lockRun := 0 }

/-- What passing time leaves of the beat. -/
def BeatSt.still (b : BeatSt) : BeatSt := { b with tick := 0, ts := 0, slew := 0, slewPhase := 0 }

/-- A load of the timestamp and a chain are matters of the timestamps. -/
theorem BeatSt.loaded_untimed (b : BeatSt) (x : BitVec 64) : (b.loaded x).untimed = b.untimed := rfl

theorem BeatSt.chained_untimed (b : BeatSt) (c : Option Chain) (run phase : Nat) (e : Int) :
    BeatSt.untimed { b with chain := c, lockRun := run, slew := e, slewPhase := phase } = b.untimed := rfl

theorem BeatSt.ticks_still (b : BeatSt) (k : Nat) : (b.ticks k).still = b.still := by
  unfold BeatSt.ticks
  split <;> rfl

theorem BeatSt.ticks_tick {b : BeatSt} (h : b.locked1st = true) (k : Nat) : (b.ticks k).tick = b.tick + k := by
  rw [BeatSt.ticks, if_pos h]

section Still
variable {b c : BeatSt} (h : b.still = c.still)
include h

theorem BeatSt.locked1st_of_still : b.locked1st = c.locked1st := (congrArg BeatSt.locked1st h :)
theorem BeatSt.bk_of_still : b.bk = c.bk := (congrArg BeatSt.bk h :)
theorem BeatSt.nom_of_still : b.nom = c.nom := (congrArg BeatSt.nom h :)
theorem BeatSt.placed_of_still : b.placed = c.placed := (congrArg BeatSt.placed h :)
theorem BeatSt.sync_of_still : b.sync = c.sync := (congrArg BeatSt.sync h :)
theorem BeatSt.late_of_still : b.late = c.late := (congrArg BeatSt.late h :)
theorem BeatSt.hit_of_still : b.hit = c.hit := (congrArg BeatSt.hit h :)
theorem BeatSt.missRun_of_still : b.missRun = c.missRun := (congrArg BeatSt.missRun h :)

end Still

/-- The values that the active registers give (R73). -/
theorem State.effective_of_active {s t : State} (h : t.active = s.active) :
    t.beatP = s.beatP ∧ t.beatW = s.beatW ∧ t.beatM = s.beatM ∧ t.beatMin = s.beatMin := by
  have ha : ∀ f, t.act f = s.act f := fun f => by rw [State.act, State.act, h]
  have hp : t.beatP = s.beatP := by rw [State.beatP, State.beatP, ha]
  have hw : t.beatW = s.beatW := by rw [State.beatW, State.beatW, ha, hp]
  have hm : t.beatM = s.beatM := by rw [State.beatM, State.beatM, ha, hp]
  exact ⟨hp, hw, hm, by rw [State.beatMin, State.beatMin, hp, hw, hm]⟩

/-! ### Time -/

/-- A change of the beat alone, seen in the view. -/
theorem State.calm_withBeat {n : Nat} {s t : State} (h : t.calm n = s.calm n) (b : BeatSt) :
    (t.withBeat b).calm n = (s.withBeat b).calm n := congrArg (fun c : Calm => { c with beat := b }) h

/-- The tick to which time goes: no boundary that is due is passed. -/
def State.timeEnd (s : State) (t : Nat) : Nat := if s.running then min t s.beat.placed else t

/-- Where time does not go on, the state stays; else the beat counts on, and the work in the background leaves the rest. -/
theorem State.timeTo_calm (s : State) (t : Nat) : ∃ b, (s.timeTo t).calm 0 = (s.withBeat b).calm 0 ∧ b.still = s.beat.still ∧
    b.tick = if s.beat.locked1st then max s.beat.tick (s.timeEnd t) else s.beat.tick := by
  unfold State.timeTo State.timeEnd
  extract_lets u s1 s2
  by_cases hu : u ≤ s.beat.tick ∨ s.beat.locked1st = false
  · rw [if_pos hu]
    refine ⟨s.beat, rfl, rfl, ?_⟩
    split
    · next hl => exact (Nat.max_eq_left (hu.resolve_right (by simp [hl]))).symm
    · rfl
  · rw [if_neg hu]
    have hl : s.beat.locked1st = true := by simpa using (not_or.1 hu).2
    have hlt : s.beat.tick < u := Nat.not_le.1 (not_or.1 hu).1
    have h1 : s1.calm 0 = (s.withBeat (s.beat.ticks 1)).calm 0 := State.calm_tallyEdge ..
    have hb : s1.beat = s.beat.ticks 1 := State.beat_of_calm h1
    have hs : s1.beat.still = s.beat.still := by rw [hb, BeatSt.ticks_still]
    refine ⟨s1.beat.ticks (u - s1.beat.tick), ?_, ?_, ?_⟩
    · simp only [State.calm_meshRun, State.calm_pmuEvent, State.calm_busyTicks, State.calm_pclkTicks]
      exact State.calm_withBeat h1 _
    · rw [BeatSt.ticks_still, hs]
    · have ht : s1.beat.tick = s.beat.tick + 1 := by rw [hb, BeatSt.ticks_tick hl]
      rw [BeatSt.ticks_tick ((BeatSt.locked1st_of_still hs).trans hl), ht, if_pos hl]
      change _ = max s.beat.tick u
      omega

section Time
variable (s : State) (t : Nat)

theorem State.timeTo_still : (s.timeTo t).beat.still = s.beat.still := by
  obtain ⟨b, hc, hb, -⟩ := s.timeTo_calm t
  rw [State.beat_of_calm hc]
  exact hb

@[simp] theorem State.timeTo_active : (s.timeTo t).active = s.active := by
  obtain ⟨b, hc, -⟩ := s.timeTo_calm t
  exact (State.active_of_calm hc :)

theorem State.timeTo_fld (f : Fld) (h0 : kept f.addr = true) (h4 : kept (f.addr + 4) = true) : (s.timeTo t).fld f = s.fld f := by
  obtain ⟨b, hc, -⟩ := s.timeTo_calm t
  rw [State.fld_of_calm hc (by decide) f h0 h4, State.fld_withBeat]

theorem State.timeTo_flag (f : Fld) (h0 : kept f.addr = true) (h4 : kept (f.addr + 4) = true) : (s.timeTo t).flag f = s.flag f := by
  rw [State.flag, s.timeTo_fld t f h0 h4, State.flag]

@[simp] theorem State.timeTo_running : (s.timeTo t).running = s.running := s.timeTo_flag t _ (by decide) (by decide)

/-- With the clock locked time goes to where it is to go, never back. -/
theorem State.timeTo_tick (hl : s.beat.locked1st = true) : (s.timeTo t).beat.tick = max s.beat.tick (s.timeEnd t) := by
  obtain ⟨b, hc, -, ht⟩ := s.timeTo_calm t
  rw [State.beat_of_calm hc]
  exact ht.trans (if_pos hl)

theorem State.tick_le_timeTo : s.beat.tick ≤ (s.timeTo t).beat.tick := by
  obtain ⟨b, hc, -, ht⟩ := s.timeTo_calm t
  rw [State.beat_of_calm hc]
  change s.beat.tick ≤ b.tick
  rw [ht]
  split
  · exact Nat.le_max_left ..
  · exact le_rfl

end Time

/-! ### The timestamp of a hit -/

/-- The end of a chain leaves the beat but for its timestamps. -/
theorem State.endChain_untimed (s : State) : s.endChain.beat.untimed = s.beat.untimed := by
  rw [State.endChain, State.setFlag_beat]
  exact BeatSt.chained_untimed s.beat none 0 _ _

@[simp] theorem State.endChain_active (s : State) : s.endChain.active = s.active := by
  rw [State.endChain, State.setFlag_active, State.withBeat_active]

/-- It writes TS_LOCKED alone. -/
theorem State.endChain_fld (s : State) (f : Fld) (hf : f.lo + f.w ≤ 32) (h : f.addr ≠ 0x2001c ∨ f.lo + f.w ≤ 5 ∨ 6 ≤ f.lo) :
    s.endChain.fld f = s.fld f :=
  (State.fld_setFld_apart _ _ _ _ (by decide) hf h).trans (State.fld_withBeat ..)

/-- A hit's timestamp is a matter of the timestamps: it leaves the beat's places and the sync state, and of the registers it writes
TS_LOCKED alone. -/
theorem State.tsHit_leaves (s : State) (ago : Nat) (cap : BitVec 64) (cur : Nat) (skip : Bool) :
    (s.tsHit ago cap cur skip).beat.untimed = s.beat.untimed ∧ (s.tsHit ago cap cur skip).active = s.active ∧
      ∀ f : Fld, f.lo + f.w ≤ 32 → f.addr ≠ 0x2001c ∨ f.lo + f.w ≤ 5 ∨ 6 ≤ f.lo → (s.tsHit ago cap cur skip).fld f = s.fld f := by
  have hset : ∀ (t : State) (v : Bool), (t.setFlag BEAT_SYNC_STS_TS_LOCKED v).beat = t.beat ∧
      (t.setFlag BEAT_SYNC_STS_TS_LOCKED v).active = t.active ∧ ∀ f : Fld, f.lo + f.w ≤ 32 →
        f.addr ≠ 0x2001c ∨ f.lo + f.w ≤ 5 ∨ 6 ≤ f.lo → (t.setFlag BEAT_SYNC_STS_TS_LOCKED v).fld f = t.fld f := fun t v =>
    ⟨State.setFlag_beat .., State.setFlag_active .., fun f hf h => State.fld_setFld_apart _ _ _ _ (by decide) hf h⟩
  unfold State.tsHit
  split
  · extract_lets pre b s1 _
    have hb : s1.beat.untimed = s.beat.untimed := (State.endChain_untimed _).trans (BeatSt.loaded_untimed s.beat _)
    have hf : ∀ f : Fld, f.lo + f.w ≤ 32 → f.addr ≠ 0x2001c ∨ f.lo + f.w ≤ 5 ∨ 6 ≤ f.lo → s1.fld f = s.fld f := fun f hw h =>
      (State.endChain_fld _ f hw h).trans (State.fld_withBeat ..)
    have ha : s1.active = s.active := (State.endChain_active _).trans (State.withBeat_active ..)
    split
    · exact ⟨(BeatSt.chained_untimed s1.beat _ 1 _ _).trans hb, (State.withBeat_active ..).trans ha, fun f hw h => (State.fld_withBeat ..).trans (hf f hw h)⟩
    · exact ⟨hb, ha, hf⟩
  · split
    · split
      · exact ⟨BeatSt.chained_untimed s.beat _ 1 0 0, rfl, fun f _ _ => State.fld_withBeat ..⟩
      · extract_lets exp e run _ s1
        have hb : s1.beat.untimed = s.beat.untimed := BeatSt.chained_untimed s.beat _ run 0 e
        have hf : ∀ f, s1.fld f = s.fld f := fun f => State.fld_withBeat ..
        have hlock : ∀ v, (s1.setFlag BEAT_SYNC_STS_TS_LOCKED v).beat.untimed = s.beat.untimed ∧
            (s1.setFlag BEAT_SYNC_STS_TS_LOCKED v).active = s.active ∧ ∀ f : Fld, f.lo + f.w ≤ 32 →
              f.addr ≠ 0x2001c ∨ f.lo + f.w ≤ 5 ∨ 6 ≤ f.lo → (s1.setFlag BEAT_SYNC_STS_TS_LOCKED v).fld f = s.fld f := fun v => by
          obtain ⟨h1, h2, h3⟩ := hset s1 v
          exact ⟨by rw [h1, hb], h2.trans (State.withBeat_active ..), fun f hw h => (h3 f hw h).trans (hf f)⟩
        split
        · exact hlock false
        · split
          · exact hlock true
          · exact ⟨hb, State.withBeat_active .., fun f _ _ => hf f⟩
    · exact ⟨rfl, rfl, fun _ _ _ => rfl⟩

end Sys2Proof.Machine
end

section
/-!
SUPPORT. Edges and misses of BEAT_SYNC_IN (R74 to R76), and O31.
-/
namespace Sys2Proof.Machine

/-! ### Misses -/

/-- A miss, and what it comes to before the LOSS_N-th in a row. -/
def State.missed (s : State) : State :=
  (s.withBeat { s.beat with late := none, missRun := s.beat.missRun + 1 }).countSat BEAT_SYNC_CNT_MISSED

/-- The LOSS_N-th miss in a row, before the chain ends (R75). -/
def State.lostSync (s : State) : State :=
  let s2 := (s.missed.setFlag BEAT_SYNC_STS_SYNC_LOST true).logD ev_SYNC_LOST blkBeat 0 [s.missed.fld BEAT_COUNT_COUNT]
  if s2.flag BEAT_SYNC_CTL_LOST_IRQ_EN then s2.raise 3 else s2

/-- The state after the LOSS_N-th miss. -/
def State.afterLoss (s : State) : SyncState := if s.act BEAT_SYNC_CTL_AUTO_REACQ = 1 then .acquiring else .free

/-- A miss is counted, or is the one that loses the synchronization (R75). -/
theorem State.syncMiss_eq (s : State) :
    s.syncMiss = if s.beat.missRun + 1 < max (s.fld BEAT_SYNC_LOSS_N_N) 1 then s.missed
      else (s.lostSync.endChain.withBeat { s.lostSync.endChain.beat with
        missRun := 0, lastEdge := none, winEdge := none, hit := false }).setSync s.afterLoss := by
  have hm : s.missed.beat.missRun = s.beat.missRun + 1 := by rw [State.missed, State.countSat_beat, State.withBeat_beat]
  have hn : s.missed.fld BEAT_SYNC_LOSS_N_N = s.fld BEAT_SYNC_LOSS_N_N :=
    (State.fld_setFld_apart _ _ _ _ (by decide) (by decide) (by decide)).trans (State.fld_withBeat ..)
  unfold State.syncMiss State.afterLoss
  change (if s.missed.beat.missRun < max (s.missed.fld BEAT_SYNC_LOSS_N_N) 1 then s.missed
    else if _ then (s.lostSync.endChain.withBeat _).setSync .acquiring else (s.lostSync.endChain.withBeat _).setSync .free) = _
  rw [hm, hn]
  split
  · rfl
  · split <;> rfl

theorem State.missed_beat (s : State) : s.missed.beat = { s.beat with late := none, missRun := s.beat.missRun + 1 } := by
  rw [State.missed, State.countSat_beat, State.withBeat_beat]

theorem State.missed_active (s : State) : s.missed.active = s.active := by
  rw [State.missed, State.countSat_active, State.withBeat_active]

theorem State.missed_fld (s : State) (f : Fld) (hf : f.lo + f.w ≤ 32) (h : f.addr ≠ 0x20020 ∨ 16 ≤ f.lo) : s.missed.fld f = s.fld f :=
  (State.fld_setFld_apart _ _ _ _ (by decide) hf (by simp only; omega)).trans (State.fld_withBeat ..)

theorem State.lostSync_calm (s : State) : s.lostSync.calm 0 = (s.missed.setFlag BEAT_SYNC_STS_SYNC_LOST true).calm 0 := by
  unfold State.lostSync
  extract_lets s2
  have h2 : s2.calm 0 = (s.missed.setFlag BEAT_SYNC_STS_SYNC_LOST true).calm 0 := State.calm_logD ..
  split
  · exact (State.calm_raise ..).trans h2
  · exact h2

theorem State.lostSync_beat (s : State) : s.lostSync.beat = s.missed.beat :=
  (State.beat_of_calm s.lostSync_calm).trans (State.setFlag_beat ..)

theorem State.lostSync_fld (s : State) (f : Fld) (h : f.addr < 0x20020) :
    s.lostSync.fld f = (s.missed.setFlag BEAT_SYNC_STS_SYNC_LOST true).fld f :=
  State.fld_of_calm s.lostSync_calm (by decide) f (by simp [kept]; omega) (by simp [kept]; omega)

theorem State.lostSync_active (s : State) : s.lostSync.active = s.active :=
  ((State.active_of_calm s.lostSync_calm).trans (State.setFlag_active ..)).trans s.missed_active

@[simp] theorem State.setSync_beat (s : State) (x : SyncState) : (s.setSync x).beat = { s.beat with sync := x } :=
  (State.setFld_beat ..).trans (State.withBeat_beat ..)

@[simp] theorem State.setSync_active (s : State) (x : SyncState) : (s.setSync x).active = s.active :=
  (State.setFld_active ..).trans (State.withBeat_active ..)

/-- It writes STATE alone. -/
theorem State.setSync_fld (s : State) (x : SyncState) (f : Fld) (hf : f.lo + f.w ≤ 32) (h : f.addr ≠ 0x2001c ∨ f.lo + f.w ≤ 2 ∨ 4 ≤ f.lo) :
    (s.setSync x).fld f = s.fld f :=
  (State.fld_setFld_apart _ _ _ _ (by decide) hf h).trans (State.fld_withBeat ..)

/-- What a miss leaves: the boundary's place and the active values; no window is open after it. -/
theorem State.syncMiss_leaves (s : State) :
    s.syncMiss.beat.tick = s.beat.tick ∧ s.syncMiss.beat.locked1st = s.beat.locked1st ∧ s.syncMiss.beat.bk = s.beat.bk ∧
    s.syncMiss.beat.nom = s.beat.nom ∧ s.syncMiss.beat.placed = s.beat.placed ∧ s.syncMiss.beat.late = none ∧
    s.syncMiss.active = s.active ∧
    ∀ f : Fld, f.lo + f.w ≤ 32 → f.addr ≠ 0x2001c → f.addr < 0x20020 → s.syncMiss.fld f = s.fld f := by
  rw [State.syncMiss_eq]
  split
  · rw [State.missed_beat]
    exact ⟨rfl, rfl, rfl, rfl, rfl, rfl, s.missed_active, fun f hf _ h => s.missed_fld f hf (.inl (by omega))⟩
  · have hu : s.lostSync.endChain.beat.untimed = s.missed.beat.untimed := by rw [State.endChain_untimed, State.lostSync_beat]
    rw [State.missed_beat] at hu
    rw [State.setSync_beat, State.withBeat_beat]
    refine ⟨(congrArg BeatSt.tick hu :), (congrArg BeatSt.locked1st hu :), (congrArg BeatSt.bk hu :), (congrArg BeatSt.nom hu :),
      (congrArg BeatSt.placed hu :), (congrArg BeatSt.late hu :), ?_, fun f hf h1 h2 => ?_⟩
    · rw [State.setSync_active, State.withBeat_active, State.endChain_active, State.lostSync_active]
    · rw [State.setSync_fld _ _ _ hf (.inl h1), State.fld_withBeat, State.endChain_fld _ _ hf (.inl h1)]
      rw [State.lostSync_fld s f h2]
      exact (State.fld_setFld_apart _ _ _ _ (by decide) hf (.inl h1)).trans (s.missed_fld f hf (.inl (by omega)))

/-- Closing an overdue window leaves the boundary's place and the active values, and time stays at or before `t`. -/
theorem State.closePast_leaves {s : State} (hl : s.beat.locked1st = true) (t : Nat) :
    (s.closePast t).running = s.running ∧ (s.closePast t).active = s.active ∧ (s.closePast t).beat.locked1st = true ∧
    (s.closePast t).beat.bk = s.beat.bk ∧ (s.closePast t).beat.nom = s.beat.nom ∧ (s.closePast t).beat.placed = s.beat.placed ∧
    s.beat.tick ≤ (s.closePast t).beat.tick ∧ (s.beat.tick ≤ t → (s.closePast t).beat.tick ≤ t) := by
  have hself : ∀ u, u = s → u.running = s.running ∧ u.active = s.active ∧ u.beat.locked1st = true ∧ u.beat.bk = s.beat.bk ∧
      u.beat.nom = s.beat.nom ∧ u.beat.placed = s.beat.placed ∧ s.beat.tick ≤ u.beat.tick ∧ (s.beat.tick ≤ t → u.beat.tick ≤ t) := by
    rintro u rfl
    exact ⟨rfl, rfl, hl, rfl, rfl, rfl, le_rfl, id⟩
  unfold State.closePast
  split
  · next w hw =>
    split
    · next hwt =>
      have hs := s.timeTo_still w.close
      obtain ⟨htick, hlk, hbk, hnom, hplaced, -, hact, hfld⟩ := (s.timeTo w.close).syncMiss_leaves
      have ht := s.timeTo_tick w.close hl
      have hu : s.timeEnd w.close ≤ w.close := by
        unfold State.timeEnd
        split
        · exact Nat.min_le_left ..
        · exact le_rfl
      refine ⟨?_, hact.trans (s.timeTo_active _), by rw [hlk, BeatSt.locked1st_of_still hs, hl], hbk.trans (BeatSt.bk_of_still hs),
        hnom.trans (BeatSt.nom_of_still hs), hplaced.trans (BeatSt.placed_of_still hs), ?_, fun h => ?_⟩
      · rw [State.running, State.flag, hfld _ (by decide) (by decide) (by decide)]
        exact s.timeTo_running w.close
      · rw [htick, ht]
        exact Nat.le_max_left ..
      · rw [htick, ht]
        omega
    · exact hself s rfl
  · exact hself s rfl

/-! ### Hits -/

/-- OFFSET is a 16-bit number. -/
theorem offsetField_lt (t n : Nat) : offsetField t n < 2 ^ 16 := by
  simp only [offsetField]
  omega

/-- The late hit: the place of the next boundary, and what it leaves (R74). -/
theorem State.lateHit_shows (s : State) (w : LateWin) (t : Nat) :
    let n := max (min (min t (w.nom + s.beatW) + s.beatP) (s.beat.bk + s.beatP + s.beatW)) (s.beat.bk + s.beatMin)
    (s.lateHit w t).beat.placed = n ∧ (s.lateHit w t).beat.nom = n ∧ (s.lateHit w t).beat.late = none ∧
    (s.lateHit w t).beat.missRun = 0 ∧ (s.lateHit w t).beat.tick = s.beat.tick ∧ (s.lateHit w t).beat.bk = s.beat.bk ∧
    (s.lateHit w t).beat.sync = s.beat.sync ∧ (s.lateHit w t).active = s.active ∧
    (s.lateHit w t).fld BEAT_SYNC_STS_OFFSET = offsetField t w.nom := by
  intro n
  obtain ⟨hb, ha, hf⟩ := (s.setFld BEAT_SYNC_STS_OFFSET (offsetField t w.nom)).tsHit_leaves 0 s.beat.ts 0 false
  rw [State.setFld_beat] at hb
  refine ⟨rfl, rfl, rfl, rfl, (congrArg BeatSt.tick hb :), (congrArg BeatSt.bk hb :), (congrArg BeatSt.sync hb :), ?_, ?_⟩
  · exact (State.withBeat_active ..).trans (ha.trans (State.setFld_active ..))
  · exact (State.fld_withBeat ..).trans ((hf _ (by decide) (by decide)).trans ((State.fld_setFld_same _ _ _ (by decide)).trans
      (Nat.mod_eq_of_lt (offsetField_lt t w.nom))))

/-- The early hit: it moves the coming boundary to itself, held within the bounds (R74). -/
theorem State.earlyHit_shows (s : State) (t : Nat) :
    (s.earlyHit t).beat.placed = max t (s.beat.bk + s.beatMin) ∧ (s.earlyHit t).beat.hit = true ∧ (s.earlyHit t).beat.missRun = 0 ∧
    (s.earlyHit t).beat.tick = s.beat.tick ∧ (s.earlyHit t).beat.bk = s.beat.bk ∧ (s.earlyHit t).beat.nom = s.beat.nom ∧
    (s.earlyHit t).beat.late = s.beat.late ∧ (s.earlyHit t).beat.sync = s.beat.sync ∧ (s.earlyHit t).active = s.active ∧
    (s.earlyHit t).fld BEAT_SYNC_STS_OFFSET = offsetField t s.beat.nom := by
  obtain ⟨hb, ha, hf⟩ := (s.setFld BEAT_SYNC_STS_OFFSET (offsetField t s.beat.nom)).tsHit_leaves 0 s.beat.ts s.beatP true
  rw [State.setFld_beat] at hb
  refine ⟨rfl, rfl, rfl, (congrArg BeatSt.tick hb :), (congrArg BeatSt.bk hb :), (congrArg BeatSt.nom hb :), (congrArg BeatSt.late hb :),
    (congrArg BeatSt.sync hb :), ?_, ?_⟩
  · exact (State.withBeat_active ..).trans (ha.trans (State.setFld_active ..))
  · exact (State.fld_withBeat ..).trans ((hf _ (by decide) (by decide)).trans ((State.fld_setFld_same _ _ _ (by decide)).trans
      (Nat.mod_eq_of_lt (offsetField_lt t s.beat.nom))))

/-- An edge in ACQUIRING becomes the latest one, and the boundary is placed by it (R76). -/
theorem State.acqEdge_shows (s : State) (t : Nat) :
    (s.acqEdge t).beat.lastEdge = some t ∧
    (s.acqEdge t).beat.placed = (acqPlace t s.beat.nom s.beatP s.beatW (s.beat.bk + s.beatM)).1 ∧
    (s.acqEdge t).beat.tick = s.beat.tick ∧ (s.acqEdge t).beat.bk = s.beat.bk ∧ (s.acqEdge t).beat.nom = s.beat.nom ∧
    (s.acqEdge t).beat.late = s.beat.late ∧ (s.acqEdge t).beat.sync = s.beat.sync ∧ (s.acqEdge t).active = s.active :=
  ⟨rfl, rfl, rfl, rfl, rfl, rfl, rfl, rfl⟩

/-- The edge of SYNC_EDGE comes once time has gone on to it. -/
def State.upToEdge (s : State) (t : Nat) : State := (s.closePast (max t s.beat.tick)).timeTo t

/-- What SYNC_EDGE makes of the edge (R73 to R76). -/
def State.takeEdge (s : State) : State :=
  match s.beat.sync with
  | .off => s
  | .free => s
  | .acquiring => s.acqEdge s.beat.tick
  | .tracking => s.trackEdge s.beat.tick

theorem execSyncEdge_eq (s : State) (t : Nat) :
    exec (.syncEdge t) s = .next (if (s.upToEdge t).running then (s.upToEdge t).takeEdge else s.upToEdge t) := by
  change execSyncEdge t s = _
  unfold execSyncEdge
  change (if (!(s.upToEdge t).running) = true then _ else _) = _
  cases hr : (s.upToEdge t).running with
  | false => rfl
  | true =>
    unfold State.takeEdge
    change (match (s.upToEdge t).beat.sync with
      | .off => _
      | .free => _
      | .acquiring => _
      | .tracking => _) = _
    cases (s.upToEdge t).beat.sync <;> rfl

/-- What the way to the edge leaves. -/
theorem State.upToEdge_leaves {s : State} (hl : s.beat.locked1st = true) (t : Nat) :
    (s.upToEdge t).running = s.running ∧ (s.upToEdge t).active = s.active ∧ (s.upToEdge t).beat.bk = s.beat.bk ∧
    (s.upToEdge t).beat.nom = s.beat.nom ∧ (s.upToEdge t).beat.placed = s.beat.placed ∧ s.beat.tick ≤ (s.upToEdge t).beat.tick := by
  obtain ⟨hr, ha, hlk, hbk, hnom, hplaced, htick, -⟩ := s.closePast_leaves hl (max t s.beat.tick)
  have hs := (s.closePast (max t s.beat.tick)).timeTo_still t
  exact ⟨(State.timeTo_running ..).trans hr, (State.timeTo_active ..).trans ha, (BeatSt.bk_of_still hs).trans hbk,
    (BeatSt.nom_of_still hs).trans hnom, (BeatSt.placed_of_still hs).trans hplaced, htick.trans (State.tick_le_timeTo ..)⟩

/-- An edge ahead of the boundary comes at its tick. -/
theorem State.upToEdge_tick {s : State} (hr : s.running = true) (hl : s.beat.locked1st = true) {t : Nat} (ht : s.beat.tick ≤ t)
    (hp : t ≤ s.beat.placed) : (s.upToEdge t).beat.tick = t := by
  obtain ⟨hr', -, hlk, -, -, hplaced, -, hle⟩ := s.closePast_leaves hl (max t s.beat.tick)
  have h1 := hle (Nat.le_max_right ..)
  rw [State.upToEdge, State.timeTo_tick _ _ hlk, State.timeEnd, hr', hr, if_pos rfl, hplaced]
  omega

/-- Where no window has closed before the edge, time alone passes up to it. -/
theorem State.upToEdge_of_open {s : State} {t : Nat} (ht : s.beat.tick ≤ t) (h : ∀ w, s.beat.late = some w → t ≤ w.close) :
    s.upToEdge t = s.timeTo t := by
  rw [State.upToEdge, Nat.max_eq_left ht, State.closePast]
  split
  · next w hw => rw [if_neg (Nat.not_lt.2 (h w hw))]
  · rfl

/-! ### O31 -/

/-- An edge leaves the time. -/
theorem State.takeEdge_tick (s : State) : s.takeEdge.beat.tick = s.beat.tick := by
  unfold State.takeEdge
  split
  · rfl
  · rfl
  · rfl
  · unfold State.trackEdge
    split
    · next w hw =>
      split
      · obtain ⟨-, -, -, -, h, -⟩ := s.lateHit_shows w s.beat.tick
        exact h
      · rw [State.countSat_beat]
    · split
      · obtain ⟨-, -, -, h, -⟩ := s.earlyHit_shows s.beat.tick
        exact h
      · rw [State.countSat_beat]

section Edge
variable {s u : State} {t : Nat} (hs : u.beat.still = s.beat.still) (ha : u.active = s.active) (ht : u.beat.tick = t)
include hs ha ht

/-- The late hit at the edge's tick. -/
theorem State.takeEdge_late (hsync : s.beat.sync = .tracking) {w : LateWin} (hw : s.beat.late = some w) (hle : t ≤ w.close) :
    u.takeEdge.beat.placed = max (min (min t (w.nom + s.beatW) + s.beatP) (s.beat.bk + s.beatP + s.beatW)) (s.beat.bk + s.beatMin) ∧
    u.takeEdge.beat.nom = u.takeEdge.beat.placed ∧ u.takeEdge.beat.late = none ∧ u.takeEdge.beat.missRun = 0 ∧
    u.takeEdge.fld BEAT_SYNC_STS_OFFSET = offsetField t w.nom := by
  obtain ⟨hP, hW, -, hMin⟩ := State.effective_of_active ha
  have he : u.takeEdge = u.lateHit w t := by
    unfold State.takeEdge State.trackEdge
    rw [BeatSt.sync_of_still hs, hsync, BeatSt.late_of_still hs, hw, ht]
    exact if_pos hle
  obtain ⟨hplaced, hnom, hlate, hrun, -, -, -, -, hoff⟩ := u.lateHit_shows w t
  rw [he]
  rw [hP, hW, hMin, BeatSt.bk_of_still hs] at hplaced hnom
  exact ⟨hplaced, hnom.trans hplaced.symm, hlate, hrun, hoff⟩

/-- The early hit at the edge's tick. -/
theorem State.takeEdge_early (hsync : s.beat.sync = .tracking) (hlate : s.beat.late = none) (hhit : s.beat.hit = false)
    (h1 : s.beat.nom ≤ t + s.beatW) (h2 : t ≤ s.beat.nom) :
    u.takeEdge.beat.placed = max t (s.beat.bk + s.beatMin) ∧ u.takeEdge.beat.hit = true ∧ u.takeEdge.beat.missRun = 0 ∧
    u.takeEdge.fld BEAT_SYNC_STS_OFFSET = offsetField t s.beat.nom := by
  obtain ⟨-, hW, -, hMin⟩ := State.effective_of_active ha
  have he : u.takeEdge = u.earlyHit t := by
    unfold State.takeEdge State.trackEdge
    rw [BeatSt.sync_of_still hs, hsync, BeatSt.late_of_still hs, hlate, ht, BeatSt.hit_of_still hs, hhit, BeatSt.nom_of_still hs, hW]
    exact if_pos (by simp [h1, h2])
  obtain ⟨hplaced, hh, hrun, -, -, -, -, -, -, hoff⟩ := u.earlyHit_shows t
  rw [he]
  rw [hMin, BeatSt.bk_of_still hs] at hplaced
  rw [BeatSt.nom_of_still hs] at hoff
  exact ⟨hplaced, hh, hrun, hoff⟩

/-- An edge in no window is counted, and nothing else. -/
theorem State.takeEdge_outside (hsync : s.beat.sync = .tracking) (hlate : s.beat.late = none)
    (h : s.beat.hit = true ∨ t + s.beatW < s.beat.nom ∨ s.beat.nom < t) : u.takeEdge = u.countSat BEAT_SYNC_CNT_OUTSIDE := by
  obtain ⟨-, hW, -, -⟩ := State.effective_of_active ha
  unfold State.takeEdge State.trackEdge
  rw [BeatSt.sync_of_still hs, hsync, BeatSt.late_of_still hs, hlate, ht, BeatSt.hit_of_still hs, BeatSt.nom_of_still hs, hW]
  refine if_neg fun hc => ?_
  simp only [Bool.and_eq_true, Bool.not_eq_true', decide_eq_true_eq] at hc
  obtain ⟨⟨hh, h1⟩, h2⟩ := hc
  rcases h with h | h | h
  · rw [h] at hh
    cases hh
  · omega
  · omega

/-- An edge in ACQUIRING at its tick. -/
theorem State.takeEdge_acquiring (hsync : s.beat.sync = .acquiring) : u.takeEdge.beat.lastEdge = some t ∧
    u.takeEdge.beat.placed = (acqPlace t s.beat.nom s.beatP s.beatW (s.beat.bk + s.beatM)).1 := by
  obtain ⟨hP, hW, hM, -⟩ := State.effective_of_active ha
  have he : u.takeEdge = u.acqEdge t := by
    unfold State.takeEdge
    rw [BeatSt.sync_of_still hs, hsync, ht]
  obtain ⟨hlast, hplaced, -⟩ := u.acqEdge_shows t
  rw [he]
  rw [hP, hW, hM, BeatSt.nom_of_still hs, BeatSt.bk_of_still hs] at hplaced
  exact ⟨hlast, hplaced⟩

end Edge

/-- SYNC_MISS of an open window (R75). -/
theorem execSyncMiss_shows (s : State) {w : LateWin} (hw : s.beat.late = some w) :
    ∃ u, exec .syncMiss s = .next u ∧ u.beat.late = none ∧
      u.fld BEAT_SYNC_CNT_MISSED = min (s.fld BEAT_SYNC_CNT_MISSED + 1) 0xFFFF ∧
      (s.beat.missRun + 1 < max (s.fld BEAT_SYNC_LOSS_N_N) 1 → u.beat.missRun = s.beat.missRun + 1 ∧ u.beat.sync = s.beat.sync) ∧
      (max (s.fld BEAT_SYNC_LOSS_N_N) 1 ≤ s.beat.missRun + 1 → u.flag BEAT_SYNC_STS_SYNC_LOST = true ∧
        u.beat.sync = (if s.act BEAT_SYNC_CTL_AUTO_REACQ = 1 then .acquiring else .free)) := by
  have hex : exec .syncMiss s = .next (s.timeTo w.close).syncMiss := by
    change execSyncMiss s = _
    rw [execSyncMiss, hw]
  generalize hv : s.timeTo w.close = v at hex
  have hs : v.beat.still = s.beat.still := by rw [← hv, State.timeTo_still]
  have hrun : v.beat.missRun = s.beat.missRun := BeatSt.missRun_of_still hs
  have hn : v.fld BEAT_SYNC_LOSS_N_N = s.fld BEAT_SYNC_LOSS_N_N := by rw [← hv, State.timeTo_fld _ _ _ (by decide) (by decide)]
  have hm : v.fld BEAT_SYNC_CNT_MISSED = s.fld BEAT_SYNC_CNT_MISSED := by rw [← hv, State.timeTo_fld _ _ _ (by decide) (by decide)]
  have hact : v.afterLoss = s.afterLoss := by rw [State.afterLoss, State.act, ← hv, State.timeTo_active, State.afterLoss, State.act]
  have hcount : v.missed.fld BEAT_SYNC_CNT_MISSED = min (s.fld BEAT_SYNC_CNT_MISSED + 1) 0xFFFF := by
    rw [State.missed, State.fld_countSat _ _ (by decide), State.fld_withBeat, hm]
    rfl
  obtain ⟨-, -, -, -, -, hlate, -⟩ := v.syncMiss_leaves
  refine ⟨v.syncMiss, hex, hlate, ?_, fun h => ?_, fun h => ?_⟩
  · rw [State.syncMiss_eq]
    split
    · exact hcount
    · rw [State.setSync_fld _ _ _ (by decide) (by decide), State.fld_withBeat, State.endChain_fld _ _ (by decide) (by decide),
        State.fld_of_calm v.lostSync_calm (by decide) _ (by decide) (by decide), State.setFlag,
        State.fld_setFld_apart _ _ _ _ (by decide) (by decide) (by decide), hcount]
  · rw [State.syncMiss_eq, hrun, hn, if_pos h, State.missed_beat]
    exact ⟨congrArg (· + 1) hrun, (BeatSt.sync_of_still hs :)⟩
  · rw [State.syncMiss_eq, hrun, hn, if_neg (Nat.not_lt.2 h), State.setSync_beat, hact]
    refine ⟨?_, rfl⟩
    rw [State.flag, State.setSync_fld _ _ _ (by decide) (by decide), State.fld_withBeat, State.endChain_fld _ _ (by decide) (by decide),
      State.lostSync_fld _ _ (by decide)]
    exact State.flag_setFlag_same _ _ _ (by decide) rfl

/-- Settles O31 from what an edge is taken as in each sync state, and what a miss shows. -/
theorem syncEdges : Obligations.SyncEdges := by
  unfold Obligations.SyncEdges
  refine ⟨fun s t hr hl ht hp => ?_, fun s w hw => execSyncMiss_shows s hw, fun s => ?_, fun s => ⟨s.armLoad, rfl, ?_, ?_⟩⟩
  · have hat := State.upToEdge_tick hr hl ht hp
    have hrun : (s.upToEdge t).running = true := (State.upToEdge_leaves hl t).1.trans hr
    have hopen : (∀ w, s.beat.late = some w → t ≤ w.close) →
        (s.upToEdge t).beat.still = s.beat.still ∧ (s.upToEdge t).active = s.active := fun h => by
      rw [State.upToEdge_of_open ht h]
      exact ⟨s.timeTo_still t, s.timeTo_active t⟩
    have hnone : s.beat.late = none → (s.upToEdge t).beat.still = s.beat.still ∧ (s.upToEdge t).active = s.active ∧
        (s.upToEdge t).fld BEAT_SYNC_CNT_OUTSIDE = s.fld BEAT_SYNC_CNT_OUTSIDE := fun h => by
      have hw : ∀ w, s.beat.late = some w → t ≤ w.close := by simp [h]
      obtain ⟨hs, ha⟩ := hopen hw
      exact ⟨hs, ha, by rw [State.upToEdge_of_open ht hw, State.timeTo_fld _ _ _ (by decide) (by decide)]⟩
    refine ⟨(s.upToEdge t).takeEdge, by rw [execSyncEdge_eq, if_pos hrun], (State.takeEdge_tick _).trans hat, ?_, ?_, ?_, ?_, ?_⟩
    · intro hsync w hw hle
      obtain ⟨hs, ha⟩ := hopen fun w' h => by
        obtain rfl : w = w' := Option.some.inj (hw.symm.trans h)
        exact hle
      exact State.takeEdge_late hs ha hat hsync hw hle
    · intro hsync hlate hhit h1 h2
      obtain ⟨hs, ha, -⟩ := hnone hlate
      exact State.takeEdge_early hs ha hat hsync hlate hhit h1 h2
    · intro hsync hlate h
      obtain ⟨hs, ha, hout⟩ := hnone hlate
      rw [State.takeEdge_outside hs ha hat hsync hlate h, State.countSat_beat, State.fld_countSat _ _ (by decide), hout]
      exact ⟨BeatSt.placed_of_still hs, rfl⟩
    · intro hsync hlate
      obtain ⟨hs, ha, -⟩ := hnone hlate
      exact State.takeEdge_acquiring hs ha hat hsync
    · intro hsync hlate
      obtain ⟨hs, -, hout⟩ := hnone hlate
      have he : (s.upToEdge t).takeEdge = s.upToEdge t := by
        unfold State.takeEdge
        rw [BeatSt.sync_of_still hs]
        rcases hsync with h | h <;> rw [h]
      rw [he]
      exact ⟨BeatSt.placed_of_still hs, hout⟩
  · refine ⟨s.armReacq, rfl, ?_⟩
    unfold State.armReacq
    by_cases h : s.running = true ∧ s.act BEAT_SYNC_CTL_MODE = 1
    · rw [if_pos h, if_pos (by simpa using h)]
      exact ⟨rfl, rfl⟩
    · rw [if_neg h, if_neg (by simpa using h)]
      exact ⟨rfl, rfl⟩
  · rw [State.armLoad, State.setFlag_beat, State.withBeat_beat]
  · exact State.flag_setFlag_same _ _ _ (by decide) rfl

end Sys2Proof.Machine
end

section
/-!
SUPPORT. Work at the plats and the faults of clusters leave the beat, the active values and what else the view holds at their depths.
-/
namespace Sys2Proof.Machine

section Part
variable (n : Nat) (s : State)

/-! ### Plats (depth 1) -/

@[simp] theorem State.calm_setPlat (p : Nat) (x : PlatSt) : (s.setPlat p x).calm (n + 1) = s.calm (n + 1) := by rfl
@[simp] theorem State.calm_setFrame (p f : Nat) (x : Frame) : (s.setFrame p f x).calm (n + 1) = s.calm (n + 1) := by rfl

@[simp] theorem State.calm_frameStore (p f o : Nat) (d : List Byte) : (s.frameStore p f o d).calm (n + 1) = s.calm (n + 1) := by
  unfold State.frameStore
  extract_lets cap k pl s1 rest
  have h1 : s1.calm (n + 1) = s.calm (n + 1) := State.calm_setPlat ..
  split
  · exact h1
  · exact (State.calm_physWrite ..).trans h1

@[simp] theorem State.calm_answerPut (p : Nat) (h : FrameHdr) (ok : Bool) : (s.answerPut p h ok).calm n = s.calm n := by
  unfold State.answerPut
  extract_lets c t
  split
  · split
    · rfl
    · simp
  · simp [t]

@[simp] theorem State.calm_discardPut (p f : Nat) (h : FrameHdr) (e : PutErr) (last : Bool) :
    (s.discardPut p f h e last).calm (n + 1) = s.calm (n + 1) := by
  unfold State.discardPut
  extract_lets s1 d s2
  have h2 : s2.calm (n + 1) = s.calm (n + 1) := by
    unfold s2 s1
    cases e <;> simp
  split
  · exact (State.calm_answerPut ..).trans h2
  · exact (State.calm_setPlat ..).trans h2

@[simp] theorem State.calm_acceptHeader (p f : Nat) (h : FrameHdr) : (s.acceptHeader p f h).calm (n + 1) = s.calm (n + 1) := by
  unfold State.acceptHeader
  split <;> simp

@[simp] theorem State.calm_grantFrame (p c q : Nat) : (s.grantFrame p c q).calm (n + 1) = s.calm (n + 1) := by simp [State.grantFrame]

@[simp] theorem State.calm_admitWaiting (p : Nat) (l : List PlatWait) : (s.admitWaiting p l).calm (n + 1) = s.calm (n + 1) := by
  induction l generalizing s with
  | nil => rfl
  | cons w l ih =>
    unfold State.admitWaiting
    split
    · cases w <;> simp [ih]
    · rfl

@[simp] theorem State.calm_letIn (p : Nat) : (s.letIn p).calm (n + 1) = s.calm (n + 1) := State.calm_admitWaiting ..

@[simp] theorem State.calm_poisonPut (p src : Nat) : (s.poisonPut p src).calm (n + 1) = s.calm (n + 1) := by
  unfold State.poisonPut
  extract_lets part
  split <;> simp

/-! ### Faults of clusters (depth 2) -/

/-- At depth 2 no register is left. -/
@[simp] theorem State.calm2_setFld (f : Fld) (v : Nat) : (s.setFld f v).calm 2 = s.calm 2 :=
  State.calm_congr 2 (by simp) (by simp) (by simp) (by simp) (by simp) (by simp) (by simp) (by simp) (by simp)

@[simp] theorem State.calm2_setFlag (f : Fld) (b : Bool) : (s.setFlag f b).calm 2 = s.calm 2 := State.calm2_setFld ..
@[simp] theorem State.calm2_setClu (p c : Nat) (k : Cluster) : (s.setClu p c k).calm 2 = s.calm 2 := by rfl
@[simp] theorem State.calm_setFo (p : Nat) (x : FoSt) : (s.setFo p x).calm n = s.calm n := by rfl

@[simp] theorem State.calm2_wakeEvent (p : Nat) : (s.wakeEvent p).calm 2 = s.calm 2 := by
  unfold State.wakeEvent
  extract_lets x
  split
  · rfl
  · split
    · rfl
    · split <;> simp

@[simp] theorem State.calm_trigPulse (p : Nat) : (s.trigPulse p).calm n = s.calm n :=
  State.calm_foldl _ _ (fun t k _ => by split <;> simp) s

@[simp] theorem State.calm2_stopCopy (p : Nat) : (s.stopCopy p).calm 2 = s.calm 2 := by
  refine State.calm_foldl _ _ (fun t q _ => ?_) s
  extract_lets f
  split <;> simp

@[simp] theorem State.calm2_foTrigger (p : Nat) : (s.foTrigger p).calm 2 = s.calm 2 := by
  unfold State.foTrigger
  split <;> simp

@[simp] theorem State.calm2_computeFatal (p cause c : Nat) : (s.computeFatal p cause c).calm 2 = s.calm 2 := by
  unfold State.computeFatal
  extract_lets first s1 s2 s3
  have h1 : s1.calm 2 = s.calm 2 := by
    unfold s1
    split <;> simp
  have h3 : s3.calm 2 = s.calm 2 := by simp [s3, s2, h1]
  split
  · exact (State.calm2_foTrigger ..).trans h3
  · exact h3

@[simp] theorem State.calm2_cluUe (p c : Nat) : (s.cluUe p c).calm 2 = s.calm 2 := by simp [State.cluUe]

/-! ### What the mesh's sinks take -/

@[simp] theorem State.calm_respLand (h : BitVec 64) : (s.respLand h).calm n = s.calm n := by
  unfold State.respLand
  extract_lets d m m1 t
  split <;> rfl

@[simp] theorem State.calm2_trvLand (k : MeshPkt) : (s.trvLand k).calm 2 = s.calm 2 := by
  unfold State.trvLand
  extract_lets h t t1
  have ht : t.calm 2 = s.calm 2 := by
    unfold t
    split <;> simp
  have h1 : t1.calm 2 = s.calm 2 := (State.calm_send ..).trans ht
  split
  · exact (State.calm_logD ..).trans ht
  · split
    · split
      · split
        · exact (State.calm2_cluUe ..).trans h1
        · exact h1
      · split
        · exact (State.calm_poisonPut ..).trans h1
        · exact h1
      · exact h1
    · exact h1

@[simp] theorem State.calm2_meshSinks : s.meshSinks.calm 2 = s.calm 2 := by
  unfold State.meshSinks
  refine (State.calm_foldl _ _ (fun t i _ => ?_) _).trans (State.calm_withMesh ..)
  split <;> simp

end Part

end Sys2Proof.Machine
end

section
/-!
SUPPORT. A step with nothing pending, O1, and the bounds of the next boundary, O32.
-/
namespace Sys2Proof.Machine

/-! ### A step with nothing pending -/

/-- CXL answers are messages. -/
theorem State.calm_foldl_send (l : List CxlReq) (s : State) :
    (l.foldl (fun t x => t.send (.completion x.res)) s).calm 0 = s.calm 0 :=
  State.calm_foldl _ _ (fun _ _ _ => State.calm_send ..) s

/-- Each message of a fold stands in the output, and the earlier ones stay. -/
theorem State.mem_out_foldl_send (l : List CxlReq) (s : State) :
    (∀ m ∈ s.out, m ∈ (l.foldl (fun t x => t.send (.completion x.res)) s).out) ∧
    ∀ x ∈ l, .completion x.res ∈ (l.foldl (fun t x => t.send (.completion x.res)) s).out := by
  induction l generalizing s with
  | nil => exact ⟨fun m h => h, by simp⟩
  | cons y l ih =>
    obtain ⟨hold, hnew⟩ := ih (s.send (.completion y.res))
    refine ⟨fun m h => hold m (List.mem_append_left _ h), fun x hx => ?_⟩
    rcases List.mem_cons.1 hx with rfl | hx
    · exact hold _ (List.mem_append_right _ (List.mem_singleton_self _))
    · exact hnew x hx

/-- The device's answer leaves the beat and the active values, and no request. -/
theorem State.cxlAnswer_shows (s : State) :
    s.cxlAnswer.beat = s.beat ∧ s.cxlAnswer.active = s.active ∧ s.cxlAnswer.mem.cxlOut = [] ∧
    ∀ x ∈ s.mem.cxlOut, .completion x.res ∈ s.cxlAnswer.out := by
  have h := State.calm_foldl_send s.mem.cxlOut ((s.withMem { s.mem with cxlOut := [] }).useEnd .cxl)
  exact ⟨(State.beat_of_calm h :), (State.active_of_calm h :), (State.cxlOut_of_calm h :), (State.mem_out_foldl_send _ _).2⟩

/-- A tick without a command: the beat goes on by a tick, or not at all before the first lock. -/
theorem State.idleTick_shows (s : State) :
    s.idleTick.beat.still = s.beat.still ∧ s.idleTick.active = s.active ∧ s.idleTick.mem.cxlOut = s.mem.cxlOut ∧
    s.beat.tick ≤ s.idleTick.beat.tick ∧ (s.beat.locked1st = false → s.idleTick.beat = s.beat) ∧
    (s.beat.locked1st = true → s.idleTick.beat.tick = max s.beat.tick (s.timeEnd (s.beat.tick + 1))) := by
  unfold State.idleTick
  cases hl : s.beat.locked1st with
  | false =>
    have h := State.calm_meshRun 0 s 1
    have hb := State.beat_of_calm h
    rw [if_neg (by decide), hb]
    exact ⟨rfl, (State.active_of_calm h :), (State.cxlOut_of_calm h :), le_rfl, fun _ => rfl, nofun⟩
  | true =>
    obtain ⟨b, hc, -⟩ := s.timeTo_calm (s.beat.tick + 1)
    rw [if_pos rfl]
    exact ⟨s.timeTo_still _, s.timeTo_active _, (State.cxlOut_of_calm hc :), s.tick_le_timeTo _, nofun, fun _ => s.timeTo_tick _ hl⟩

/-- What comes after the tick leaves the beat and the active values, and answers every CXL request. -/
theorem State.idle1_shows (s : State) :
    s.idle1.beat = s.idleTick.beat ∧ s.idle1.active = s.idleTick.active ∧ s.idle1.mem.cxlOut = [] ∧
    ∀ x ∈ s.mem.cxlOut, .completion x.res ∈ s.idle1.out := by
  obtain ⟨hb, ha, hx, hout⟩ := s.idleTick.meshSinks.cxlAnswer_shows
  have hm := s.idleTick.calm2_meshSinks
  obtain ⟨-, -, hcx, -⟩ := s.idleTick_shows
  rw [State.cxlOut_of_calm hm, hcx] at hout
  exact ⟨hb.trans (State.beat_of_calm hm), ha.trans (State.active_of_calm hm), hx, hout⟩

/-- A step with nothing pending is a tick. -/
theorem step_of_nil {s : State} (h : s.pending = []) : step s = .next s.idle1 := by
  unfold step
  rw [h]

/-- Settles O1 from the tick's effect on the beat and the answers of the CXL devices. -/
theorem stepTakesFrontCommand : Obligations.StepTakesFrontCommand := by
  unfold Obligations.StepTakesFrontCommand
  refine ⟨fun s c rest => rfl, fun s h => step_of_nil h, fun s h => ⟨s.idle1, step_of_nil h, ?_⟩⟩
  obtain ⟨hb, -, hx, hout⟩ := s.idle1_shows
  obtain ⟨-, -, -, -, hun, hlk⟩ := s.idleTick_shows
  refine ⟨fun hl => hb.trans (hun hl), fun hl hp => ?_, hx, hout⟩
  rw [hb, hlk hl, State.timeEnd]
  split
  · next hr =>
    have := hp hr
    omega
  · omega

/-! ### The bounds of R77 -/

/-- The window and the minimum work lie within the period (R73). -/
theorem State.effective_le (s : State) : s.beatW ≤ s.beatP ∧ s.beatM ≤ s.beatP ∧ s.beatMin ≤ s.beatP ∧ s.beatP ≤ s.beatMin + s.beatW := by
  have hw : s.beatW ≤ s.beatP := by unfold State.beatW; omega
  have hm : s.beatM ≤ s.beatP := by unfold State.beatM; omega
  have hmin : s.beatMin = max (s.beatP - s.beatW) s.beatM := rfl
  exact ⟨hw, hm, by omega, by omega⟩

/-- A boundary placed in ACQUIRING lies within W of the nominal time, and not before the earliest time (R76). -/
theorem acqPlace_bounds (t n p w e : Nat) : e ≤ (acqPlace t n p w e).1 ∧ n ≤ (acqPlace t n p w e).1 + w ∧
    (acqPlace t n p w e).1 ≤ max (n + w) e := by
  simp only [acqPlace]
  omega

/-- The bounds hold of every state whose place of the boundary and active values are alike, and which is not earlier. -/
theorem State.beatInv_of {s t : State} (h : s.beatInv) (ha : t.active = s.active) (htick : s.beat.tick ≤ t.beat.tick)
    (hbk : t.beat.bk = s.beat.bk) (hplaced : t.beat.placed = s.beat.placed) (hnom : t.beat.nom = s.beat.nom)
    (hopen : t.beat.late ≠ none ∨ t.beat.sync = .acquiring → s.beat.late ≠ none ∨ s.beat.sync = .acquiring) : t.beatInv := by
  obtain ⟨hP, hW, -, hMin⟩ := State.effective_of_active ha
  obtain ⟨h1, h2, h3, h4, h5, h6⟩ := h
  unfold State.beatInv
  rw [hP, hW, hMin, hbk, hplaced, hnom]
  exact ⟨h1.trans htick, h2, h3, h4, h5, fun hc => h6 (hopen hc)⟩

/-- Passing time leaves the bounds. -/
theorem State.beatInv_of_still {s t : State} (h : s.beatInv) (ha : t.active = s.active) (htick : s.beat.tick ≤ t.beat.tick)
    (hs : t.beat.still = s.beat.still) : t.beatInv :=
  State.beatInv_of h ha htick (BeatSt.bk_of_still hs) (BeatSt.placed_of_still hs) (BeatSt.nom_of_still hs)
    (by rw [BeatSt.late_of_still hs, BeatSt.sync_of_still hs]; exact id)

theorem State.beatInv_timeTo {s : State} (h : s.beatInv) (t : Nat) : (s.timeTo t).beatInv :=
  State.beatInv_of_still h (s.timeTo_active t) (s.tick_le_timeTo t) (s.timeTo_still t)

/-- A miss of an open window leaves the bounds: an open window's boundary is P after the last one. -/
theorem State.beatInv_syncMiss {s : State} (h : s.beatInv) (hlate : s.beat.late ≠ none) : s.syncMiss.beatInv := by
  obtain ⟨htick, -, hbk, hnom, hplaced, -, ha, -⟩ := s.syncMiss_leaves
  exact State.beatInv_of h ha htick.ge hbk hplaced hnom fun _ => .inl hlate

theorem State.beatInv_closePast {s : State} (h : s.beatInv) (t : Nat) : (s.closePast t).beatInv := by
  unfold State.closePast
  split
  · next w hw =>
    split
    · refine State.beatInv_syncMiss (State.beatInv_timeTo h _) ?_
      rw [BeatSt.late_of_still (s.timeTo_still _), hw]
      exact Option.some_ne_none w
    · exact h
  · exact h

/-- A late hit places the boundary within the bounds (R74, R77). -/
theorem State.beatInv_lateHit {s : State} (h : s.beatInv) (hsync : s.beat.sync = .tracking) (w : LateWin) (t : Nat) :
    (s.lateHit w t).beatInv := by
  obtain ⟨hplaced, hnom, hlate, -, htick, hbk, hs, ha, -⟩ := s.lateHit_shows w t
  obtain ⟨hP, hW, -, hMin⟩ := State.effective_of_active ha
  obtain ⟨-, -, hle, -⟩ := s.effective_le
  obtain ⟨h1, -⟩ := h
  unfold State.beatInv
  rw [hP, hW, hMin, hbk, hplaced, hnom, htick, hlate, hs, hsync]
  refine ⟨h1, ?_, ?_, ?_, ?_, by simp⟩ <;> omega

/-- So does an early hit, which comes no later than the nominal time. -/
theorem State.beatInv_earlyHit {s : State} (h : s.beatInv) {t : Nat} (ht : t ≤ s.beat.nom) : (s.earlyHit t).beatInv := by
  obtain ⟨hplaced, -, -, htick, hbk, hnom, hlate, hs, ha, -⟩ := s.earlyHit_shows t
  obtain ⟨hP, hW, -, hMin⟩ := State.effective_of_active ha
  obtain ⟨h1, -, -, h4, h5, h6⟩ := h
  unfold State.beatInv
  rw [hP, hW, hMin, hbk, hplaced, hnom, htick, hlate, hs]
  exact ⟨h1, by omega, by omega, h4, h5, h6⟩

/-- A boundary placed in ACQUIRING lies within the bounds (R76, R77). -/
theorem State.beatInv_acqPlan {s : State} (h : s.beatInv) (hnom : s.beat.nom = s.beat.bk + s.beatP) : s.acqPlan.beatInv := by
  unfold State.acqPlan
  split
  · exact h
  · next t _ =>
    obtain ⟨ha, hb, hc⟩ := acqPlace_bounds t s.beat.nom s.beatP s.beatW (s.beat.bk + s.beatM)
    obtain ⟨hw, hm, -, -⟩ := s.effective_le
    have hmin : s.beatMin = max (s.beatP - s.beatW) s.beatM := rfl
    obtain ⟨h1, -, -, h4, h5, h6⟩ := h
    refine ⟨h1, ?_, ?_, h4, h5, h6⟩
    · change s.beat.bk + s.beatMin ≤ _
      dsimp only [State.withBeat]
      omega
    · change _ ≤ s.beat.bk + s.beatP + s.beatW
      dsimp only [State.withBeat]
      omega

theorem State.beatInv_takeEdge {s : State} (h : s.beatInv) : s.takeEdge.beatInv := by
  unfold State.takeEdge
  split
  · exact h
  · exact h
  · next hsync =>
    obtain ⟨h1, h2, h3, h4, h5, h6⟩ := h
    exact State.beatInv_acqPlan (s := s.withBeat _) ⟨h1, h2, h3, h4, h5, h6⟩ (h6 (.inr hsync))
  · next hsync =>
    have hcount : (s.countSat BEAT_SYNC_CNT_OUTSIDE).beatInv := by
      refine State.beatInv_of h (State.countSat_active ..) ?_ ?_ ?_ ?_ ?_ <;> rw [State.countSat_beat]
      exact id
    unfold State.trackEdge
    split
    · split
      · exact State.beatInv_lateHit h hsync _ _
      · exact hcount
    · split
      · next hin =>
        simp only [Bool.and_eq_true, decide_eq_true_eq] at hin
        exact State.beatInv_earlyHit h hin.2
      · exact hcount

/-- The turn's own placing, whatever came before it: from the boundary at the present tick (R73, R76). -/
theorem State.beatInv_placed {s : State} (hbk : s.beat.bk = s.beat.tick) (hnom : s.beat.nom = s.beat.tick + s.beatP)
    (hplaced : s.beat.placed = s.beat.tick + s.beatP) : s.beatInv := by
  obtain ⟨-, -, hle, -⟩ := s.effective_le
  unfold State.beatInv
  rw [hbk, hnom, hplaced]
  exact ⟨le_rfl, by omega, by omega, by omega, by omega, fun _ => rfl⟩

/-- The late side's close is no part of the bounds. -/
theorem State.beatInv_turnClose {s : State} (h : s.beatInv) : s.turnClose.beatInv := by
  unfold State.turnClose
  split
  · next w hw =>
    obtain ⟨h1, h2, h3, h4, h5, h6⟩ := h
    exact ⟨h1, h2, h3, h4, h5, fun _ => h6 (.inl (by rw [hw]; exact Option.some_ne_none w))⟩
  · exact h

theorem State.beatInv_beatTurn (s : State) : s.beatTurn.beatInv := by
  unfold State.beatTurn
  extract_lets s0 b pOld wOld was s1 s2 s3 s4 s5 s6 s7 n out _ s8 s9
  have h8 : s8.beatInv := State.beatInv_placed rfl rfl rfl
  refine State.beatInv_turnClose ?_
  unfold s9
  split
  · exact State.beatInv_acqPlan h8 rfl
  · exact h8

/-- Settles O32: the turn places the boundary within the bounds, and every hit, miss and tick keeps it there. -/
theorem beatWithinBounds : Obligations.BeatWithinBounds := by
  unfold Obligations.BeatWithinBounds
  refine ⟨State.beatInv_beatTurn, fun s c h hr hl hc => ?_, fun s h _ hp => ⟨s.idle1, step_of_nil hp, ?_⟩⟩
  · rcases hc with ⟨t, rfl⟩ | rfl | rfl | rfl
    · have he : (s.upToEdge t).beatInv := State.beatInv_timeTo (State.beatInv_closePast h _) t
      refine ⟨_, execSyncEdge_eq s t, ?_⟩
      split
      · exact State.beatInv_takeEdge he
      · exact he
    · cases hw : s.beat.late with
      | none =>
        refine ⟨s, ?_, h⟩
        change execSyncMiss s = _
        rw [execSyncMiss, hw]
      | some w =>
        refine ⟨(s.timeTo w.close).syncMiss, ?_, State.beatInv_syncMiss (State.beatInv_timeTo h _) ?_⟩
        · change execSyncMiss s = _
          rw [execSyncMiss, hw]
        · rw [BeatSt.late_of_still (s.timeTo_still _), hw]
          exact Option.some_ne_none w
    · refine ⟨s.armReacq, rfl, ?_⟩
      unfold State.armReacq
      split
      · exact h
      · exact h
    · refine ⟨s.armLoad, rfl, ?_⟩
      refine State.beatInv_of h ((State.setFlag_active ..).trans (State.withBeat_active ..)) ?_ ?_ ?_ ?_ ?_ <;>
        rw [State.armLoad, State.setFlag_beat, State.withBeat_beat]
      exact id
  · obtain ⟨hb, ha, -⟩ := s.idle1_shows
    obtain ⟨hs, ha', -, htick, -⟩ := s.idleTick_shows
    exact State.beatInv_of_still h (ha.trans ha') (htick.trans_eq (congrArg BeatSt.tick hb.symm)) ((congrArg BeatSt.still hb).trans hs)

end Sys2Proof.Machine
end

section
/-!
SUPPORT. The frames' part of a partition's boundary, the guards and the drains of the seal leave what background work leaves at their depths
(5.7, 3.7, 19.5).
-/
namespace Sys2Proof.Machine

section Part
variable (n : Nat) (s : State)

/-! ### Samples, slots and puts -/

@[simp] theorem State.calm_countSample (c kind t : Nat) : (s.countSample c kind t).calm n = s.calm n := by
  unfold State.countSample
  extract_lets k m w _ first s1
  have h1 : s1.calm n = s.calm n := (State.calm_setFbit n _ _ _ (by decide) (by decide)).trans (State.calm_withTal ..)
  split
  · exact State.calm_withTal ..
  · split
    · exact h1
    · exact (State.calm_logD ..).trans h1

@[simp] theorem State.calm_ringWriteAt (k off : Nat) (d : List Byte) : (s.ringWriteAt k off d).calm n = s.calm n := by
  rw [State.ringWriteAt_eq]
  exact State.calm_physWrite ..

@[simp] theorem State.calm_releaseSlot (k : Nat) : (s.releaseSlot k).calm n = s.calm n :=
  (State.calm_ringWriteAt ..).trans (State.calm_setSlot ..)

@[simp] theorem State.calm_putNoRoute (r : RemPut) : (s.putNoRoute r).calm n = s.calm n := by simp [State.putNoRoute]

@[simp] theorem State.calm_askRemote (r : RemPut) : (s.askRemote r).calm n = s.calm n := by
  unfold State.askRemote
  split <;> simp

@[simp] theorem State.calm_chkPick (l : List Nat) : (s.chkPick l).2.calm n = s.calm n := by
  unfold State.chkPick
  split <;> simp

theorem State.calm_chkRun {k : Nat} (hk : k < 16) (d : List Byte) : (s.chkRun k d).2.calm n = s.calm n := by
  have h0 : kept (0xb0104 + 0x20 * k) = false := kept_block (by omega) (by omega)
  have h1 : kept (0xb0104 + 0x20 * k + 4) = false := kept_block (by omega) (by omega)
  have h2 : kept (0xb0110 + 0x20 * k) = false := kept_block (by omega) (by omega)
  have h3 : kept (0xb0110 + 0x20 * k + 4) = false := kept_block (by omega) (by omega)
  exact (State.calm_setFld n _ _ h2 h3).trans (State.calm_countUp n s h0 h1)

/-- The context that acts is one of those bound. -/
theorem State.mem_of_chkPick {l : List Nat} {k : Nat} (h : (s.chkPick l).1 = some k) : k ∈ l := by
  unfold State.chkPick at h
  split at h
  · cases h
  · obtain rfl := Option.some.inj h
    exact List.mem_cons_self
  · obtain rfl := Option.some.inj h
    exact List.mem_cons_self

@[simp] theorem State.calm_sendPut (p chip part : Nat) (h : FrameHdr) (d : List Byte) : (s.sendPut p chip part h d).calm n = s.calm n := by
  unfold State.sendPut
  split
  · simp
  · extract_lets r cid t
    have ht : t.calm n = s.calm n := (State.calm_trvUse ..).trans (State.calm_chkPick ..)
    split
    · next k hk =>
      have hk16 : k < 16 := List.mem_range.1 (List.mem_of_mem_filter (s.mem_of_chkPick hk))
      exact ((State.calm_send ..).trans (State.calm_chkRun n t hk16 _)).trans ht
    · exact (State.calm_send ..).trans ht

@[simp] theorem State.calm_putRelease (p : Nat) (h : FrameHdr) : (s.putRelease p h).calm n = s.calm n := by
  unfold State.putRelease
  exact State.calm_sendPut ..

/-! ### Frames at a boundary -/

@[simp] theorem State.calm_countCarried (p f : Nat) : (s.countCarried p f).calm (n + 1) = s.calm (n + 1) := by
  unfold State.countCarried
  extract_lets x h
  split <;> simp

@[simp] theorem State.calm_freeAcked (p : Nat) : (s.freeAcked p).calm (n + 1) = s.calm (n + 1) :=
  (State.calm_letIn ..).trans (State.calm_setPlat ..)

@[simp] theorem State.calm_releaseTurn (p : Nat) : (s.releaseTurn p).calm (n + 1) = s.calm (n + 1) := by
  unfold State.releaseTurn
  extract_lets rel r
  split
  · refine (State.calm_letIn ..).trans (State.calm_foldl _ _ (fun t f _ => ?_) _)
    extract_lets k t1
    have h1 : t1.calm (n + 1) = t.calm (n + 1) := (State.calm_setFrame ..).trans (State.calm_countCarried ..)
    split
    · exact h1
    · exact (State.calm_releaseSlot ..).trans h1
  · split
    · exact State.calm_foldl _ _ (fun t f _ => (State.calm_putRelease ..).trans (State.calm_setFrame ..)) _
    · rfl

@[simp] theorem State.calm_drainTurn (p : Nat) (first : Bool) : (s.drainTurn p first).calm (n + 1) = s.calm (n + 1) := by
  unfold State.drainTurn
  extract_lets pl s1 live
  have h1 : s1.calm (n + 1) = s.calm (n + 1) := (State.calm_letIn ..).trans (State.calm_setPlat ..)
  split
  · exact ((State.calm_logD ..).trans (State.calm_foldl _ _ (fun t k _ => State.calm_releaseSlot _ t k) _)).trans h1
  · exact h1

@[simp] theorem State.calm_untakeAll (p : Nat) : (s.untakeAll p).calm (n + 1) = s.calm (n + 1) := State.calm_setPlat ..

/-! ### The guards -/

theorem State.calm_wmMessage (w : WmFlds) : (s.wmMessage w).calm n = s.calm n := by
  unfold State.wmMessage
  split <;> simp

theorem State.calm_guardSet {c : Nat} (hc : c < 8) (x : Option Bool) : (s.guardSet c x).calm n = s.calm n := by
  have h0 : kept (0x50108 + 0x10 * c) = false := kept_block (by omega) (by omega)
  have h4 : kept (0x50108 + 0x10 * c + 4) = false := kept_block (by omega) (by omega)
  have hm : c % 8 = c := Nat.mod_eq_of_lt hc
  unfold State.guardSet
  extract_lets w
  have hup : (s.wmUp w).calm n = s.calm n := by
    unfold State.wmUp
    extract_lets s1
    have h1 : s1.calm n = s.calm n := by simp [s1, w, wmFlds, hm, h0, h4]
    split
    · exact (State.calm_wmMessage ..).trans h1
    · exact h1
  have hdown : (s.wmDown w).calm n = s.calm n := by simp [State.wmDown, w, wmFlds, hm, h0, h4]
  split
  · split
    · rfl
    · exact hup
  · split
    · exact hdown
    · rfl
  · rfl

theorem State.calm_guardEval {c : Nat} (hc : c < 8) : (s.guardEval c).calm n = s.calm n := by
  have h0 : kept (0x5010c + 0x10 * c) = false := kept_block (by omega) (by omega)
  have h4 : kept (0x5010c + 0x10 * c + 4) = false := kept_block (by omega) (by omega)
  rw [State.guardEval_eq]
  exact (State.calm_guardSet n _ hc _).trans (by simp [State.guardShown, h0, h4])

@[simp] theorem State.calm_guardTurn : s.guardTurn.calm n = s.calm n :=
  (State.calm_foldl _ _ (fun t _ hc => State.calm_guardEval n t (List.mem_range.1 hc)) _).trans (State.calm_withTal ..)

/-! ### The drains of the seal -/

@[simp] theorem State.calm_drainAll : s.drainAll.calm n = s.calm n :=
  State.calm_foldl _ _ (fun t p _ => by simp) s

end Part

end Sys2Proof.Machine
end

section
/-!
SUPPORT. A partition's own part of a boundary: which registers and clusters it works on (R322, R350, R355, R357, R384, R437).
-/
namespace Sys2Proof.Machine

/-! ### Work on some registers and clusters -/

/-- Work on the registers of `W` and the clusters of the partitions of `C` alone, no partition's power state among them. -/
structure State.Leaves (W C : Nat → Prop) (s t : State) : Prop where
  beat : t.beat = s.beat
  active : t.active = s.active
  adm : t.adm = s.adm
  boot : t.boot = s.boot
  fuses : t.fuses = s.fuses
  plats : t.plats = s.plats
  clu : ∀ p c, c < 20 → ¬C p → t.clu p c = s.clu p c
  word : ∀ a, ¬W a → t.word a = s.word a
  state : ∀ p ≤ 8, t.fld (PWR_PSTATE_STATE p) = s.fld (PWR_PSTATE_STATE p)

namespace State.Leaves

variable {W C : Nat → Prop} {s t u : State}

theorem refl (W C : Nat → Prop) (s : State) : State.Leaves W C s s :=
  ⟨rfl, rfl, rfl, rfl, rfl, rfl, fun _ _ _ _ => rfl, fun _ _ => rfl, fun _ _ => rfl⟩

theorem trans (h1 : State.Leaves W C s t) (h2 : State.Leaves W C t u) : State.Leaves W C s u where
  beat := h2.beat.trans h1.beat
  active := h2.active.trans h1.active
  adm := h2.adm.trans h1.adm
  boot := h2.boot.trans h1.boot
  fuses := h2.fuses.trans h1.fuses
  plats := h2.plats.trans h1.plats
  clu p c hc hp := (h2.clu p c hc hp).trans (h1.clu p c hc hp)
  word a ha := (h2.word a ha).trans (h1.word a ha)
  state p hp := (h2.state p hp).trans (h1.state p hp)

theorem mono {W' C' : Nat → Prop} (h : State.Leaves W C s t) (hW : ∀ a, W a → W' a) (hC : ∀ p, C p → C' p) : State.Leaves W' C' s t :=
  ⟨h.beat, h.active, h.adm, h.boot, h.fuses, h.plats, fun p c hc hp => h.clu p c hc fun hq => hp (hC p hq),
    fun a ha => h.word a fun hq => ha (hW a hq), h.state⟩

/-- Of a field that lies outside. -/
theorem fld (h : State.Leaves W C s t) (f : Fld) (h0 : ¬W f.addr) (h4 : ¬W (f.addr + 4)) : t.fld f = s.fld f :=
  State.fld_of_words f (h.word _ h0) (h.word _ h4)

/-- Writing a field of a register of `W` that is no partition's power state. -/
theorem setFld (s : State) (f : Fld) (v : Nat) (hw : f.lo + f.w ≤ 32) (hW : W f.addr) (hs : ∀ p ≤ 8, f.addr ≠ 0x30200 + 0x10 * p ∨ 2 ≤ f.lo) :
    State.Leaves W C s (s.setFld f v) where
  beat := State.setFld_beat ..
  active := State.setFld_active ..
  adm := State.setFld_adm ..
  boot := State.setFld_boot ..
  fuses := State.setFld_fuses ..
  plats := State.setFld_plats ..
  clu p c _ _ := by rw [State.clu, State.setFld_clus, State.clu]
  word a ha := State.word_setFld_ne _ _ _ _ ⟨fun e => ha (e ▸ hW), .inl hw⟩
  state p hp := State.fld_setFld_apart _ _ _ _ hw (by simp) (by
    rcases hs p hp with h | h
    · exact .inl h.symm
    · exact .inr (.inl h))

theorem setClu (s : State) {p c : Nat} (x : Cluster) (hc : c < 20) (hp : C p) : State.Leaves W C s (s.setClu p c x) where
  beat := rfl
  active := rfl
  adm := rfl
  boot := rfl
  fuses := rfl
  plats := rfl
  clu q d hd hq := State.clu_setClu_ne s p c q d x hc hd (.inl fun e => hq (e ▸ hp))
  word _ _ := rfl
  state _ _ := rfl

theorem setPpwr (s : State) (p : Nat) (x : PartPwr) : State.Leaves W C s (s.setPpwr p x) :=
  ⟨rfl, rfl, rfl, rfl, rfl, rfl, fun _ _ _ _ => rfl, fun _ _ => rfl, fun _ _ => rfl⟩

theorem foldl {α : Type} (f : State → α → State) (l : List α) (hf : ∀ s, ∀ x ∈ l, State.Leaves W C s (f s x)) (s : State) :
    State.Leaves W C s (l.foldl f s) := by
  induction l generalizing s with
  | nil => exact refl W C s
  | cons x l ih => exact (hf s x List.mem_cons_self).trans (ih (fun s y hy => hf s y (List.mem_cons_of_mem _ hy)) _)

end State.Leaves

/-! ### Clusters -/

/-- A change of every cluster of a partition works on these alone. -/
theorem State.leaves_mapClus (s : State) (p : Nat) (f : Cluster → Cluster) :
    State.Leaves (fun _ => False) (fun q => q = p) s (s.mapClus p f) :=
  State.Leaves.foldl (fun t c => t.setClu p c (f (t.clu p c))) _
    (fun t _ hc => State.Leaves.setClu (C := fun q => q = p) t _ (List.mem_range.1 hc) rfl) s

/-- Each cluster is changed once. -/
theorem State.clu_mapClus (s : State) (p : Nat) (f : Cluster → Cluster) {c : Nat} (hc : c < 20) :
    (s.mapClus p f).clu p c = f (s.clu p c) := by
  have key : ∀ m ≤ 20, ∀ c < 20, ((List.range m).foldl (fun t c => t.setClu p c (f (t.clu p c))) s).clu p c =
      if c < m then f (s.clu p c) else s.clu p c := by
    intro m
    induction m with
    | zero => simp
    | succ m ih =>
      intro hm c hc
      rw [List.range_succ, List.foldl_append, List.foldl_cons, List.foldl_nil]
      by_cases h : c = m
      · subst h
        rw [State.clu_setClu_same, ih (by omega) c hc, if_neg (by omega), if_pos (by omega)]
      · rw [State.clu_setClu_ne _ _ _ _ _ _ (by omega) hc (.inr h), ih (by omega) c hc]
        exact if_congr (by omega) rfl rfl
  exact (key 20 le_rfl c hc).trans (if_pos hc)

/-- A cluster of partition `p` as it starts (R384). -/
def State.started (s : State) (p : Nat) (k : Cluster) : Cluster :=
  { k.cleared with
    pc := BitVec.ofNat 64 (2 * s.fld (PCTL_PROG_ENTRY p)), running := true, tctxEn := true
    tctxCid := BitVec.ofNat 12 (s.fld (PCTL_TENANT_CID p)), cycle0 := s.pclkOf p }

/-- A start of one cluster, where the registers and the partition's clock are those of `s`. -/
theorem State.cluStart_eq {s t : State} (hr : t.regs = s.regs) (hp : t.pwr = s.pwr) (p c : Nat) :
    t.cluStart p c = t.setClu p c (s.started p (t.clu p c)) := by
  have hc : t.pclkOf p = s.pclkOf p := by rw [State.pclkOf, State.ppwr, hp, State.pclkOf, State.ppwr]
  rw [State.cluStart, State.started, State.fld_of_regs hr, State.fld_of_regs hr, hc]

theorem State.foldl_cluStart {s : State} (p : Nat) (l : List Nat) {t : State} (hr : t.regs = s.regs) (hp : t.pwr = s.pwr) :
    l.foldl (fun t c => t.cluStart p c) t = l.foldl (fun t c => t.setClu p c (s.started p (t.clu p c))) t := by
  induction l generalizing t with
  | nil => rw [List.foldl_nil, List.foldl_nil]
  | cons c l ih =>
    rw [List.foldl_cons, List.foldl_cons, State.cluStart_eq hr hp]
    exact ih ((State.setClu_regs ..).trans hr) ((State.setClu_pwr ..).trans hp)

/-- Starting every cluster of a partition changes each into a started one. -/
theorem State.cluStartAll_eq (s : State) (p : Nat) : s.cluStartAll p = s.mapClus p (s.started p) :=
  State.foldl_cluStart p _ rfl rfl

/-! ### Registers -/

/-- The registers that the step and the power state of a partition write at a boundary: the steps of its clock, its power state's request
and the regulators' status (R355, R357). -/
def powerWord (q a : Nat) : Prop := a = 0x10140 + 0x4 * q ∨ a = 0x30200 + 0x10 * q ∨ a = 0x700b0

section Turn
variable (s : State) {p : Nat} (hp : p < 8)
include hp

theorem State.leaves_clkWord {lo w : Nat} (v : Nat) (hw : lo + w ≤ 32) :
    State.Leaves (powerWord p) (fun _ => False) s (s.setFld ⟨0x10140 + 0x4 * p, lo, w⟩ v) :=
  State.Leaves.setFld s _ v hw (.inl rfl) fun q _ => .inl (by simp only; omega)

omit hp in
theorem State.leaves_pstateWord {lo w : Nat} (v : Nat) (hw : lo + w ≤ 32) (hl : 2 ≤ lo) :
    State.Leaves (powerWord p) (fun _ => False) s (s.setFld ⟨0x30200 + 0x10 * p, lo, w⟩ v) :=
  State.Leaves.setFld s _ v hw (.inr (.inl rfl)) fun _ _ => .inr hl

omit hp in
theorem State.leaves_avsWord {lo w : Nat} (v : Nat) (hw : lo + w ≤ 32) :
    State.Leaves (powerWord p) (fun _ => False) s (s.setFld ⟨0x700b0, lo, w⟩ v) :=
  State.Leaves.setFld s _ v hw (.inr (.inr rfl)) fun q _ => .inl (by simp only; omega)

omit hp in
theorem State.leaves_lossWord {lo w : Nat} (v : Nat) (hw : lo + w ≤ 32) :
    State.Leaves (fun a => a = partBase p + 0x50) (fun _ => False) s (s.setFld ⟨partBase p + 0x50, lo, w⟩ v) :=
  State.Leaves.setFld s _ v hw rfl fun q _ => .inl (by simp only [partBase]; omega)

omit hp in
theorem State.leaves_wakeEvent : State.Leaves (powerWord p) (fun _ => False) s (s.wakeEvent p) := by
  unfold State.wakeEvent
  extract_lets x
  split
  · exact .refl ..
  · split
    · exact .setPpwr ..
    · split
      · exact .refl ..
      · exact s.leaves_pstateWord 1 (by decide) (by decide)

omit hp in
theorem State.leaves_avsCommand (c : Nat) : State.Leaves (powerWord p) (fun _ => False) s (s.avsCommand p c) :=
  ((State.Leaves.setPpwr s p _).trans (State.leaves_avsWord (lo := 8) (w := 8) _ _ (by decide))).trans
    (State.leaves_avsWord (lo := 0) (w := 8) _ _ (by decide))

theorem State.leaves_stepFaster (e : Nat) : State.Leaves (powerWord p) (fun _ => False) s (s.stepFaster p e) := by
  unfold State.stepFaster
  split
  · exact s.leaves_clkWord hp _ (by decide)
  · extract_lets s1 x
    have h1 : State.Leaves (powerWord p) (fun _ => False) s s1 := s.leaves_clkWord hp _ (by decide)
    split
    · exact h1
    · exact h1.trans (s1.leaves_avsCommand e)

theorem State.leaves_stepTurn : State.Leaves (powerWord p) (fun _ => False) s (s.stepTurn p) := by
  unfold State.stepTurn
  extract_lets e cur s1 s2
  have h1 : State.Leaves (powerWord p) (fun _ => False) s s1 := s.leaves_pstateWord _ (by decide) (by decide)
  have h2 : State.Leaves (powerWord p) (fun _ => False) s s2 := h1.trans (s1.leaves_stepFaster hp e)
  split
  · exact h1
  · split
    · exact h1.trans (s1.leaves_clkWord hp _ (by decide))
    · split
      · exact (h1.trans (s1.leaves_clkWord hp _ (by decide))).trans (State.leaves_clkWord _ hp _ (by decide))
      · split
        · split
          · exact h2.trans (s2.leaves_clkWord hp _ (by decide))
          · exact h2
        · exact h2

omit hp in
theorem State.leaves_powerTurn : State.Leaves (powerWord p) (fun _ => False) s (s.powerTurn p) := by
  unfold State.powerTurn
  extract_lets s1
  have h1 : State.Leaves (powerWord p) (fun _ => False) s s1 := s.leaves_pstateWord _ (by decide) (by decide)
  split
  · exact h1
  · split
    · exact h1.trans s1.leaves_wakeEvent
    · exact h1

omit hp in
theorem State.leaves_lossTurn : State.Leaves (fun a => a = partBase p + 0x50) (fun _ => False) s (s.lossTurn p) := by
  unfold State.lossTurn
  extract_lets w s1 s2 s3
  have hflag : ∀ (t : State) (lo : Nat), lo < 32 → ∀ P : Prop, ∀ _ : Decidable P,
      State.Leaves (fun a => a = partBase p + 0x50) (fun _ => False) t (if P then t.setFlag ⟨partBase p + 0x50, lo, 1⟩ true else t) := by
    intro t lo hlo P _
    split
    · exact t.leaves_lossWord _ (by omega)
    · exact .refl ..
  have h1 : State.Leaves (fun a => a = partBase p + 0x50) (fun _ => False) s s1 := s.leaves_lossWord _ (by decide)
  exact ((h1.trans (hflag s1 4 (by decide) _ _)).trans (hflag s2 5 (by decide) _ _)).trans (hflag s3 6 (by decide) _ _)

end Turn

/-- PCTL_LOSS_SEEN shows the controls active at the boundary (R322). -/
theorem State.lossTurn_shows (s : State) (p : Nat) :
    (s.act (PCTL_NUM_FTZ_IN p) = 1 → (s.lossTurn p).flag (PCTL_LOSS_SEEN_FTZ_IN p) = true) ∧
    (s.act (PCTL_NUM_SATFP8 p) = 1 → (s.lossTurn p).flag (PCTL_LOSS_SEEN_SATFP8 p) = true) := by
  unfold State.lossTurn
  extract_lets w s1 s2 s3
  have hact : ∀ (P : Prop) [Decidable P] (t : State) (f g : Fld), (if P then t.setFlag g true else t).act f = t.act f := by
    intro P _ t f g
    split
    · rw [State.act, State.setFlag_active, State.act]
    · rfl
  have hkeep : ∀ (P : Prop) [Decidable P] (t : State) (lo : Nat), 4 < lo → lo < 32 →
      t.flag (PCTL_LOSS_SEEN_FTZ_IN p) = true →
        (if P then t.setFlag ⟨partBase p + 0x50, lo, 1⟩ true else t).flag (PCTL_LOSS_SEEN_FTZ_IN p) = true := by
    intro P _ t lo h4 h32 h
    split
    · rw [State.flag_setFlag_apart _ _ _ _ (by simp only; omega) (by simp) (by simp only; omega), h]
    · exact h
  have h1 : s1.active = s.active := State.setFld_active ..
  have h3 : s3.act (PCTL_NUM_SATFP8 p) = s.act (PCTL_NUM_SATFP8 p) := by
    rw [hact, hact, State.act, h1, State.act]
  have h2 : s1.act (PCTL_NUM_FTZ_IN p) = s.act (PCTL_NUM_FTZ_IN p) := by rw [State.act, h1, State.act]
  refine ⟨fun h => ?_, fun h => ?_⟩
  · refine hkeep _ _ 6 (by decide) (by decide) (hkeep _ _ 5 (by decide) (by decide) ?_)
    rw [show s2 = s1.setFlag (PCTL_LOSS_SEEN_FTZ_IN p) true from if_pos (h2.trans h)]
    exact State.flag_setFlag_same _ _ _ (by simp) rfl
  · rw [if_pos (h3.trans h)]
    exact State.flag_setFlag_same _ _ _ (by simp) rfl

end Sys2Proof.Machine
end

section
/-!
SUPPORT. The partitions at RUN: what a partition's start and its part of boundary 0 leave of the device and of the other partitions, and
what they show of their own (R322, R353, R384).
-/
namespace Sys2Proof.Machine

/-! ### A partition's part of a boundary -/

/-- Work of partition `q`: on its own clusters, its loss record, RUNNING, steps and power request, and in the background. -/
structure State.Own (q : Nat) (s t : State) : Prop where
  beat : t.beat = s.beat
  active : t.active = s.active
  adm : t.adm = s.adm
  boot : t.boot = s.boot
  fuses : t.fuses = s.fuses
  clu : ∀ p c, c < 20 → p ≠ q → t.clu p c = s.clu p c
  word : ∀ a, kept a = true → ¬powerWord q a → a ≠ partBase q + 0x40 → a ≠ partBase q + 0x50 → t.word a = s.word a
  state : ∀ p ≤ 8, t.fld (PWR_PSTATE_STATE p) = s.fld (PWR_PSTATE_STATE p)

namespace State.Own

variable {q : Nat} {s t u : State}

theorem refl (q : Nat) (s : State) : State.Own q s s :=
  ⟨rfl, rfl, rfl, rfl, rfl, fun _ _ _ _ => rfl, fun _ _ _ _ _ => rfl, fun _ _ => rfl⟩

theorem trans (h1 : State.Own q s t) (h2 : State.Own q t u) : State.Own q s u where
  beat := h2.beat.trans h1.beat
  active := h2.active.trans h1.active
  adm := h2.adm.trans h1.adm
  boot := h2.boot.trans h1.boot
  fuses := h2.fuses.trans h1.fuses
  clu p c hc hp := (h2.clu p c hc hp).trans (h1.clu p c hc hp)
  word a hk hp hr hl := (h2.word a hk hp hr hl).trans (h1.word a hk hp hr hl)
  state p hp := (h2.state p hp).trans (h1.state p hp)

/-- Background work. -/
theorem of_calm (h : t.calm 1 = s.calm 1) : State.Own q s t where
  beat := State.beat_of_calm h
  active := State.active_of_calm h
  adm := State.adm_of_calm h
  boot := State.boot_of_calm h
  fuses := State.fuses_of_calm h
  clu p c _ _ := by rw [State.clu, State.clus_of_calm h le_rfl, State.clu]
  word a hk _ _ _ := State.word_of_calm h le_rfl hk
  state p hp := State.fld_of_calm h le_rfl _ (by simp only [kept]; simp; omega) (by simp only [kept]; simp; omega)

theorem of_leaves {W C : Nat → Prop} (h : State.Leaves W C s t)
    (hW : ∀ a, W a → powerWord q a ∨ a = partBase q + 0x40 ∨ a = partBase q + 0x50) (hC : ∀ p, C p → p = q) : State.Own q s t where
  beat := h.beat
  active := h.active
  adm := h.adm
  boot := h.boot
  fuses := h.fuses
  clu p c hc hp := h.clu p c hc fun hq => hp (hC p hq)
  word a _ hp hr hl := h.word a fun ha => (hW a ha).elim hp fun h => h.elim hr hl
  state := h.state

end State.Own

section Own
variable (s : State) (p : Nat)

theorem State.own_mapClus (f : Cluster → Cluster) : State.Own p s (s.mapClus p f) :=
  .of_leaves (s.leaves_mapClus p f) (fun _ h => h.elim) fun _ h => h

theorem State.own_running (b : Bool) : State.Own p s (s.setFlag (PCTL_STS_RUNNING p) b) :=
  .of_leaves (State.Leaves.setFld (W := fun a => a = partBase p + 0x40) (C := fun _ => False) s _ _ (by simp) rfl
    fun q _ => .inl (by simp only [partBase]; omega)) (fun _ h => .inr (.inl h)) fun _ h => h.elim

theorem State.own_power {t : State} (h : State.Leaves (powerWord p) (fun _ => False) s t) : State.Own p s t :=
  .of_leaves h (fun _ h => .inl h) fun _ h => h.elim

theorem State.own_cmdTurn (was : Nat) : State.Own p s (s.cmdTurn p was) := by
  unfold State.cmdTurn
  split
  · exact .refl ..
  · split
    · unfold State.runPart
      split
      · extract_lets s1
        have h1 : State.Own p s s1 := (s.own_mapClus p _).trans (.of_calm (State.calm_untakeAll 0 ..))
        split
        · rw [State.cluStartAll_eq]
          exact (h1.trans (State.own_mapClus ..)).trans (State.own_running ..)
        · exact h1
      · split
        · exact s.own_mapClus p _
        · exact .refl ..
    · refine State.Own.trans ?_ (.of_calm (State.calm_drainTurn 0 ..))
      split
      · exact s.own_mapClus p _
      · exact .refl ..
    · exact s.own_mapClus p _
    · exact (s.own_mapClus p _).trans (State.own_running ..)

theorem State.own_lossTurn : State.Own p s (s.lossTurn p) :=
  .of_leaves s.leaves_lossTurn (fun _ h => .inr (.inr h)) fun _ h => h.elim

/-- What comes before the loss record: frames, PCTL_CMD's condition, RELEASE frames. -/
def State.preTurn (was : Nat) : State := ((s.freeAcked p).cmdTurn p was).releaseTurn p

/-- What comes after it: the end of WFB, the step and the power state. -/
def State.postTurn : State := ((s.mapClus p (fun k => { k with wfb := false })).stepTurn p).powerTurn p

theorem State.partTurn_eq (was : Nat) : s.partTurn p was = ((s.preTurn p was).lossTurn p).postTurn p := rfl

theorem State.own_preTurn (was : Nat) : State.Own p s (s.preTurn p was) :=
  ((State.Own.of_calm (State.calm_freeAcked 0 ..)).trans (State.own_cmdTurn ..)).trans (.of_calm (State.calm_releaseTurn 0 ..))

theorem State.own_postTurn (hp : p < 8) : State.Own p s (s.postTurn p) :=
  ((s.own_mapClus p _).trans (State.own_power _ _ (State.leaves_stepTurn _ hp))).trans
    (State.own_power _ _ (State.leaves_powerTurn _))

theorem State.own_partTurn (hp : p < 8) (was : Nat) : State.Own p s (s.partTurn p was) := by
  rw [State.partTurn_eq]
  exact ((s.own_preTurn p was).trans (State.own_lossTurn ..)).trans (State.own_postTurn _ _ hp)

end Own

/-! ### What the others leave -/

/-- Registers of the device and of partition `p` at RUN: Headframe's, the beat's, and the partition's PCTL block. -/
def near (p a : Nat) : Prop := a < 0x10000 ∨ (0x20000 ≤ a ∧ a < 0x30000) ∨ (partBase p ≤ a ∧ a < partBase p + 0x4000)

/-- The device and partition `p` are as they were; for a number that no partition has, the device alone. -/
structure State.Same (p : Nat) (s t : State) : Prop where
  beat : t.beat = s.beat
  active : t.active = s.active
  adm : t.adm = s.adm
  boot : t.boot = s.boot
  fuses : t.fuses = s.fuses
  clu : ∀ c, c < 20 → t.clu p c = s.clu p c
  word : ∀ a, near p a → t.word a = s.word a
  state : t.fld (PWR_PSTATE_STATE p) = s.fld (PWR_PSTATE_STATE p)

namespace State.Same

variable {p q : Nat} {s t u : State}

theorem refl (p : Nat) (s : State) : State.Same p s s := ⟨rfl, rfl, rfl, rfl, rfl, fun _ _ => rfl, fun _ _ => rfl, rfl⟩

theorem trans (h1 : State.Same p s t) (h2 : State.Same p t u) : State.Same p s u where
  beat := h2.beat.trans h1.beat
  active := h2.active.trans h1.active
  adm := h2.adm.trans h1.adm
  boot := h2.boot.trans h1.boot
  fuses := h2.fuses.trans h1.fuses
  clu c hc := (h2.clu c hc).trans (h1.clu c hc)
  word a ha := (h2.word a ha).trans (h1.word a ha)
  state := h2.state.trans h1.state

theorem fld (h : State.Same p s t) (f : Fld) (h0 : near p f.addr) (h4 : near p (f.addr + 4)) : t.fld f = s.fld f :=
  State.fld_of_words f (h.word _ h0) (h.word _ h4)

theorem flag (h : State.Same p s t) (f : Fld) (h0 : near p f.addr) (h4 : near p (f.addr + 4)) : t.flag f = s.flag f := by
  rw [State.flag, h.fld f h0 h4, State.flag]

theorem act (h : State.Same p s t) (f : Fld) : t.act f = s.act f := by rw [State.act, State.act, h.active]

/-- Another partition's work. -/
theorem of_own (h : State.Own q s t) (hp : p ≤ 8) (hq : q < 8) (hpq : q ≠ p) : State.Same p s t where
  beat := h.beat
  active := h.active
  adm := h.adm
  boot := h.boot
  fuses := h.fuses
  clu c hc := h.clu p c hc (Ne.symm hpq)
  word a ha := by
    unfold near partBase at ha
    refine h.word a ?_ ?_ ?_ ?_
    · simp only [kept, Bool.or_eq_true, Bool.and_eq_true, decide_eq_true_eq]
      omega
    · unfold powerWord
      omega
    · unfold partBase
      omega
    · unfold partBase
      omega
  state := h.state p hp

theorem of_calm (h : t.calm 1 = s.calm 1) (hp : p ≤ 8) : State.Same p s t where
  beat := State.beat_of_calm h
  active := State.active_of_calm h
  adm := State.adm_of_calm h
  boot := State.boot_of_calm h
  fuses := State.fuses_of_calm h
  clu c _ := by rw [State.clu, State.clus_of_calm h le_rfl, State.clu]
  word a ha := State.word_of_calm h le_rfl (by
    unfold near partBase at ha
    simp only [kept, Bool.or_eq_true, Bool.and_eq_true, decide_eq_true_eq]
    omega)
  state := (State.Own.of_calm (q := 0) h).state p hp

end State.Same

/-- An OFF partition's state and stack are its own. -/
theorem State.same_holdOff (s : State) {p q : Nat} (hp : p ≤ 8) (hq : q < 8) (hpq : q ≠ p) : State.Same p s (s.holdOff q) := by
  unfold State.holdOff
  split
  · refine State.Same.trans (t := s.setFld (PWR_PSTATE_STATE q) 3) ?_ (.of_calm (State.calm_setFlag 1 _ true (by simp) (by simp)) hp)
    refine ⟨State.setFld_beat .., State.setFld_active .., State.setFld_adm .., State.setFld_boot .., State.setFld_fuses ..,
      fun c _ => ?_, fun a ha => ?_, ?_⟩
    · rw [State.clu, State.setFld_clus, State.clu]
    · refine State.word_setFld_ne _ _ _ _ ⟨?_, .inl (by simp)⟩
      unfold near partBase at ha
      simp only
      omega
    · exact State.fld_setFld_apart _ _ _ _ (by simp) (by simp) (.inl (by simp only; omega))
  · exact .refl ..

theorem State.same_startPart (s : State) {p q : Nat} (hp : p ≤ 8) (hq : q < 8) (hpq : q ≠ p) : State.Same p s (s.startPart q) := by
  unfold State.startPart
  split
  · rw [State.cluStartAll_eq]
    exact .of_own ((s.own_mapClus q _).trans (State.own_running ..)) hp hq hpq
  · exact s.same_holdOff hp hq hpq

theorem State.same_partTurn (s : State) (was : Nat) {p q : Nat} (hp : p ≤ 8) (hq : q < 8) (hpq : q ≠ p) :
    State.Same p s (s.partTurn q was) := .of_own (s.own_partTurn q hq was) hp hq hpq

section Fold
variable {p : Nat} {f : State → Nat → State} (hf : ∀ s, ∀ q < 8, q ≠ p → State.Same p s (f s q))
include hf

theorem State.same_foldl (l : List Nat) (hl : ∀ q ∈ l, q < 8 ∧ q ≠ p) (s : State) : State.Same p s (l.foldl f s) := by
  induction l generalizing s with
  | nil => exact .refl p s
  | cons q l ih =>
    obtain ⟨hq, hpq⟩ := hl q List.mem_cons_self
    exact (hf s q hq hpq).trans (ih (fun x hx => hl x (List.mem_cons_of_mem _ hx)) _)

/-- Of work on all eight partitions, the device and partition `p` see the work on `p`. -/
theorem State.same_foldl_range (hp : p < 8) (s : State) :
    ∃ u, State.Same p s u ∧ State.Same p (f u p) ((List.range 8).foldl f s) := by
  obtain ⟨l, r, h⟩ := List.append_of_mem (List.mem_range.2 hp)
  have hn : (l ++ p :: r).Nodup := h ▸ List.nodup_range
  have hlt : ∀ q ∈ l ++ p :: r, q < 8 := fun q hq => List.mem_range.1 (h ▸ hq)
  obtain ⟨-, hr, hd⟩ := List.nodup_append'.1 hn
  rw [h, List.foldl_append, List.foldl_cons]
  refine ⟨l.foldl f s, State.same_foldl hf l (fun q hq => ⟨hlt q (by simp [hq]), ?_⟩) s,
    State.same_foldl hf r (fun q hq => ⟨hlt q (by simp [hq]), ?_⟩) _⟩
  · rintro rfl
    exact hd hq List.mem_cons_self
  · rintro rfl
    exact (List.nodup_cons.1 hr).1 hq

end Fold

/-! ### What a partition shows of its own -/

/-- A cluster runs in Monitor from entry `e`, in the tenant's context (R384). -/
def Cluster.AtEntry (e : Nat) (k : Cluster) : Prop :=
  k.running = true ∧ k.mon = true ∧ k.inReset = false ∧ k.tctxEn = true ∧ k.pc = BitVec.ofNat 64 (2 * e)

/-- Partition `p` runs from entry `e`. -/
structure State.Runs (p e : Nat) (s : State) : Prop where
  flag : s.flag (PCTL_STS_RUNNING p) = true
  clu : ∀ c, c < 20 → (s.clu p c).AtEntry e

theorem near_pctl (p : Nat) {o : Nat} (h : o < 0x4000) : near p (partBase p + o) := .inr (.inr ⟨by omega, by omega⟩)

theorem near_pctl_add (p : Nat) {o i : Nat} (h : o + i < 0x4000) : near p (partBase p + o + i) := .inr (.inr ⟨by omega, by omega⟩)

theorem State.Runs.of_same {p e : Nat} {s t : State} (h : State.Runs p e s) (hs : State.Same p s t) : State.Runs p e t where
  flag := by rw [hs.flag _ (near_pctl p (by decide)) (near_pctl_add p (by decide)), h.flag]
  clu c hc := by rw [hs.clu c hc]; exact h.clu c hc

/-- A partition starts at RUN. -/
theorem State.runs_startPart {s : State} {p : Nat} (h : s.runsClusters p = true) :
    State.Runs p (s.fld (PCTL_PROG_ENTRY p)) (s.startPart p) := by
  unfold State.startPart
  rw [if_pos h, State.cluStartAll_eq]
  refine ⟨State.flag_setFlag_same _ _ _ (by simp) rfl, fun c hc => ?_⟩
  rw [State.clu, State.setFlag_clus, ← State.clu, State.clu_mapClus s p _ hc]
  exact ⟨rfl, rfl, rfl, rfl, rfl⟩

/-- RUN changes nothing of a partition that no RESET holds. -/
theorem State.cmdTurn_of_run {s : State} {p : Nat} (hcmd : s.act (PCTL_CMD_CMD p) = 0)
    (hr : ∀ c, c < 20 → (s.clu p c).inReset = false) : s.cmdTurn p 0 = s := by
  have hin : s.partInReset p = false := by
    simp only [State.partInReset, List.any_eq_false, List.mem_range]
    exact fun c hc => by simp [hr c hc]
  unfold State.cmdTurn
  split
  · rfl
  · simp only [hcmd]
    unfold State.runPart
    rw [hin]
    rfl

/-- What the end of WFB and the step and power state leave of a partition's PCTL registers. -/
theorem State.flag_postTurn (s : State) {p : Nat} (hp : p < 8) {o lo w : Nat} (ho : o < 0x4000) :
    (s.postTurn p).flag ⟨partBase p + o, lo, w⟩ = s.flag ⟨partBase p + o, lo, w⟩ := by
  have hw : ∀ a, 0x100000 ≤ a → (s.postTurn p).word a = s.word a := fun a ha => by
    have hn : ¬powerWord p a := by unfold powerWord; omega
    rw [State.postTurn, (State.leaves_powerTurn _).word a hn, (State.leaves_stepTurn _ hp).word a hn,
      (s.leaves_mapClus p _).word a not_false]
  rw [State.flag, State.flag, State.fld_of_words _ (hw _ (by simp only [partBase]; omega)) (hw _ (by simp only [partBase]; omega))]

/-- A running partition runs on through a boundary at which PCTL_CMD is RUN. -/
theorem State.Runs.partTurn {s : State} {p e : Nat} (h : State.Runs p e s) (hp : p < 8) (hcmd : s.act (PCTL_CMD_CMD p) = 0) :
    State.Runs p e (s.partTurn p 0) := by
  have hfree : State.Same p s (s.freeAcked p) := .of_calm (State.calm_freeAcked 0 ..) (by omega)
  have h1 : State.Runs p e (s.freeAcked p) := h.of_same hfree
  have h2 : State.Runs p e (s.preTurn p 0) := by
    have hr : ∀ c, c < 20 → ((s.freeAcked p).clu p c).inReset = false := fun c hc => by
      obtain ⟨-, -, h, -⟩ := h1.clu c hc
      exact h
    rw [State.preTurn, State.cmdTurn_of_run ((hfree.act _).trans hcmd) hr]
    exact h1.of_same (.of_calm (State.calm_releaseTurn 0 ..) (by omega))
  have hl := (s.preTurn p 0).leaves_lossTurn (p := p)
  rw [State.partTurn_eq]
  refine ⟨?_, fun c hc => ?_⟩
  · rw [State.flag_postTurn _ hp (by decide), State.flag, hl.fld _ (by simp only; omega) (by simp only; omega)]
    exact h2.flag
  · rw [State.postTurn, (State.leaves_powerTurn _).clu p c hc not_false, (State.leaves_stepTurn _ hp).clu p c hc not_false,
      State.clu_mapClus _ _ _ hc, hl.clu p c hc not_false]
    exact h2.clu c hc

/-- The loss record after a boundary shows the controls that are active (R322). -/
theorem State.partTurn_loss (s : State) {p : Nat} (hp : p < 8) (was : Nat) :
    (s.act (PCTL_NUM_FTZ_IN p) = 1 → (s.partTurn p was).flag (PCTL_LOSS_SEEN_FTZ_IN p) = true) ∧
    (s.act (PCTL_NUM_SATFP8 p) = 1 → (s.partTurn p was).flag (PCTL_LOSS_SEEN_SATFP8 p) = true) := by
  have ha : ∀ f, (s.preTurn p was).act f = s.act f := fun f => by rw [State.act, (s.own_preTurn p was).active, State.act]
  obtain ⟨h1, h2⟩ := (s.preTurn p was).lossTurn_shows p
  rw [State.partTurn_eq, State.flag_postTurn _ hp (by decide), State.flag_postTurn _ hp (by decide), ← ha, ← ha]
  exact ⟨h1, h2⟩

/-- An OFF partition is in A3 (R353). -/
theorem State.startPart_off {s : State} {p : Nat} (h : s.role p = 0) : s.startPart p = s.holdOff p ∧
    (s.startPart p).fld (PWR_PSTATE_STATE p) = 3 := by
  have he : s.startPart p = s.holdOff p := by
    rw [State.startPart, State.runsClusters, h]
    rfl
  refine ⟨he, ?_⟩
  rw [he, State.holdOff, if_pos h]
  exact (State.fld_setFld_apart _ _ _ _ (by simp) (by simp) (.inl (by simp only [partBase]; omega))).trans (State.fld_setFld_same _ _ _ (by simp))

end Sys2Proof.Machine
end

section
/-!
SUPPORT. The end of B9: the seal, boundary 0, the partitions' start and the record of the run (R72, R374, R383, R384).
-/
namespace Sys2Proof.Machine

/-! ### The parts of the end of B9 -/

/-- Boundary 0: sealed, RUN set, and the beat generator running. -/
def State.boundaryZero (s : State) : State :=
  let s1 := s.drainAll.setFlag HDF_SEAL_SEALED true
  ((s1.timeTo (s1.beat.tick + 1)).setFlag HDF_SEAL_RUN true).beatStart

/-- The partitions start, and have their part of boundary 0. -/
def State.partsRun (s : State) : State :=
  (List.range 8).foldl (fun t p => t.partTurn p 0) ((List.range 8).foldl State.startPart s)

/-- The boot is over: HDF_BOOT_TIME, PHASE and SVN_MIN. -/
def State.bootOver (s : State) : State :=
  let s3 := s.guardTurn.bootTime
  ((s3.withBoot { s3.boot with step := 10, xspi := if s3.boot.flags.testBit 1 then .released else .heldHigh }).showPhase).commitSvn

/-- The event and the message of RUN. -/
def State.tellRun (s : State) (copy : Nat) : State :=
  let s5 := s.logD ev_RUN 0 0 [0, copy, 0]
  if s5.flag HDF_CTL_IRQ_EN then s5.raise 1 else s5

theorem State.sealAndRun_eq (s : State) : ∃ c, s.sealAndRun = (s.boundaryZero.partsRun.bootOver.tellRun c).buildTable := ⟨_, rfl⟩

/-! ### Boundary 0 -/

/-- The generator at its start: boundary 0 at the present tick, and the next one P ticks on (R72). -/
theorem State.beatStart_shows (s : State) : s.beatStart.running = true ∧ s.beatStart.beat.idx = 0 ∧
    s.beatStart.fld BEAT_COUNT_COUNT = 0 ∧ s.beatStart.beat.placed = s.beatStart.beat.bk + s.beatStart.beatP ∧
    s.beatStart.beat.bk = s.beatStart.beat.tick ∧ s.beatStart.active = s.regs ∧
    (∀ a, a < 0x20000 ∨ 0x30000 ≤ a → s.beatStart.word a = s.word a) ∧ s.beatStart.adm = s.adm ∧ s.beatStart.boot = s.boot ∧
    s.beatStart.plats = s.plats := by
  have hfar : ∀ a, a < 0x20000 ∨ 0x30000 ≤ a →
      ((s.setFlag BEAT_STS_RUNNING true).setFld BEAT_COUNT_COUNT 0).word a = s.word a := fun a ha => by
    rw [State.word_setFld_ne _ _ _ _ ⟨by simp only; omega, .inr (by simp only; omega)⟩, State.setFlag,
      State.word_setFld_ne _ _ _ _ ⟨by simp only; omega, .inl (by decide)⟩]
  have hrun : ((s.setFlag BEAT_STS_RUNNING true).setFld BEAT_COUNT_COUNT 0).flag BEAT_STS_RUNNING = true := by
    have hw : ∀ a, a ≠ 0x20040 → a ≠ 0x20044 →
        ((s.setFlag BEAT_STS_RUNNING true).setFld BEAT_COUNT_COUNT 0).word a = (s.setFlag BEAT_STS_RUNNING true).word a := fun a h0 h4 =>
      State.word_setFld_ne _ _ _ _ ⟨h0, .inr h4⟩
    rw [State.flag, State.fld_of_words _ (hw _ (by decide) (by decide)) (hw _ (by decide) (by decide))]
    exact State.flag_setFlag_same _ _ _ (by decide) rfl
  have hcount : ((s.setFlag BEAT_STS_RUNNING true).setFld BEAT_COUNT_COUNT 0).fld BEAT_COUNT_COUNT = 0 :=
    State.fld_setFld_same_pair _ _ _ (by decide) (by decide)
  unfold State.beatStart
  extract_lets s0 s1 s2 n out _
  have h2 : s2.active = s1.active ∧ s2.adm = s1.adm ∧ s2.boot = s1.boot ∧ s2.plats = s1.plats ∧
      ∀ a, a ≠ 0x2001c → s2.word a = s1.word a := by
    unfold s2
    split
    · exact ⟨State.setSync_active .., State.setFld_adm .., State.setFld_boot .., State.setFld_plats ..,
        fun a ha => State.word_setFld_ne _ _ _ _ ⟨ha, .inl (by decide)⟩⟩
    · exact ⟨rfl, rfl, rfl, rfl, fun _ _ => rfl⟩
  obtain ⟨hact, hadm, hboot, hplats, hword⟩ := h2
  have hfld : ∀ f : Fld, f.addr ≠ 0x2001c → f.addr + 4 ≠ 0x2001c → s2.fld f = s1.fld f := fun f h0 h4 =>
    State.fld_of_words f (hword _ h0) (hword _ h4)
  refine ⟨?_, rfl, ?_, rfl, rfl, hact, fun a ha => ?_, ?_, ?_, ?_⟩
  · rw [State.running, State.flag, State.fld_withBeat, hfld _ (by decide) (by decide)]
    exact hrun
  · rw [State.fld_withBeat, hfld _ (by decide) (by decide)]
    exact hcount
  · exact (hword a (by omega)).trans (hfar a ha)
  · exact hadm.trans ((State.setFld_adm ..).trans (State.setFlag_adm ..))
  · exact hboot.trans ((State.setFld_boot ..).trans (State.setFlag_boot ..))
  · exact hplats.trans ((State.setFld_plats ..).trans (State.setFlag_plats ..))

/-- An active value at boundary 0 is its register's. -/
theorem State.act_of_active {s t : State} (h : t.active = s.regs) (f : Fld) : t.act f = s.fld f := by
  rw [State.act, h]
  rfl

/-- What the state of boundary 0 shows, and what it has of the state before. -/
structure State.ZeroOf (s u : State) : Prop where
  sealed : u.flag HDF_SEAL_SEALED = true
  run : u.flag HDF_SEAL_RUN = true
  running : u.running = true
  idx : u.beat.idx = 0
  count : u.fld BEAT_COUNT_COUNT = 0
  placed : u.beat.placed = u.beat.bk + u.beatP
  bk : u.beat.bk = u.beat.tick
  adm : u.adm = s.adm
  boot : u.boot = s.boot
  plats : u.plats = s.plats
  word : ∀ a, kept a = true → a ≠ 0x8 → a < 0x20000 ∨ 0x30000 ≤ a → u.word a = s.word a
  act : ∀ f : Fld, kept f.addr = true → kept (f.addr + 4) = true → 0x10 ≤ f.addr → u.act f = s.fld f

theorem State.zeroOf_of_calm {s d v : State} {b : BeatSt} (hd : d.calm 0 = s.calm 0)
    (hv : v.calm 0 = ((d.setFlag HDF_SEAL_SEALED true).withBeat b).calm 0) : s.ZeroOf (v.setFlag HDF_SEAL_RUN true).beatStart := by
  have hw : ∀ a, kept a = true → a ≠ 0x8 → (v.setFlag HDF_SEAL_RUN true).word a = s.word a := fun a ha h8 => by
    have hd8 : (d.setFlag HDF_SEAL_SEALED true).word a = d.word a := State.word_setFld_ne _ _ _ _ ⟨h8, .inl (by decide)⟩
    have hv8 : (v.setFlag HDF_SEAL_RUN true).word a = v.word a := State.word_setFld_ne _ _ _ _ ⟨h8, .inl (by decide)⟩
    exact hv8.trans ((State.word_of_calm hv (by decide) ha).trans (hd8.trans (State.word_of_calm hd (by decide) ha)))
  have hseal : v.flag HDF_SEAL_SEALED = true := by
    have h : v.flag HDF_SEAL_SEALED = (d.setFlag HDF_SEAL_SEALED true).flag HDF_SEAL_SEALED :=
      (State.flag_of_calm hv (by decide) _ (by decide) (by decide)).trans (State.flag_of_regs rfl _)
    rw [h, State.flag_setFlag_same _ _ _ (by decide) rfl]
  obtain ⟨hrun, hidx, hcount, hplaced, hbk, hact, hword, hadm, hboot, hplats⟩ := (v.setFlag HDF_SEAL_RUN true).beatStart_shows
  have hlow : ∀ f : Fld, f.addr + 4 < 0x20000 → (v.setFlag HDF_SEAL_RUN true).beatStart.flag f = (v.setFlag HDF_SEAL_RUN true).flag f :=
    fun f hf => by
      rw [State.flag, State.fld_of_words f (hword _ (.inl (by omega))) (hword _ (.inl hf)), State.flag]
  exact {
    sealed := by rw [hlow _ (by decide), State.flag_setFlag_apart _ _ _ _ (by decide) (by decide) (by decide), hseal]
    run := by rw [hlow _ (by decide), State.flag_setFlag_same _ _ _ (by decide) rfl]
    running := hrun
    idx := hidx
    count := hcount
    placed := hplaced
    bk := hbk
    adm := by rw [hadm, State.setFlag_adm, State.adm_of_calm hv, State.withBeat_adm, State.setFlag_adm, State.adm_of_calm hd]
    boot := by rw [hboot, State.setFlag_boot, State.boot_of_calm hv, State.withBeat_boot, State.setFlag_boot, State.boot_of_calm hd]
    plats := by
      rw [hplats, State.setFlag_plats, State.plats_of_calm hv, State.withBeat_plats, State.setFlag_plats, State.plats_of_calm hd]
    word := fun a ha h8 hr => (hword a hr).trans (hw a ha h8)
    act := fun f h0 h4 hf => (State.act_of_active hact f).trans
      (State.fld_of_words f (hw _ h0 (by omega)) (hw _ h4 (by omega))) }

theorem State.boundaryZero_of (s : State) : s.ZeroOf s.boundaryZero := by
  unfold State.boundaryZero
  extract_lets s1
  obtain ⟨b, hb, -⟩ := s1.timeTo_calm (s1.beat.tick + 1)
  exact State.zeroOf_of_calm (State.calm_drainAll 0 s) hb

/-! ### The end of the boot -/

/-- COMMIT_SVN changes SVN_MIN alone: it is then at least SVN as far as the fuses go (R374). -/
theorem State.commitSvn_shows (s : State) :
    s.commitSvn.beat = s.beat ∧ s.commitSvn.active = s.active ∧ s.commitSvn.adm = s.adm ∧ s.commitSvn.clus = s.clus ∧
    s.commitSvn.boot = s.boot ∧ (∀ a, s.commitSvn.word a = s.word a) ∧
    (s.boot.flags.testBit 3 = true → min (s.fld HDF_SVN_SVN) 255 ≤ s.commitSvn.fuses.svnMin) := by
  unfold State.commitSvn
  extract_lets v
  split
  · exact ⟨rfl, rfl, rfl, rfl, rfl, fun _ => rfl, fun _ => le_rfl⟩
  · next h => exact ⟨rfl, rfl, rfl, rfl, rfl, fun _ => rfl, fun hf => (Nat.min_le_left ..).trans (Nat.not_lt.1 fun hv => h ⟨hf, hv⟩)⟩

/-- The boot's end shows in PHASE and SVN_MIN alone. -/
theorem State.bootEnd_shows (v : State) {b : BootSt} (hb : b.step = 10) :
    (v.withBoot b).showPhase.commitSvn.beat = v.beat ∧ (v.withBoot b).showPhase.commitSvn.active = v.active ∧
    (v.withBoot b).showPhase.commitSvn.adm = v.adm ∧ (v.withBoot b).showPhase.commitSvn.clus = v.clus ∧
    (v.withBoot b).showPhase.commitSvn.boot = b ∧ (v.withBoot b).showPhase.commitSvn.fld HDF_IMAGE_STS_PHASE = 10 ∧
    (∀ a, a ≠ 0xc → (v.withBoot b).showPhase.commitSvn.word a = v.word a) ∧
    (b.flags.testBit 3 = true → min (v.fld HDF_SVN_SVN) 255 ≤ (v.withBoot b).showPhase.commitSvn.fuses.svnMin) := by
  have hphase : (v.withBoot b).showPhase = (v.withBoot b).setFld HDF_IMAGE_STS_PHASE 10 := by
    unfold State.showPhase
    rw [State.withBoot_boot, hb]
    rfl
  rw [hphase]
  obtain ⟨hbeat, hact, hadm, hclus, hboot, hword, hsvn⟩ := ((v.withBoot b).setFld HDF_IMAGE_STS_PHASE 10).commitSvn_shows
  have hw : ∀ a, a ≠ 0xc → ((v.withBoot b).setFld HDF_IMAGE_STS_PHASE 10).word a = v.word a := fun a ha =>
    State.word_setFld_ne _ _ _ _ ⟨ha, .inl (by decide)⟩
  have hphase10 : ((v.withBoot b).setFld HDF_IMAGE_STS_PHASE 10).fld HDF_IMAGE_STS_PHASE = 10 :=
    State.fld_setFld_same _ _ _ (by decide)
  refine ⟨hbeat.trans (State.setFld_beat ..), hact.trans (State.setFld_active ..), hadm.trans (State.setFld_adm ..),
    hclus.trans (State.setFld_clus ..), hboot.trans (State.setFld_boot ..), (State.fld_of_words _ (hword _) (hword _)).trans hphase10,
    fun a ha => (hword a).trans (hw a ha), fun hf => ?_⟩
  rw [← State.fld_of_words HDF_SVN_SVN (hw _ (by decide)) (hw _ (by decide))]
  refine hsvn ?_
  rw [State.setFld_boot]
  exact hf

/-- The registers and the state after boundary 0 but for HDF_BOOT_TIME, PHASE, SVN_MIN and the boot's end. -/
theorem State.bootOver_shows (s : State) :
    s.bootOver.beat = s.beat ∧ s.bootOver.active = s.active ∧ s.bootOver.adm = s.adm ∧ s.bootOver.clus = s.clus ∧
    s.bootOver.boot.step = 10 ∧ s.bootOver.fld HDF_IMAGE_STS_PHASE = 10 ∧
    (∀ a, kept a = true → a ≠ 0xc → a ≠ 0x38 → s.bootOver.word a = s.word a) ∧
    (s.boot.flags.testBit 3 = true → min (s.fld HDF_SVN_SVN) 255 ≤ s.bootOver.fuses.svnMin) := by
  have hg := State.calm_guardTurn 0 s
  unfold State.bootOver
  generalize s.guardTurn = g at hg
  extract_lets s3 _
  have hb3 : s3.boot = s.boot := (State.setFld_boot ..).trans (State.boot_of_calm hg)
  have hw3 : ∀ a, kept a = true → a ≠ 0x38 → s3.word a = s.word a := fun a ha h38 =>
    (State.word_setFld_ne _ _ _ _ ⟨h38, .inl (by decide)⟩).trans (State.word_of_calm hg (by decide) ha)
  obtain ⟨hbeat, hact, hadm, hclus, hboot, hphase, hword, hsvn⟩ := s3.bootEnd_shows
    (b := { s3.boot with step := 10, xspi := if s3.boot.flags.testBit 1 then .released else .heldHigh }) rfl
  refine ⟨hbeat.trans ((State.setFld_beat ..).trans (State.beat_of_calm hg)),
    hact.trans ((State.setFld_active ..).trans (State.active_of_calm hg)), hadm.trans ((State.setFld_adm ..).trans (State.adm_of_calm hg)),
    hclus.trans ((State.setFld_clus ..).trans (State.clus_of_calm hg (by decide))), congrArg BootSt.step hboot, hphase,
    fun a ha hc h38 => (hword a hc).trans (hw3 a ha h38), fun hf => ?_⟩
  rw [← State.fld_of_words HDF_SVN_SVN (hw3 _ (by decide) (by decide)) (hw3 _ (by decide) (by decide))]
  refine hsvn ?_
  change s3.boot.flags.testBit 3 = true
  rw [hb3]
  exact hf

theorem State.calm_tellRun (n : Nat) (s : State) (c : Nat) : (s.tellRun c).calm n = s.calm n := by
  unfold State.tellRun
  extract_lets s5
  split
  · exact (State.calm_raise ..).trans (State.calm_logD ..)
  · exact State.calm_logD ..

end Sys2Proof.Machine
end

section
/-!
SUPPORT. The stacks of OFF partitions at RUN: without frames and with every PCTL_CMD at RUN nothing reads or writes a stack at boundary 0, so
self-refresh stays (R241, R353, R384).
-/
namespace Sys2Proof.Machine

/-! ### Boundary 0 without frames -/

section Empty
variable {s : State} (h : s.plats = [])
include h

theorem State.plat_of_nil (p : Nat) : s.plat p = platReset := by
  rw [State.plat, h]
  rfl

theorem State.setPlat_reset (p : Nat) : s.setPlat p platReset = s := by
  have he : Tbl.set (fun _ => platReset) s.plats p platReset = s.plats := by
    rw [h, Tbl.set, if_pos rfl]
    rfl
  rw [State.setPlat, he]

theorem State.letIn_of_nil (p : Nat) : s.letIn p = s := by
  rw [State.letIn, State.plat_of_nil h]
  rfl

theorem State.freeAcked_of_nil (p : Nat) : s.freeAcked p = s := by
  unfold State.freeAcked
  rw [State.plat_of_nil h]
  change (s.setPlat p platReset).letIn p = s
  rw [State.setPlat_reset h, State.letIn_of_nil h]

theorem State.untakeAll_of_nil (p : Nat) : s.untakeAll p = s := by
  unfold State.untakeAll
  rw [State.plat_of_nil h]
  exact State.setPlat_reset h p

theorem State.bySlot_of_nil (p : Nat) (f : Frame → Bool) : s.bySlot p f = [] := by
  rw [State.bySlot, State.plat_of_nil h]
  rfl

theorem State.releaseTurn_of_nil (p : Nat) : s.releaseTurn p = s := by
  unfold State.releaseTurn
  rw [State.bySlot_of_nil h]
  extract_lets rel r
  split
  · exact State.letIn_of_nil h p
  · split
    · rfl
    · rfl

/-- The registers that a partition's part of boundary 0 writes where there are no frames. -/
theorem State.leaves_partTurn_of_nil {p : Nat} (hp : p < 8) (hcmd : s.act (PCTL_CMD_CMD p) = 0) :
    State.Leaves (fun a => powerWord p a ∨ a = partBase p + 0x40 ∨ a = partBase p + 0x50) (fun q => q = p) s (s.partTurn p 0) := by
  have hmap : ∀ (t : State) (f : Cluster → Cluster), State.Leaves (fun a => powerWord p a ∨ a = partBase p + 0x40 ∨ a = partBase p + 0x50)
      (fun q => q = p) t (t.mapClus p f) := fun t f => (t.leaves_mapClus p f).mono (fun _ h => h.elim) fun _ h => h
  have hrun : ∀ t : State, State.Leaves (fun a => powerWord p a ∨ a = partBase p + 0x40 ∨ a = partBase p + 0x50) (fun q => q = p) t
      (t.setFlag (PCTL_STS_RUNNING p) true) := fun t =>
    .setFld t _ _ (by simp) (.inr (.inl rfl)) fun q _ => .inl (by simp only [partBase]; omega)
  have hcmdTurn : State.Leaves (fun a => powerWord p a ∨ a = partBase p + 0x40 ∨ a = partBase p + 0x50) (fun q => q = p) s (s.cmdTurn p 0) := by
    unfold State.cmdTurn
    split
    · exact .refl ..
    · simp only [hcmd]
      unfold State.runPart
      split
      · extract_lets s1
        have h1 : s1 = s.mapClus p (fun k => { k with inReset := false }) := State.untakeAll_of_nil ((hmap s _).plats.trans h) p
        rw [h1]
        split
        · rw [State.cluStartAll_eq]
          exact ((hmap s _).trans (hmap _ _)).trans (hrun _)
        · exact hmap s _
      · exact .refl ..
  have hpre : s.preTurn p 0 = s.cmdTurn p 0 := by
    rw [State.preTurn, State.freeAcked_of_nil h, State.releaseTurn_of_nil (hcmdTurn.plats.trans h)]
  rw [State.partTurn_eq, hpre]
  have hloss := (s.cmdTurn p 0).leaves_lossTurn (p := p)
  refine (hcmdTurn.trans (hloss.mono (fun _ h => .inr (.inr h)) fun _ h => h.elim)).trans ?_
  exact ((hmap _ _).trans ((State.leaves_stepTurn _ hp).mono (fun _ h => .inl h) fun _ h => h.elim)).trans
    ((State.leaves_powerTurn _).mono (fun _ h => .inl h) fun _ h => h.elim)

end Empty

/-! ### Self-refresh -/

/-- A stack's status register is none of those that a partition's part of boundary 0 writes. -/
theorem stkWord_apart {p q : Nat} (hq : q < 8) : ¬(powerWord q (partBase p + 0xc000) ∨ partBase p + 0xc000 = partBase q + 0x40 ∨
    partBase p + 0xc000 = partBase q + 0x50) := by
  unfold powerWord partBase
  omega

/-- A one-bit field depends on its own word. -/
theorem State.flag_of_word {s t : State} {f : Fld} (hf : f.lo + f.w ≤ 32) (h : t.word f.addr = s.word f.addr) : t.flag f = s.flag f := by
  rw [State.flag, State.flag, State.fld, State.fld, if_pos hf, if_pos hf, h]

/-- The start of a partition leaves the plats, and a stack in self-refresh stays in it. -/
theorem State.startPart_leaves (s : State) (p : Nat) {q : Nat} (hq : q < 8) : (s.startPart q).plats = s.plats ∧
    (s.flag (STK_STS_SELF_REFRESH p) = true → (s.startPart q).flag (STK_STS_SELF_REFRESH p) = true) := by
  unfold State.startPart
  split
  · rw [State.cluStartAll_eq]
    have hm := s.leaves_mapClus q (s.started q)
    refine ⟨(State.setFlag_plats ..).trans hm.plats, fun h => ?_⟩
    rw [State.flag_setFlag_apart _ _ _ _ (by simp) (by simp) (.inl (by simp only [partBase]; omega)),
      State.flag_of_word (by simp) (hm.word _ not_false), h]
  · unfold State.holdOff
    split
    · refine ⟨(State.setFlag_plats ..).trans (State.setFld_plats ..), fun h => ?_⟩
      by_cases hpq : p = q
      · subst hpq
        exact State.flag_setFlag_same _ _ _ (by simp) rfl
      · rw [State.flag_setFlag_apart _ _ _ _ (by simp) (by simp) (.inl (by simp only [partBase]; omega)),
          State.flag_setFld_apart _ _ _ _ (by simp) (by simp) (.inl (by simp only [partBase]; omega)), h]
    · exact ⟨rfl, id⟩

/-- Partition `p` is OFF, so its start puts its stack into self-refresh. -/
theorem State.startPart_sr {s : State} {p : Nat} (h : s.role p = 0) : (s.startPart p).flag (STK_STS_SELF_REFRESH p) = true := by
  obtain ⟨he, -⟩ := State.startPart_off h
  rw [he, State.holdOff, if_pos h]
  exact State.flag_setFlag_same _ _ _ (by simp) rfl

/-- The stack of an OFF partition after every partition's start. -/
theorem State.startParts_sr {s : State} {p : Nat} (hp : p < 8) (h : s.role p = 0) :
    ((List.range 8).foldl State.startPart s).flag (STK_STS_SELF_REFRESH p) = true := by
  have key : ∀ (l : List Nat), (∀ q ∈ l, q < 8) → p ∈ l → ∀ t : State, t.role p = 0 →
      (l.foldl State.startPart t).flag (STK_STS_SELF_REFRESH p) = true := by
    intro l
    induction l with
    | nil => simp
    | cons q l ih =>
      intro hl hmem t ht
      have hrest : ∀ x ∈ l, x < 8 := fun x hx => hl x (List.mem_cons_of_mem _ hx)
      rw [List.foldl_cons]
      by_cases hqp : q = p
      · subst hqp
        exact List.foldlRecOn l State.startPart (State.startPart_sr ht)
          fun u hu x hx => (u.startPart_leaves q (hrest x hx)).2 hu
      · refine ih hrest ((List.mem_cons.1 hmem).resolve_left (Ne.symm hqp)) _ ?_
        have hs := t.same_startPart (p := p) (by omega) (hl q List.mem_cons_self) hqp
        exact (hs.fld _ (near_pctl p (by decide)) (near_pctl_add p (by decide))).trans ht
  exact key _ (fun q hq => List.mem_range.1 hq) (List.mem_range.2 hp) s h

/-- An OFF partition's stack after boundary 0 of a device without frames whose every PCTL_CMD is RUN. -/
theorem State.partsRun_sr {s : State} {p : Nat} (hp : p < 8) (hrole : s.role p = 0) (hplats : s.plats = [])
    (hcmd : ∀ q < 8, s.act (PCTL_CMD_CMD q) = 0) : s.partsRun.flag (STK_STS_SELF_REFRESH p) = true := by
  have hact : ((List.range 8).foldl State.startPart s).active = s.active :=
    (State.same_foldl (p := 8) (fun t q hq h8 => t.same_startPart (by omega) hq h8) _
      (fun q hq => ⟨List.mem_range.1 hq, by have := List.mem_range.1 hq; omega⟩) s).active
  have hnil : ((List.range 8).foldl State.startPart s).plats = [] :=
    List.foldlRecOn (motive := fun t : State => t.plats = []) _ State.startPart hplats
      fun t ht q hq => ((t.startPart_leaves 0 (List.mem_range.1 hq)).1).trans ht
  obtain ⟨-, -, h⟩ := List.foldlRecOn
    (motive := fun t : State => t.plats = [] ∧ t.active = s.active ∧ t.flag (STK_STS_SELF_REFRESH p) = true) (List.range 8)
    (fun t q => t.partTurn q 0) ⟨hnil, hact, State.startParts_sr hp hrole⟩ fun t ht q hq => by
      obtain ⟨h1, h2, h3⟩ := ht
      have hq8 := List.mem_range.1 hq
      have hl := State.leaves_partTurn_of_nil h1 hq8 (by rw [State.act, h2, ← State.act]; exact hcmd q hq8)
      exact ⟨hl.plats.trans h1, hl.active.trans h2, (State.flag_of_word (by simp) (hl.word _ (stkWord_apart hq8))).trans h3⟩
  exact h

/-! ### The record of the run -/

section Record
variable {g : Fld} (hg : g.lo + g.w ≤ 32) (ha : 0x100000 ≤ g.addr)
include hg ha

/-- Writing a register below the partitions' windows. -/
theorem State.fld_setFld_low (t : State) (f : Fld) (v : Nat) (hf : f.lo + f.w ≤ 32) (hlt : f.addr < 0x100000) :
    (t.setFld f v).fld g = t.fld g := State.fld_setFld_apart _ _ _ _ hf hg (.inl (by omega))

omit hg ha in
/-- Host memory, the log's buffer, the boot and the counter of free values are apart from the registers. -/
theorem State.fld_hostMem (s : State) (m : Mem) (g : Fld) : State.fld { s with hostMem := m } g = s.fld g := State.fld_of_regs rfl g

omit hg ha in
theorem State.fld_evt (s : State) (x : EvtSt) (g : Fld) : State.fld { s with evt := x } g = s.fld g := State.fld_of_regs rfl g

omit hg ha in
theorem State.fld_withBoot (s : State) (b : BootSt) (g : Fld) : (s.withBoot b).fld g = s.fld g := State.fld_of_regs rfl g

omit hg ha in
theorem State.fld_fresh (s : State) (g : Fld) : s.fresh.2.fld g = s.fld g := State.fld_of_regs rfl g

/-- The event log's registers lie there. -/
theorem State.fld_ringWrite (s : State) (e : Event) : (s.ringWrite e).fld g = s.fld g := by
  unfold State.ringWrite
  extract_lets head a _ _ s1 full s2 s3 _
  have h1 : s1.fld g = s.fld g := State.fld_hostMem s _ g
  have h2 : s2.fld g = s1.fld g := by
    unfold s2
    split
    · exact (State.fld_setFld_low hg ha _ EVT_LOST_COUNT _ (by decide) (by decide)).trans
        (State.fld_setFld_low hg ha s1 EVT_LOG_ACK_SEQ _ (by decide) (by decide))
    · rfl
  have h3 : s3.fld g = s.fld g := (State.fld_setFld_low hg ha s2 EVT_LOG_HEAD_SEQ _ (by decide) (by decide)).trans (h2.trans h1)
  split
  · exact (State.fld_evt (s.setFlag EVT_STS_WRITE_ERR true) _ g).trans
      (State.fld_setFld_low hg ha s _ _ (by decide) (by decide))
  · split
    · exact (State.fld_of_regs (State.regs_raise ..) g).trans ((State.fld_evt s3 _ g).trans h3)
    · exact h3

theorem State.fld_holdEvent (s : State) (e : Event) : (s.holdEvent e).fld g = s.fld g := by
  unfold State.holdEvent
  split
  · exact (State.fld_setFld_low hg ha _ EVT_LOST_COUNT _ (by decide) (by decide)).trans (State.fld_evt s _ g)
  · exact State.fld_evt s _ g

theorem State.fld_logD (s : State) (k : EvKind) (b a : Nat) (d : List Nat) : (s.logD k b a d).fld g = s.fld g := by
  unfold State.logD State.logEvent
  split
  · exact State.fld_ringWrite hg ha ..
  · exact State.fld_holdEvent hg ha ..

theorem State.fld_tellRun (s : State) (c : Nat) : (s.tellRun c).fld g = s.fld g := by
  unfold State.tellRun
  extract_lets s5
  split
  · exact (State.fld_of_regs (State.regs_raise ..) g).trans (State.fld_logD hg ha ..)
  · exact State.fld_logD hg ha ..

theorem State.fld_guardTurn (s : State) : s.guardTurn.fld g = s.fld g := by
  have heval : ∀ (t : State), ∀ c < 8, (t.guardEval c).fld g = t.fld g := fun t c hc => by
    have hcount : g.addr ≠ (wmFlds (.guard (Fin.ofNat 8 c))).count.addr := by
      simp only [wmFlds, Fin.ofNat, Nat.mod_eq_of_lt hc]
      omega
    rw [State.guardEval_eq, State.fld_guardSet _ _ _ _ hg hcount, State.guardShown,
      State.fld_setFld_apart _ _ _ _ (by simp) hg (.inl (by simp only; omega)),
      State.fld_setFld_apart _ _ _ _ (by simp) hg (.inl (by simp only; omega)),
      State.setFlag, State.fld_setFld_apart _ _ _ _ (by simp) hg (.inl (by simp only; omega))]
  exact List.foldlRecOn (motive := fun t : State => t.fld g = s.fld g) (List.range 8) State.guardEval (State.fld_withTal ..)
    fun t ht c hc => (heval t c (List.mem_range.1 hc)).trans ht

theorem State.fld_bootOver (s : State) : s.bootOver.fld g = s.fld g := by
  unfold State.bootOver
  extract_lets s3 _
  have h3 : s3.fld g = s.fld g :=
    (State.fld_setFld_low hg ha _ _ _ (by decide) (by decide)).trans ((State.fld_fresh ..).trans (State.fld_guardTurn hg ha s))
  have hend : ∀ b : BootSt, (s3.withBoot b).showPhase.commitSvn.fld g = s3.fld g := fun b => by
    obtain ⟨-, -, -, -, -, hword, -⟩ := (s3.withBoot b).showPhase.commitSvn_shows
    exact (State.fld_of_words g (hword _) (hword _)).trans
      ((State.fld_setFld_low hg ha (s3.withBoot b) _ _ (by decide) (by decide)).trans (State.fld_withBoot ..))
  exact (hend _).trans h3

end Record

end Sys2Proof.Machine
end

section
/-!
SUPPORT. O55: the state at the end of B9, from boundary 0, the partitions' start and part of it, and the end of the boot.
-/
namespace Sys2Proof.Machine

/-! ### The partitions after boundary 0 -/

section Parts
variable (s : State)

/-- The partitions' start and boundary 0 leave the device. -/
theorem State.partsRun_device : State.Same 8 s s.partsRun := by
  have h8 : ∀ q ∈ List.range 8, q < 8 ∧ q ≠ 8 := fun q hq => ⟨List.mem_range.1 hq, by have := List.mem_range.1 hq; omega⟩
  exact (State.same_foldl (fun t q hq h => t.same_startPart le_rfl hq h) _ h8 s).trans
    (State.same_foldl (fun t q hq h => t.same_partTurn 0 le_rfl hq h) _ h8 _)

/-- To partition `p` all of it is its own start, and its own part of the boundary. -/
theorem State.partsRun_part {p : Nat} (hp : p < 8) : ∃ u v, State.Same p s u ∧ State.Same p (u.startPart p) v ∧
    State.Same p (v.partTurn p 0) s.partsRun := by
  obtain ⟨u, hu, hstart⟩ := State.same_foldl_range (fun t q hq h => t.same_startPart (p := p) (by omega) hq h) hp s
  obtain ⟨v, hv, hturn⟩ := State.same_foldl_range (fun t q hq h => t.same_partTurn 0 (p := p) (by omega) hq h) hp
    ((List.range 8).foldl State.startPart s)
  exact ⟨u, v, hu, hstart.trans hv, hturn⟩

/-- The active values are those of boundary 0 throughout. -/
theorem State.startPart_active (p : Nat) : (s.startPart p).active = s.active := by
  unfold State.startPart
  split
  · rw [State.setFlag_active, State.cluStartAll_eq]
    exact (s.leaves_mapClus p _).active
  · unfold State.holdOff
    split
    · rw [State.setFlag_active, State.setFld_active]
    · rfl

/-- A partition whose role runs clusters, with PCTL_CMD at RUN, runs. -/
theorem State.partsRun_runs {p : Nat} (hp : p < 8) (h1 : 1 ≤ s.role p) (h4 : s.role p ≤ 4) (hcmd : s.act (PCTL_CMD_CMD p) = 0) :
    State.Runs p (s.fld (PCTL_PROG_ENTRY p)) s.partsRun := by
  obtain ⟨u, v, hu, hv, ht⟩ := s.partsRun_part hp
  have hrole : u.role p = s.role p := hu.fld _ (near_pctl p (by decide)) (near_pctl_add p (by decide))
  have hentry : u.fld (PCTL_PROG_ENTRY p) = s.fld (PCTL_PROG_ENTRY p) := hu.fld _ (near_pctl p (by decide)) (near_pctl_add p (by decide))
  have hclu : u.runsClusters p = true := by simp [State.runsClusters, hrole, h1, h4]
  have hact : v.act (PCTL_CMD_CMD p) = 0 := by
    rw [hv.act, State.act, State.startPart_active, ← State.act, hu.act, hcmd]
  rw [← hentry]
  exact (((State.runs_startPart hclu).of_same hv).partTurn hp hact).of_same ht

/-- An OFF partition is in A3. -/
theorem State.partsRun_off {p : Nat} (hp : p < 8) (h0 : s.role p = 0) : s.partsRun.fld (PWR_PSTATE_STATE p) = 3 := by
  obtain ⟨u, v, hu, hv, ht⟩ := s.partsRun_part hp
  have hrole : u.role p = 0 := (hu.fld _ (near_pctl p (by decide)) (near_pctl_add p (by decide))).trans h0
  obtain ⟨-, hstate⟩ := State.startPart_off hrole
  rw [ht.state, (v.own_partTurn p hp 0).state p (by omega), hv.state, hstate]

/-- The loss record of every partition. -/
theorem State.partsRun_loss {p : Nat} (hp : p < 8) :
    (s.act (PCTL_NUM_FTZ_IN p) = 1 → s.partsRun.flag (PCTL_LOSS_SEEN_FTZ_IN p) = true) ∧
    (s.act (PCTL_NUM_SATFP8 p) = 1 → s.partsRun.flag (PCTL_LOSS_SEEN_SATFP8 p) = true) := by
  obtain ⟨u, v, hu, hv, ht⟩ := s.partsRun_part hp
  have hact : ∀ f, v.act f = s.act f := fun f => by rw [hv.act, State.act, State.startPart_active, ← State.act, hu.act]
  obtain ⟨h1, h2⟩ := v.partTurn_loss hp 0
  rw [ht.flag _ (near_pctl p (by decide)) (near_pctl_add p (by decide)),
    ht.flag _ (near_pctl p (by decide)) (near_pctl_add p (by decide)), ← hact, ← hact]
  exact ⟨h1, h2⟩

end Parts

/-! ### The state at RUN -/

/-- What the record of the run, and the first class table, leave of the state after boundary 0. -/
structure State.RecordOf (s t : State) : Prop where
  beat : t.beat = s.beat
  active : t.active = s.active
  built : t.adm.built.length = s.adm.built.length + 1
  clu : ∀ p c, t.clu p c = s.clu p c
  step : t.boot.step = 10
  phase : t.fld HDF_IMAGE_STS_PHASE = 10
  word : ∀ a, kept a = true → a ≠ 0xc → a ≠ 0x38 → t.word a = s.word a
  stack : ∀ p, t.flag (STK_STS_SELF_REFRESH p) = s.flag (STK_STS_SELF_REFRESH p)
  svn : s.boot.flags.testBit 3 = true → min (s.fld HDF_SVN_SVN) 255 ≤ t.fuses.svnMin

theorem State.recordOf (s : State) (c : Nat) : s.RecordOf (s.bootOver.tellRun c).buildTable := by
  obtain ⟨hbeat, hact, hadm, hclus, hstep, hphase, hword, hsvn⟩ := s.bootOver_shows
  have hc := State.calm_tellRun 0 s.bootOver c
  have hstk : ∀ p, ((s.bootOver.tellRun c)).flag (STK_STS_SELF_REFRESH p) = s.flag (STK_STS_SELF_REFRESH p) := fun p => by
    have ha : 0x100000 ≤ (STK_STS_SELF_REFRESH p).addr := by simp only [partBase]; omega
    rw [State.flag, State.fld_tellRun (by simp) ha, State.fld_bootOver (by simp) ha, State.flag]
  generalize s.bootOver.tellRun c = t at hc hstk
  exact {
    beat := (State.beat_of_calm hc).trans hbeat
    active := (State.active_of_calm hc).trans hact
    built := by
      have hb : t.buildTable.adm.built.length = t.adm.built.length + 1 := List.length_append
      rw [hb, State.adm_of_calm hc, hadm]
    clu := fun p c => by
      have hb : t.buildTable.clus = s.clus := (State.clus_of_calm hc (by decide)).trans hclus
      rw [State.clu, hb, State.clu]
    step := (congrArg BootSt.step (State.boot_of_calm hc)).trans hstep
    phase := (State.fld_of_regs (s := t) rfl _).trans ((State.fld_of_calm hc (by decide) _ (by decide) (by decide)).trans hphase)
    word := fun a ha hn h38 => (State.word_of_calm hc (by decide) ha).trans (hword a ha hn h38)
    stack := fun p => (State.flag_of_regs (s := t) rfl _).trans (hstk p)
    svn := fun hf => (hsvn hf).trans_eq (congrArg Fuses.svnMin (State.fuses_of_calm hc)).symm }

/-- Of a field whose words lie apart from PHASE and HDF_BOOT_TIME. -/
theorem State.RecordOf.fld {s t : State} (h : s.RecordOf t) {f : Fld} (hf : f.lo + f.w ≤ 32) (hk : kept f.addr = true)
    (hc : f.addr ≠ 0xc) (h38 : f.addr ≠ 0x38) : t.fld f = s.fld f := by
  rw [State.fld, State.fld, if_pos hf, if_pos hf, h.word _ hk hc h38]

theorem State.RecordOf.flag {s t : State} (h : s.RecordOf t) {f : Fld} (hf : f.lo + f.w ≤ 32) (hk : kept f.addr = true)
    (hc : f.addr ≠ 0xc) (h38 : f.addr ≠ 0x38) : t.flag f = s.flag f := by
  rw [State.flag, h.fld hf hk hc h38, State.flag]

/-- A register of PCTL lies apart from Headframe's. -/
theorem pctl_apart (p o : Nat) : partBase p + o ≠ 0xc ∧ partBase p + o ≠ 0x38 := by
  unfold partBase
  omega

/-- Settles O55 from boundary 0, the partitions' start and part of it, and the record of the run. -/
theorem sealAndRun : Obligations.SealAndRun := by
  unfold Obligations.SealAndRun
  intro s c0 c1 hreset hstep hnot
  have hex : exec (.bootStepCompletion (.ok c0 c1)) s = .next s.sealAndRun := by
    change execBootStepCompletion (.ok c0 c1) s = _
    simp [execBootStepCompletion, hreset, State.stepDone, hstep]
  refine ⟨s.sealAndRun, hex, ?_⟩
  obtain ⟨c, he⟩ := s.sealAndRun_eq
  have hz := s.boundaryZero_of
  rw [he]
  generalize s.boundaryZero = z at hz
  have hdev := z.partsRun_device
  have ht := z.partsRun.recordOf c
  generalize (z.partsRun.bootOver.tellRun c).buildTable = t at ht
  have hhead : ∀ o, o < 0x10000 → near 8 o := fun o ho => .inl ho
  have hbeatReg : ∀ o, 0x20000 ≤ o → o < 0x30000 → near 8 o := fun o h1 h2 => .inr (.inl ⟨h1, h2⟩)
  have hzfld : ∀ (p : Part) (o lo w : Nat), o + 4 < 0x4000 → z.fld ⟨partBase p + o, lo, w⟩ = s.fld ⟨partBase p + o, lo, w⟩ :=
    fun p o lo w ho => State.fld_of_words _
      (hz.word _ (by rw [kept_partBase_add]; simp; omega) (by simp only [partBase]; omega) (by simp only [partBase]; omega))
      (hz.word _ (by rw [kept_partBase_add_add]; simp; omega) (by simp only [partBase]; omega) (by simp only [partBase]; omega))
  have hzact : ∀ (p : Part), z.act (PCTL_CMD_CMD p) = s.fld (PCTL_CMD_CMD p) := fun p =>
    hz.act _ (by simp) (by simp) (by simp only [partBase]; omega)
  have htact : ∀ f, t.act f = z.act f := fun f => by rw [State.act, ht.active, hdev.active, State.act]
  refine ⟨?_, ?_, ht.step, ht.phase, ?_, ?_, ?_, ?_, ?_, ?_, fun p h1 h4 hcmd => ?_, fun p h0 => ⟨?_, fun hplats hcmds => ?_⟩,
    fun p => ?_, fun hf => ?_⟩
  · rw [ht.flag (by decide) (by decide) (by decide) (by decide), hdev.flag _ (hhead _ (by decide)) (hhead _ (by decide))]
    exact hz.sealed
  · rw [ht.flag (by decide) (by decide) (by decide) (by decide), hdev.flag _ (hhead _ (by decide)) (hhead _ (by decide))]
    exact hz.run
  · rw [State.running, ht.flag (by decide) (by decide) (by decide) (by decide),
      hdev.flag _ (hbeatReg _ (by decide) (by decide)) (hbeatReg _ (by decide) (by decide))]
    exact hz.running
  · rw [ht.beat, hdev.beat, hz.idx]
  · rw [State.fld_of_words _ (ht.word _ (by decide) (by decide) (by decide)) (ht.word _ (by decide) (by decide) (by decide)),
      hdev.fld _ (hbeatReg _ (by decide) (by decide)) (hbeatReg _ (by decide) (by decide)), hz.count]
  · obtain ⟨hP, -⟩ := State.effective_of_active (ht.active.trans hdev.active)
    rw [ht.beat, hdev.beat, hP, hz.placed]
  · rw [ht.beat, hdev.beat, hz.bk]
  · rw [ht.built, hdev.adm, hz.adm]
  · have hrole : z.role p = s.role p := hzfld p 0x0 8 3 (by decide)
    have hrun := z.partsRun_runs p.isLt (by omega) (by omega) ((hzact p).trans hcmd)
    obtain ⟨hn1, hn2⟩ := pctl_apart p 0x40
    refine ⟨?_, fun k => ?_⟩
    · rw [ht.flag (by simp) (by simp) hn1 hn2]
      exact hrun.flag
    · obtain ⟨h1, h2, h3, h4, h5⟩ := hrun.clu k k.isLt
      rw [ht.clu]
      exact ⟨h1, h2, h3, h4, h5.trans (by rw [hzfld p 0x18 1 55 (by decide)])⟩
  · have hp := p.isLt
    have hrole : z.role p = 0 := (hzfld p 0x0 8 3 (by decide)).trans h0
    rw [ht.fld (by simp) (by simp [kept]; omega) (by simp only; omega) (by simp only; omega)]
    exact z.partsRun_off hp hrole
  · have hrole : z.role p = 0 := (hzfld p 0x0 8 3 (by decide)).trans h0
    rw [ht.stack]
    exact State.partsRun_sr p.isLt hrole (hz.plats.trans hplats) fun q hq => (hzact ⟨q, hq⟩).trans (hcmds ⟨q, hq⟩)
  · obtain ⟨h1, h2⟩ := z.partsRun_loss p.isLt
    obtain ⟨hn1, hn2⟩ := pctl_apart p 0x50
    rw [htact, htact, ht.flag (by simp) (by simp) hn1 hn2, ht.flag (by simp) (by simp) hn1 hn2]
    exact ⟨h1, h2⟩
  · have hsvn : z.partsRun.fld HDF_SVN_SVN = s.fld HDF_SVN_SVN :=
      (hdev.fld _ (hhead _ (by decide)) (hhead _ (by decide))).trans (State.fld_of_words _
        (hz.word _ (by decide) (by decide) (by decide)) (hz.word _ (by decide) (by decide) (by decide)))
    rw [← hsvn]
    exact ht.svn (by rw [hdev.boot, hz.boot]; exact hf)

end Sys2Proof.Machine
end

section
/-!
SUPPORT. What the work in the background of a command leaves: messages, the event log, the mesh's counters, memory, write combining, links
and check contexts change their own parts of the state and the registers of their own blocks, and nothing else.
-/
namespace Sys2Proof.Machine

/-! ### The view -/

/-- Registers that background work writes: the blocks EVT, CLM, TRV, CHK, LNK and FAR, and each partition's WCB and STK blocks. -/
def backReg (a : Nat) : Bool :=
  (decide (0x60000 ≤ a) && decide (a < 0x70000)) || (decide (0x90000 ≤ a) && decide (a < 0xE0000)) ||
    (decide (0x100000 ≤ a) && decide (0x8000 ≤ a % 0x100000) && decide (a % 0x100000 < 0x10000))

/-- What background work leaves of a state: the state without memory, links, translation's waits, event log, vectors, host memory, messages
and free values, and the words of the registers that it does not write. -/
def State.desk (s : State) : State × (Nat → BitVec 32) :=
  ({ s with
      regs := [], mem := State.reset.mem, net := State.reset.net, mmu := State.reset.mmu, evt := State.reset.evt, msix := []
      hostMem := [], out := [], freeCtr := 0 },
    fun a => if backReg a then 0 else s.word a)

section View
variable {s t : State} (h : t.desk = s.desk)
include h

theorem State.beat_of_desk : t.beat = s.beat := congrArg (fun v => v.1.beat) h
theorem State.active_of_desk : t.active = s.active := congrArg (fun v => v.1.active) h
theorem State.plats_of_desk : t.plats = s.plats := congrArg (fun v => v.1.plats) h
theorem State.fo_of_desk : t.fo = s.fo := congrArg (fun v => v.1.fo) h

theorem State.word_of_desk {a : Nat} (ha : backReg a = false) : t.word a = s.word a := by
  simpa [State.desk, ha] using congrFun (congrArg (fun v => v.2) h) a

end View

/-! ### Registers -/

/-- Registers of the blocks EVT and CLM to FAR. -/
@[simp] theorem backReg_evt {a : Nat} (h : 0x60000 ≤ a) (h' : a < 0x70000) : backReg a = true := by simp [backReg, h, h']
@[simp] theorem backReg_net {a : Nat} (h : 0x90000 ≤ a) (h' : a < 0xE0000) : backReg a = true := by simp [backReg, h, h']

/-- A register of a partition's window by its offset. -/
@[simp] theorem backReg_partBase_add (p o : Nat) :
    backReg (partBase p + o) = (decide (0x8000 ≤ o % 0x100000) && decide (o % 0x100000 < 0x10000)) := by
  have h1 : ¬partBase p + o < 0x70000 := by unfold partBase; omega
  have h2 : ¬partBase p + o < 0xE0000 := by unfold partBase; omega
  have h3 : 0x100000 ≤ partBase p + o := by unfold partBase; omega
  have h4 : (partBase p + o) % 0x100000 = o % 0x100000 := by unfold partBase; omega
  simp [backReg, h1, h2, h3, h4]

@[simp] theorem backReg_partBase_add_add (p o i : Nat) :
    backReg (partBase p + o + i) = (decide (0x8000 ≤ (o + i) % 0x100000) && decide ((o + i) % 0x100000 < 0x10000)) := by
  rw [Nat.add_assoc, backReg_partBase_add]

/-- A fold of steps that each leave the view. -/
theorem State.desk_foldl {α : Type} (f : State → α → State) (l : List α) (hf : ∀ s, ∀ x ∈ l, (f s x).desk = s.desk) (s : State) :
    (l.foldl f s).desk = s.desk := by
  induction l generalizing s with
  | nil => rfl
  | cons x l ih => exact (ih (fun s y hy => hf s y (List.mem_cons_of_mem _ hy)) _).trans (hf s x List.mem_cons_self)

/-- Storing a word that the view does not show. -/
theorem State.desk_setWord (s : State) {a : Nat} (v : BitVec 32) (ha : backReg a = true) : (s.setWord a v).desk = s.desk := by
  refine Prod.ext rfl (funext fun b => ?_)
  show (if backReg b then 0 else (s.setWord a v).word b) = if backReg b then 0 else s.word b
  split
  · rfl
  · next hb => exact State.word_setWord_ne _ _ fun e => hb (e ▸ ha)

section Part
variable (s : State)

/-- Writing a field of a register that the view does not show. -/
@[simp] theorem State.desk_setFld {a lo w : Nat} (v : Nat) (h0 : backReg a = true) (h4 : backReg (a + 4) = true) :
    (s.setFld ⟨a, lo, w⟩ v).desk = s.desk := by
  unfold State.setFld
  split
  · exact State.desk_setWord s _ h0
  · exact (State.desk_setWord _ _ h4).trans (State.desk_setWord s _ h0)

@[simp] theorem State.desk_setFlag {a lo w : Nat} (b : Bool) (h0 : backReg a = true) (h4 : backReg (a + 4) = true) :
    (s.setFlag ⟨a, lo, w⟩ b).desk = s.desk := State.desk_setFld s _ h0 h4
@[simp] theorem State.desk_setFbit {a lo w : Nat} (i : Nat) (b : Bool) (h0 : backReg a = true) (h4 : backReg (a + 4) = true) :
    (s.setFbit ⟨a, lo, w⟩ i b).desk = s.desk := State.desk_setFld s _ h0 h4
@[simp] theorem State.desk_countUp {a lo w : Nat} (h0 : backReg a = true) (h4 : backReg (a + 4) = true) :
    (s.countUp ⟨a, lo, w⟩).desk = s.desk := State.desk_setFld s _ h0 h4
@[simp] theorem State.desk_countBy {a lo w : Nat} (k : Nat) (h0 : backReg a = true) (h4 : backReg (a + 4) = true) :
    (s.countBy ⟨a, lo, w⟩ k).desk = s.desk := State.desk_setFld s _ h0 h4
@[simp] theorem State.desk_countSat {a lo w : Nat} (h0 : backReg a = true) (h4 : backReg (a + 4) = true) :
    (s.countSat ⟨a, lo, w⟩).desk = s.desk := State.desk_setFld s _ h0 h4

@[simp] theorem State.desk_withMem (m : MemSt) : (s.withMem m).desk = s.desk := by rfl
@[simp] theorem State.desk_withNet (x : NetSt) : (s.withNet x).desk = s.desk := by rfl
@[simp] theorem State.desk_setLink (p : Nat) (l : LinkSt) : (s.setLink p l).desk = s.desk := by rfl
@[simp] theorem State.desk_setMsix (f : Nat) (m : MsixSt) : (s.setMsix f m).desk = s.desk := by rfl
@[simp] theorem State.desk_send (m : OutMsg) : (s.send m).desk = s.desk := by rfl
@[simp] theorem State.desk_useEnd (u : TransUse) : (s.useEnd u).desk = s.desk := by rfl
@[simp] theorem State.desk_fresh : s.fresh.2.desk = s.desk := by rfl
@[simp] theorem State.desk_freshBits : s.freshBits.2.desk = s.desk := by rfl
@[simp] theorem State.desk_evt (x : EvtSt) : State.desk { s with evt := x } = s.desk := by rfl
@[simp] theorem State.desk_hostMem (x : Mem) : State.desk { s with hostMem := x } = s.desk := by rfl
@[simp] theorem State.desk_freeCtr (x : Nat) : State.desk { s with freeCtr := x } = s.desk := by rfl

/-! ### Messages and the event log -/

@[simp] theorem State.desk_raiseFn (fn k v : Nat) : (s.raiseFn fn k v).desk = s.desk := by
  unfold State.raiseFn
  extract_lets m
  split
  · rfl
  · split
    · split <;> simp
    · simp

@[simp] theorem State.desk_raise (v : Nat) : (s.raise v).desk = s.desk := State.desk_raiseFn ..

@[simp] theorem State.desk_raisePart (p a b : Nat) : (s.raisePart p a b).desk = s.desk := by
  unfold State.raisePart
  split
  · split <;> simp
  · simp

@[simp] theorem State.desk_ringWrite (e : Event) : (s.ringWrite e).desk = s.desk := by
  unfold State.ringWrite
  extract_lets head a _ _ s1 full s2 s3 _
  have h2 : s2.desk = s.desk := by
    unfold s2
    split
    · simp [s1]
    · rfl
  have h3 : s3.desk = s.desk := by simp [s3, h2]
  split
  · exact (State.desk_evt ..).trans (State.desk_setFlag s _ (by decide) (by decide))
  · split
    · exact (State.desk_raise ..).trans ((State.desk_evt ..).trans h3)
    · exact h3

@[simp] theorem State.desk_logEvent (e : Event) : (s.logEvent e).desk = s.desk := by
  unfold State.logEvent State.holdEvent
  split
  · exact State.desk_ringWrite ..
  · split
    · exact (State.desk_countSat _ (by decide) (by decide)).trans (State.desk_evt ..)
    · rfl

@[simp] theorem State.desk_logD (k : EvKind) (b a : Nat) (d : List Nat) : (s.logD k b a d).desk = s.desk := State.desk_logEvent ..

/-! ### Claims and error reports -/

@[simp] theorem State.desk_abortAt (q : Req) (a : Nat) (w : Bool) : (s.abortAt q a w).desk = s.desk := by
  unfold State.abortAt
  split
  · exact State.desk_logD ..
  · simp [State.deny, apply_ite State.desk]

@[simp] theorem State.desk_ceAt (a : Nat) : (s.ceAt a).desk = s.desk := by
  unfold State.ceAt
  split <;> simp [apply_ite State.desk]

@[simp] theorem State.desk_ueAt (q : Req) (a : Nat) : (s.ueAt q a).desk = s.desk := by
  unfold State.ueAt
  split <;> simp [apply_ite State.desk]

@[simp] theorem State.desk_rdBytes (a k : Nat) : (s.rdBytes a k).desk = s.desk := by
  unfold State.rdBytes
  split <;> simp

@[simp] theorem State.desk_wrBytes (a k : Nat) : (s.wrBytes a k).desk = s.desk := by
  unfold State.wrBytes
  split <;> simp

@[simp] theorem State.desk_granuleRead (q : Req) (a : Nat) : (s.granuleRead q a).2.desk = s.desk := by
  unfold State.granuleRead
  extract_lets g s1
  split
  · simp [s1]
  · split <;> simp [s1]

@[simp] theorem State.desk_exitSr (a : Nat) : (s.exitSr a).desk = s.desk := by
  unfold State.exitSr
  split
  · split <;> simp
  · rfl

/-! ### The Traverse's counters -/

theorem State.desk_pmuAdd {k : Nat} (hk : k < 8) (v : Nat) : (s.pmuAdd k v).desk = s.desk := by
  have h0 : backReg (0xa0108 + 0x10 * k) = true := backReg_net (by omega) (by omega)
  have h4 : backReg (0xa0108 + 0x10 * k + 4) = true := backReg_net (by omega) (by omega)
  simp [State.pmuAdd, apply_ite State.desk, h0, h4]

@[simp] theorem State.desk_pmuEvent (ev v : Nat) (at_ : Nat → Bool) (vc : Option Nat) : (s.pmuEvent ev v at_ vc).desk = s.desk :=
  State.desk_foldl _ _ (fun t k hk => by simp [apply_ite State.desk, State.desk_pmuAdd t (List.mem_range.1 hk)]) s

@[simp] theorem State.desk_trvUse (src dst vc flits : Nat) : (s.trvUse src dst vc flits).desk = s.desk := by
  unfold State.trvUse
  split
  · rfl
  · exact (State.desk_foldl _ _ (fun t r _ => State.desk_pmuEvent ..) _).trans (by simp)

@[simp] theorem State.desk_trvMem (q : Req) (a : Nat) : (s.trvMem q a).desk = s.desk := by
  unfold State.trvMem
  split <;> simp

/-! ### Write combining -/

/-- A counter of a partition's WCB groups. -/
theorem State.desk_countWcb (k : Nat) {o i lo w : Nat} (ho : 0x8000 ≤ o) (hi : o + i + 4 < 0x10000) :
    (s.countUp ⟨partBase k + o + i, lo, w⟩).desk = s.desk := by
  refine State.desk_countUp s ?_ ?_
  · rw [backReg_partBase_add_add, Bool.and_eq_true, decide_eq_true_eq, decide_eq_true_eq]
    omega
  · rw [Nat.add_assoc, Nat.add_assoc, backReg_partBase_add, Bool.and_eq_true, decide_eq_true_eq, decide_eq_true_eq]
    omega

@[simp] theorem State.desk_countDrain (k : Nat) (c : DrainCause) : (s.countDrain k c).desk = s.desk := by
  have hc := c.idx_le
  have hk : k % 4 < 4 := Nat.mod_lt _ (by decide)
  unfold State.countDrain WCB_DRAIN_CNT_COUNT
  rw [Nat.add_assoc]
  exact s.desk_countWcb _ (by decide) (by omega)

@[simp] theorem State.desk_startDrain (k : Nat) (c : DrainCause) (f : WcbEntry → Bool) : (s.startDrain k c f).desk = s.desk :=
  (State.desk_foldl _ _ (fun t _ _ => State.desk_countDrain t k c) _).trans (State.desk_withMem s _)

@[simp] theorem State.desk_wcbMerge (k : Nat) (w : WcbWrite) : (s.wcbMerge k w).desk = s.desk := by
  simp [State.wcbMerge, State.drainFull]

@[simp] theorem State.desk_drainCapacity (k : Nat) : (s.drainCapacity k).desk = s.desk := by
  unfold State.drainCapacity
  extract_lets g
  split
  · split <;> simp
  · rfl

@[simp] theorem State.desk_retryStalled (k : Nat) (l : List WcbWrite) : (s.retryStalled k l).desk = s.desk := by
  induction l generalizing s with
  | nil => rfl
  | cons w l ih =>
    unfold State.retryStalled
    extract_lets g
    split <;> simp [ih, State.ackMerged, apply_ite State.desk]

@[simp] theorem State.desk_drainAnswer (r : DrainReq) : (s.drainAnswer r).desk = s.desk := by
  unfold State.drainAnswer
  split
  case h_1 => split <;> simp
  all_goals simp

@[simp] theorem State.desk_answerDrains : s.answerDrains.desk = s.desk :=
  (State.desk_foldl _ _ (fun t r _ => State.desk_drainAnswer t r) _).trans (State.desk_withMem s _)

@[simp] theorem State.desk_drainHalf (k : Nat) (e : WcbEntry) (h : Nat) : (s.drainHalf k e h).desk = s.desk := by
  have hk : k % 4 < 4 := Nat.mod_lt _ (by decide)
  unfold State.drainHalf
  extract_lets a c m0 q r s1 m s2
  have h1 : s1.desk = s.desk := (State.desk_countWcb _ _ (by decide) (by omega)).trans (State.desk_granuleRead ..)
  have h2 : s2.desk = s.desk := by simp [s2, h1]
  split
  · rfl
  · split
    · simp
    · split
      · exact h2
      · exact (State.desk_logD ..).trans h2

@[simp] theorem State.desk_freeEntry (k : Nat) : (s.freeEntry k).desk = s.desk := by
  unfold State.freeEntry
  extract_lets g
  split
  · rfl
  · simp

@[simp] theorem State.desk_freeEntries (k m : Nat) : (s.freeEntries k m).desk = s.desk := by
  induction m generalizing s with
  | zero => rfl
  | succ m ih =>
    unfold State.freeEntries
    split <;> simp [ih]

@[simp] theorem State.desk_wcbArrive (k : Nat) (w : WcbWrite) : (s.wcbArrive k w).desk = s.desk := by
  unfold State.wcbArrive
  extract_lets g
  split <;> simp

@[simp] theorem State.desk_wcbWait (k : Nat) (w : WcbWrite) : (s.wcbWait k w).desk = s.desk := by
  unfold State.wcbWait
  extract_lets s1
  split <;> simp [s1]

@[simp] theorem State.desk_drainRequest (src : DrainSrc) (c : DrainCause) (l : List Nat) : (s.drainRequest src c l).desk = s.desk := by
  unfold State.drainRequest
  extract_lets id _ s1 s2
  have h2 : s2.desk = s1.desk := State.desk_foldl _ _ (fun t k _ => by simp) s1
  exact (State.desk_answerDrains s2).trans h2

@[simp] theorem State.desk_drainWait (src : DrainSrc) (c : DrainCause) (l : List Nat) : (s.drainWait src c l).desk = s.desk :=
  (State.desk_foldl _ _ (fun _ _ _ => State.desk_freeEntries ..) _).trans (State.desk_drainRequest ..)

/-! ### Writes of memory, on this chip and on another -/

@[simp] theorem State.desk_writePieces (q : Req) (wait : Bool) (l : List (Nat × Nat)) (d : List Byte) (ue : Option Nat) :
    (s.writePieces q wait l d ue).2.desk = s.desk := by
  induction l generalizing s d ue with
  | nil => rfl
  | cons p l ih =>
    obtain ⟨a, m⟩ := p
    have hp : (s.writePiece q wait a (d.take m)).2.desk = s.desk := by
      simp only [State.writePiece]
      split
      · simp [apply_ite State.desk]
      · split <;> simp
      · simp
    unfold State.writePieces
    split
    · exact ih ..
    · exact (ih ..).trans hp

@[simp] theorem State.desk_localWrite (q : Req) (wait : Bool) (a : Nat) (d : List Byte) :
    (s.localWrite q wait a d).2.desk = s.desk := by
  simp only [State.localWrite]
  cases s.firstDenied q false true (granules a d.length) with
  | some x => simp
  | none =>
    dsimp only
    split <;> simp

theorem State.desk_linkEmit {p : Nat} (hp : p < 8) (m : Nat) : (s.linkEmit p m).desk = s.desk := by
  have h0 : backReg (0xc0030 + 0x2000 * p) = true := backReg_net (by omega) (by omega)
  have h4 : backReg (0xc0030 + 0x2000 * p + 4) = true := backReg_net (by omega) (by omega)
  induction m generalizing s with
  | zero => rfl
  | succ m ih =>
    unfold State.linkEmit
    extract_lets l
    split <;> simp [ih, State.flitOut, h0, h4]

theorem State.desk_sendPkt {p : Nat} (hp : p < 8) (k : QueuedPkt) : (s.sendPkt p k).desk = s.desk := by
  have h0 : backReg (0xc0058 + 0x2000 * p) = true := backReg_net (by omega) (by omega)
  have h4 : backReg (0xc0058 + 0x2000 * p + 4) = true := backReg_net (by omega) (by omega)
  unfold State.sendPkt State.bufferFree
  split <;> simp [h0, h4]

theorem State.desk_linkDrain {p : Nat} (hp : p < 8) (l w : List QueuedPkt) : (s.linkDrain p l w).desk = s.desk := by
  induction l generalizing s w with
  | nil => simp [State.linkDrain, State.desk_linkEmit _ hp]
  | cons k l ih =>
    unfold State.linkDrain
    split <;> simp [ih, State.desk_sendPkt _ hp]

/-- Packets that leave by the port of a chip's route. -/
@[simp] theorem State.desk_linkSendAll (c : Nat) (ks : List QueuedPkt) :
    (s.linkSendAll (s.fld (LNK_ROUTE_PORT c)) ks).desk = s.desk :=
  State.desk_linkDrain s (s.fld_lt (LNK_ROUTE_PORT c)) _ _

@[simp] theorem State.desk_linkTo (c : Nat) (k : LinkPkt) : (s.linkTo c k).desk = s.desk := State.desk_linkSendAll ..

@[simp] theorem State.desk_remoteAsk (q : Req) (pa : Nat) (ask : RemAsk) : (s.remoteAsk q pa ask).2.desk = s.desk := by
  unfold State.remoteAsk
  split
  · simp
  · extract_lets s1 r
    have hr : r.2.desk = s.desk := (State.desk_fresh s1).trans (State.desk_linkSendAll ..)
    split
    · exact (State.desk_freeCtr ..).trans hr
    · exact hr
    · exact hr

@[simp] theorem State.desk_physWrite (q : Req) (pa : Nat) (d : List Byte) : (s.physWrite q pa d).2.desk = s.desk := by
  unfold State.physWrite
  split <;> simp

/-! ### Check contexts -/

/-- The context of a stream is one of the sixteen. -/
theorem State.putCtxs_lt {dir lpart chip part k : Nat} (h : k ∈ s.putCtxs dir lpart chip part) : k < 16 :=
  List.mem_range.1 (List.mem_of_mem_filter h)

@[simp] theorem State.desk_chkPick (l : List Nat) : (s.chkPick l).2.desk = s.desk := by
  unfold State.chkPick
  split <;> simp

theorem State.desk_chkRun {k : Nat} (hk : k < 16) (d : List Byte) : (s.chkRun k d).2.desk = s.desk := by
  have h1 : ∀ o, 0xb0100 ≤ o → o < 0xb0200 → backReg (o + 0x20 * k) = true := fun o _ _ => backReg_net (by omega) (by omega)
  have h2 : ∀ o, 0xb0100 ≤ o → o < 0xb0200 → backReg (o + 0x20 * k + 4) = true := fun o _ _ => backReg_net (by omega) (by omega)
  simp [State.chkRun, h1, h2]

theorem State.desk_chkErr {k : Nat} (hk : k < 16) (v : Nat) : (s.chkErr k v).desk = s.desk := by
  have h1 : ∀ o, 0xb0100 ≤ o → o < 0xb0200 → backReg (o + 0x20 * k) = true := fun o _ _ => backReg_net (by omega) (by omega)
  have h2 : ∀ o, 0xb0100 ≤ o → o < 0xb0200 → backReg (o + 0x20 * k + 4) = true := fun o _ _ => backReg_net (by omega) (by omega)
  simp [State.chkErr, apply_ite State.desk, h1, h2]

theorem State.desk_chkCompare {k : Nat} (hk : k < 16) (d : List Byte) (v : Nat) : (s.chkCompare k d v).2.desk = s.desk := by
  simp only [State.chkCompare]
  split
  · exact State.desk_chkRun s hk d
  · exact (State.desk_chkErr _ hk _).trans (State.desk_chkRun s hk d)

/-- The check of a put that completes. -/
@[simp] theorem State.desk_chkPut (p : Nat) (h : FrameHdr) (d : List Byte) (tr : Option (BitVec 64)) :
    (s.chkPut p h d tr).2.desk = s.desk := by
  unfold State.chkPut
  generalize hc : s.chkPick (s.putCtxs 1 p h.srcChip.toNat h.srcPart.toNat) = r
  have hr : r.2.desk = s.desk := hc ▸ State.desk_chkPick ..
  have hk : ∀ k, r.1 = some k → k < 16 := fun k hk => s.putCtxs_lt (s.mem_of_chkPick (hc ▸ hk))
  obtain ⟨c, u⟩ := r
  cases c with
  | none =>
    cases tr with
    | none => exact hr
    | some t => exact ((State.desk_logD ..).trans (State.desk_setFlag _ _ (by decide) (by decide))).trans hr
  | some k =>
    cases tr with
    | none =>
      exact (State.desk_chkErr _ (hk k rfl) _).trans ((State.desk_freshBits _).trans ((State.desk_chkRun u (hk k rfl) _).trans hr))
    | some t => exact (State.desk_chkCompare u (hk k rfl) _ _).trans hr

end Part

end Sys2Proof.Machine
end

section
/-!
SUPPORT. Plats and frames: what they read after one of them is written, what their operations leave of them, and what the checks of a put's
header depend on (R99 to R102, R438).
-/
namespace Sys2Proof.Machine

/-! ### Records of plats and frames -/

theorem State.plat_of_plats {s t : State} (h : t.plats = s.plats) (p : Nat) : t.plat p = s.plat p := by
  rw [State.plat, h, State.plat]

theorem State.frame_of_plats {s t : State} (h : t.plats = s.plats) (p f : Nat) : t.frame p f = s.frame p f := by
  rw [State.frame, State.plat_of_plats h, State.frame]

@[simp] theorem State.plat_setFrame_same (s : State) (p f : Nat) (x : Frame) :
    (s.setFrame p f x).plat p = { s.plat p with frames := Tbl.set (fun _ => Frame.none) (s.plat p).frames f x } :=
  State.plat_setPlat_same ..

/-- A frame reads as it was last set. -/
@[simp] theorem State.frame_setFrame_same (s : State) (p f : Nat) (x : Frame) : (s.setFrame p f x).frame p f = x := by
  rw [State.frame, State.plat_setFrame_same]
  exact Tbl.get_set_same ..

/-- Setting one frame leaves the others. -/
theorem State.frame_setFrame_ne (s : State) {p f q g : Nat} (x : Frame) (h : q ≠ p ∨ g ≠ f) :
    (s.setFrame p f x).frame q g = s.frame q g := by
  by_cases hq : q = p
  · subst hq
    rw [State.frame, State.plat_setFrame_same]
    exact Tbl.get_set_ne _ _ _ (h.resolve_left fun hn => hn rfl)
  · rw [State.frame, State.setFrame, State.plat_setPlat_ne _ _ hq, State.frame]

/-- A plat with the same frames. -/
theorem State.frame_setPlat (s : State) {p : Nat} {x : PlatSt} (q g : Nat) (h : x.frames = (s.plat p).frames) :
    (s.setPlat p x).frame q g = s.frame q g := by
  by_cases hq : q = p
  · rw [hq, State.frame, State.plat_setPlat_same, h, State.frame]
  · rw [State.frame, State.plat_setPlat_ne _ _ hq, State.frame]

/-! ### Registers of plats, stages and the chip's number -/

/-- The word of a field that lies in one word, after it is written. -/
theorem State.word_setFld_same (s : State) (f : Fld) (v : Nat) (hw : f.lo + f.w ≤ 32) :
    (s.setFld f v).word f.addr = BitVec.ofNat 32 (putBits (s.word f.addr).toNat f.lo f.w v) := by
  rw [State.setFld, if_pos hw, State.word_setWord_same]

/-- A field of one word depends on it alone. -/
theorem State.fld_of_word {s t : State} (f : Fld) (hw : f.lo + f.w ≤ 32) (h : t.word f.addr = s.word f.addr) : t.fld f = s.fld f := by
  rw [State.fld, if_pos hw, h, State.fld, if_pos hw]

/-- Registers from the MMU's block on that background work does not write: the chip's number and each partition's PCTL and PLAT blocks among
them. -/
def platReg (a : Nat) : Prop := 0x80000 ≤ a ∧ backReg a = false

/-- Registers of PCTL and PLAT. -/
theorem platReg_part (p : Nat) {o : Nat} (h : o < 0x8000 ∨ 0x10000 ≤ o ∧ o < 0x100000) : platReg (partBase p + o) := by
  refine ⟨by unfold partBase; omega, ?_⟩
  rw [backReg_partBase_add, Bool.and_eq_false_iff, decide_eq_false_iff_not, decide_eq_false_iff_not]
  omega

theorem platReg_chip : platReg MMU_CTL_CHIP.addr := ⟨by decide, by decide⟩

/-- The chip's number depends on its register. -/
theorem State.chip_of_word {s t : State} (h : ∀ a, platReg a → t.word a = s.word a) : t.chip = s.chip := by
  rw [State.chip, State.fld_of_word MMU_CTL_CHIP (by decide) (h _ platReg_chip), State.chip]

/-! ### What leaves every frame but what it knows of its output -/

/-- The states agree in these registers, in what waits at each plat, and in its frames but for what they know of their output. -/
structure State.SameFrames (s t : State) : Prop where
  word : ∀ a, platReg a → t.word a = s.word a
  waiting : ∀ q, (t.plat q).waiting = (s.plat q).waiting
  frame : ∀ q g, { t.frame q g with out := (s.frame q g).out } = s.frame q g

namespace State.SameFrames

variable {s t u : State}

theorem refl (s : State) : State.SameFrames s s := ⟨fun _ _ => rfl, fun _ => rfl, fun _ _ => rfl⟩

theorem trans (h1 : State.SameFrames s t) (h2 : State.SameFrames t u) : State.SameFrames s u where
  word a ha := (h2.word a ha).trans (h1.word a ha)
  waiting q := (h2.waiting q).trans (h1.waiting q)
  frame q g := by rw [← h1.frame q g, ← h2.frame q g]

/-- Of work that leaves the plats. -/
theorem of_plats (hp : t.plats = s.plats) (hw : ∀ a, platReg a → t.word a = s.word a) : State.SameFrames s t :=
  ⟨hw, fun q => by rw [State.plat_of_plats hp], fun q g => by rw [State.frame_of_plats hp]⟩

theorem of_desk (h : t.desk = s.desk) : State.SameFrames s t :=
  of_plats (State.plats_of_desk h) fun _ ha => State.word_of_desk h ha.2

/-- Of a write below these registers. -/
theorem setFld_low (s : State) (f : Fld) (v : Nat) (hf : f.addr + 4 < 0x80000) : State.SameFrames s (s.setFld f v) :=
  of_plats (State.setFld_plats ..) fun a ha => State.word_setFld_ne _ _ _ _
    ⟨fun e => by have := ha.1; omega, .inr fun e => by have := ha.1; omega⟩

theorem fld (h : State.SameFrames s t) (f : Fld) (hw : f.lo + f.w ≤ 32) (hf : platReg f.addr) : t.fld f = s.fld f :=
  State.fld_of_word f hw (h.word _ hf)

theorem chip (h : State.SameFrames s t) : t.chip = s.chip := State.chip_of_word h.word

/-- Both states count. -/
theorem countUp (h : State.SameFrames s t) (f : Fld) (hw : f.lo + f.w ≤ 32) (hf : platReg f.addr) :
    State.SameFrames (s.countUp f) (t.countUp f) where
  word a ha := by
    by_cases e : a = f.addr
    · subst e
      rw [State.countUp, State.countUp, State.word_setFld_same _ _ _ hw, State.word_setFld_same _ _ _ hw, h.word _ hf, h.fld f hw hf]
    · exact (State.word_setFld_ne _ _ _ _ ⟨e, .inl hw⟩).trans
        ((h.word a ha).trans (State.word_setFld_ne _ _ _ _ ⟨e, .inl hw⟩).symm)
  waiting q := by
    rw [State.plat_of_plats (State.countUp_plats t f), State.plat_of_plats (State.countUp_plats s f), h.waiting]
  frame q g := by
    rw [State.frame_of_plats (State.countUp_plats t f), State.frame_of_plats (State.countUp_plats s f), h.frame]

theorem setPlat (s : State) {p : Nat} {x : PlatSt} (hf : x.frames = (s.plat p).frames) (hw : x.waiting = (s.plat p).waiting) :
    State.SameFrames s (s.setPlat p x) where
  word _ _ := rfl
  waiting q := by
    by_cases hq : q = p
    · rw [hq, State.plat_setPlat_same, hw]
    · rw [State.plat_setPlat_ne _ _ hq]
  frame q g := by rw [State.frame_setPlat s q g hf]

/-- A frame learns of its output. -/
theorem setOut (s : State) (p f : Nat) (o : OutSt) : State.SameFrames s (s.setFrame p f { s.frame p f with out := o }) where
  word _ _ := rfl
  waiting q := by
    by_cases hq : q = p
    · rw [hq, State.plat_setFrame_same]
    · rw [State.setFrame, State.plat_setPlat_ne _ _ hq]
  frame q g := by
    by_cases h : q = p ∧ g = f
    · obtain ⟨rfl, rfl⟩ := h
      rw [State.frame_setFrame_same]
    · rw [State.frame_setFrame_ne _ _ (by omega)]

end State.SameFrames

/-! ### Operations at plats -/

theorem State.same_frameStore (s : State) (p f o : Nat) (d : List Byte) : State.SameFrames s (s.frameStore p f o d) := by
  unfold State.frameStore
  extract_lets cap n pl s1 rest
  have h1 : State.SameFrames s s1 := .setPlat s rfl rfl
  split
  · exact h1
  · exact h1.trans (.of_desk (State.desk_physWrite ..))

/-- A frame's bytes are not its record. -/
theorem State.frame_frameStore (s : State) (p f o : Nat) (d : List Byte) (q g : Nat) : (s.frameStore p f o d).frame q g = s.frame q g := by
  unfold State.frameStore
  extract_lets cap n pl s1 rest
  have h1 : s1.frame q g = s.frame q g := State.frame_setPlat s q g rfl
  split
  · exact h1
  · rw [State.frame_of_plats (State.plats_of_desk (State.desk_physWrite ..)), h1]

@[simp] theorem State.desk_answerPut (s : State) (p : Nat) (h : FrameHdr) (ok : Bool) : (s.answerPut p h ok).desk = s.desk := by
  unfold State.answerPut
  extract_lets c t
  split
  · split
    · rfl
    · simp
  · simp [t]

/-- The answer to a sender on this chip is a message. -/
theorem State.mem_out_answerPut (s : State) (p : Nat) (h : FrameHdr) (ok : Bool) (hc : h.srcChip.toNat = s.chip) :
    (if ok then OutMsg.putAck s.chip h.srcPart.toNat h.slot h.kind else .putNack s.chip h.srcPart.toNat h.slot h.kind) ∈
      (s.answerPut p h ok).out := by
  unfold State.answerPut
  rw [if_neg (not_not.2 hc), hc]
  exact List.mem_append_right _ (List.mem_singleton_self _)

theorem State.same_wakeEvent (s : State) {p : Nat} (hp : p < 8) : State.SameFrames s (s.wakeEvent p) :=
  .of_plats s.leaves_wakeEvent.plats fun a ha => s.leaves_wakeEvent.word a fun hw => by
    have := ha.1
    unfold powerWord at hw
    omega

theorem State.same_lateSlots (s : State) {p : Nat} (hp : p < 8) (slot n : Nat) : State.SameFrames s (s.lateSlots p slot n) := by
  induction n generalizing s with
  | zero => exact .refl s
  | succ n ih =>
    exact ((State.SameFrames.setFld_low s (BEAT_LATE_COUNT p) _ (by simp only; omega)).trans (.of_desk (State.desk_logD ..))).trans (ih _)

/-- What the completion of an output changes: nothing, a slot's record, or what one frame of the plat knows. -/
theorem State.outDone_cases (s : State) (p : Nat) (slot : BitVec 12) (off : Nat) :
    (s.outDone p slot off).2 = s ∨ (∃ k r, (s.outDone p slot off).2 = s.setSlot k r) ∨
      ∃ e ∈ (s.plat p).frames, ∃ o, (s.outDone p slot off).2 = s.setFrame p e.1 { s.frame p e.1 with out := o } := by
  unfold State.outDone
  split
  · next f hf =>
    obtain ⟨e, he, rfl⟩ := Option.map_eq_some_iff.1 hf
    exact .inr (.inr ⟨e, List.mem_of_find?_eq_some he, _, rfl⟩)
  · dsimp only
    split
    · exact .inr (.inl ⟨_, _, rfl⟩)
    · exact .inl rfl

theorem State.same_outDone (s : State) (p : Nat) (slot : BitVec 12) (off : Nat) : State.SameFrames s (s.outDone p slot off).2 := by
  rcases s.outDone_cases p slot off with h | ⟨k, r, h⟩ | ⟨e, -, o, h⟩
  · rw [h]
    exact .refl s
  · rw [h]
    exact .of_plats rfl fun _ _ => rfl
  · rw [h]
    exact .setOut ..

/-- A frame that no table entry names learns nothing. -/
theorem State.frame_outDone_unlisted (s : State) (p : Nat) (slot : BitVec 12) (off : Nat) {q g : Nat}
    (hg : ∀ e ∈ (s.plat q).frames, e.1 ≠ g) : (s.outDone p slot off).2.frame q g = s.frame q g := by
  rcases s.outDone_cases p slot off with h | ⟨k, r, h⟩ | ⟨e, he, o, h⟩
  · rw [h]
  · rw [h]
    rfl
  · rw [h]
    refine State.frame_setFrame_ne _ _ ?_
    by_cases hq : q = p
    · subst hq
      exact .inr (hg e he).symm
    · exact .inl hq

/-- No output to note, nothing changed. -/
theorem State.outDone_of_none {s : State} {p : Nat} {slot : BitVec 12} {off : Nat} (h : (s.outDone p slot off).1 = false) :
    (s.outDone p slot off).2 = s := by
  unfold State.outDone at h ⊢
  cases ho : s.owedFrame p slot with
  | some f => simp [ho] at h
  | none =>
    rw [ho] at h
    dsimp only at h ⊢
    split at h
    · cases h
    · next hn => rw [if_neg hn]

/-- A put's completion is noted at its partition, or at the spare that stands for it. -/
theorem State.outDoneAt_eq (s : State) (p : Nat) (slot : BitVec 12) (off : Nat) :
    ∃ q, (s.outDoneAt p slot off).2 = (s.outDone q slot off).2 := by
  unfold State.outDoneAt
  dsimp only
  split
  · exact ⟨p, rfl⟩
  · next hr =>
    split
    · next q _ => exact ⟨q, by rw [State.outDone_of_none (Bool.eq_false_iff.2 hr)]⟩
    · exact ⟨p, rfl⟩

end Sys2Proof.Machine
end

section
/-!
SUPPORT. The header of a put: its checks, its frame, and what becomes of it (R100, R102).
-/
namespace Sys2Proof.Machine

/-! ### What the checks of a header read -/

/-- The states agree in the registers that a header's checks read, the takeovers, and the frames of every plat. -/
structure State.SameChecks (s t : State) : Prop where
  word : ∀ a, platReg a → t.word a = s.word a
  fo : t.fo = s.fo
  frames : ∀ q, (t.plat q).frames = (s.plat q).frames

namespace State.SameChecks

variable {s t u : State} (h : State.SameChecks s t)
include h

theorem trans (h2 : State.SameChecks t u) : State.SameChecks s u :=
  ⟨fun a ha => (h2.word a ha).trans (h.word a ha), h2.fo.trans h.fo, fun q => (h2.frames q).trans (h.frames q)⟩

theorem frame (q g : Nat) : t.frame q g = s.frame q g := by rw [State.frame, h.frames, State.frame]

theorem chip : t.chip = s.chip := State.chip_of_word h.word

/-- Of a field of PCTL or PLAT. -/
theorem fld (p : Nat) {o lo w : Nat} (ho : o < 0x8000 ∨ 0x10000 ≤ o ∧ o < 0x100000) (hw : lo + w ≤ 32) :
    t.fld ⟨partBase p + o, lo, w⟩ = s.fld ⟨partBase p + o, lo, w⟩ :=
  State.fld_of_word _ hw (h.word _ (platReg_part p ho))

theorem flag (p : Nat) {o lo w : Nat} (ho : o < 0x8000 ∨ 0x10000 ≤ o ∧ o < 0x100000) (hw : lo + w ≤ 32) :
    t.flag ⟨partBase p + o, lo, w⟩ = s.flag ⟨partBase p + o, lo, w⟩ := by rw [State.flag, h.fld p ho hw, State.flag]

theorem stageRole (n p : Nat) : t.stageRole n p = s.stageRole n p := by
  induction n generalizing p with
  | zero => exact h.fld p (by decide) (by decide)
  | succ n ih =>
    rw [State.stageRole, State.stageRole, h.flag p (by decide) (by decide), h.fld p (o := 0x40) (by decide) (by decide),
      h.fld p (o := 0x0) (by decide) (by decide), ih]

theorem putRole (p : Nat) : t.putRole p = s.putRole p := by
  have hr : t.role p = s.role p := h.fld p (by decide) (by decide)
  rw [State.putRole, hr, h.stageRole, State.putRole]

theorem srcOk (p : Nat) (x : FrameHdr) : t.srcOk p x = s.srcOk p x := by
  have hb : ∀ q, t.sameBinding p q = s.sameBinding p q := fun q => by
    simp only [State.sameBinding, h.fld _ (show 0x28 < 0x8000 ∨ _ from .inl (by decide)) (show 0 + 12 ≤ 32 by decide),
      h.flag _ (show 0x28 < 0x8000 ∨ _ from .inl (by decide)) (show 20 + 1 ≤ 32 by decide)]
  simp only [State.srcOk, h.putRole, h.chip, hb, h.fld p (show 0xc < 0x8000 ∨ _ from .inl (by decide)) (show 0 + 6 ≤ 32 by decide),
    h.fld p (show 0xc < 0x8000 ∨ _ from .inl (by decide)) (show 8 + 3 ≤ 32 by decide)]

theorem forwardChain (n p : Nat) : t.forwardChain n p = s.forwardChain n p := by
  induction n generalizing p with
  | zero => rfl
  | succ n ih =>
    have hf : t.foOf p = s.foOf p := by rw [State.foOf, h.fo, State.foOf]
    simp only [State.forwardChain, hf, ih]

theorem isDup (p : Nat) (x : FrameHdr) : t.isDup p x = s.isDup p x := by
  simp only [State.isDup, State.holdsSame, State.forwardsTo, h.forwardChain, h.frames]

theorem frameKib (p : Nat) : t.frameKib p = s.frameKib p := by
  rw [State.frameKib, h.fld p (by decide) (by decide), State.frameKib]

theorem headerErr (p : Nat) (x : FrameHdr) : t.headerErr p x = s.headerErr p x := by
  have hc : t.frameCap p = s.frameCap p := by
    rw [State.frameCap, h.frameKib, h.fld p (by decide) (by decide), State.frameCap]
  simp only [State.headerErr, h.putRole, h.srcOk, hc, h.isDup]

theorem lowFree (p : Nat) : t.lowFree p = s.lowFree p := by
  simp only [State.lowFree, State.nf, h.frameKib, h.frame]

end State.SameChecks

/-! ### Stores that a put waits for (Table 6-15) -/

/-- The drains before a put leave every plat and what a header's checks read. -/
theorem State.plats_drainClu (s : State) (p c : Nat) : State.SameChecks s (s.drainClu p c) ∧ (s.drainClu p c).plats = s.plats := by
  have h : (s.drainWait (.fence p c) .fence (s.clu p c).stores).desk = s.desk := State.desk_drainWait ..
  have hp : (s.drainClu p c).plats = s.plats := (State.plats_of_desk h :)
  exact ⟨⟨fun a ha => (State.word_of_desk h ha.2 :), (State.fo_of_desk h :), fun q => by rw [State.plat_of_plats hp]⟩, hp⟩

theorem State.plats_putDrain (s : State) (p : Nat) : State.SameChecks s (s.putDrain p) ∧ (s.putDrain p).plats = s.plats := by
  unfold State.putDrain
  generalize List.range 20 = l
  induction l generalizing s with
  | nil => exact ⟨⟨fun _ _ => rfl, rfl, fun _ => rfl⟩, rfl⟩
  | cons c l ih =>
    obtain ⟨hc, hp⟩ := s.plats_drainClu p c
    obtain ⟨hc2, hp2⟩ := ih (s.drainClu p c)
    exact ⟨hc.trans hc2, hp2.trans hp⟩

/-! ### The frame of a header -/

/-- Which frame a header finds depends on the checks' registers and the plat; a reservation used up is all that changes. -/
theorem State.headerFrame_congr {s t : State} (h : State.SameChecks s t) (hp : t.plats = s.plats) (p : Nat) (x : FrameHdr) :
    (t.headerFrame p x).1 = (s.headerFrame p x).1 := by
  have hpl := State.plat_of_plats hp p
  have hnf : t.nf p = s.nf p := by rw [State.nf, h.frameKib, State.nf]
  have hfree : t.freeFrame p = s.freeFrame p := by rw [State.freeFrame, hpl, hnf, h.lowFree, State.freeFrame]
  unfold State.headerFrame
  rw [h.chip, hpl]
  dsimp only
  split
  · exact h.lowFree p
  · exact hfree

/-- What remains after a reservation is used up. -/
theorem State.headerFrame_snd (s : State) (p : Nat) (x : FrameHdr) :
    ∃ r, (s.headerFrame p x).2 = s.setPlat p { s.plat p with reserved := r } ∨ (s.headerFrame p x).2 = s := by
  unfold State.headerFrame
  extract_lets key pl
  split
  · exact ⟨_, .inl rfl⟩
  · exact ⟨[], .inr rfl⟩

/-- It shows the same frames, discarded puts and waiting ones. -/
theorem State.headerFrame_shows (s : State) (p : Nat) (x : FrameHdr) : State.SameChecks s (s.headerFrame p x).2 ∧
    ((s.headerFrame p x).2.plat p).drops = (s.plat p).drops ∧ ((s.headerFrame p x).2.plat p).waiting = (s.plat p).waiting := by
  obtain ⟨r, h | h⟩ := s.headerFrame_snd p x
  · rw [h]
    refine ⟨⟨fun _ _ => rfl, rfl, fun q => ?_⟩, ?_⟩
    · by_cases hq : q = p
      · rw [hq, State.plat_setPlat_same]
      · rw [State.plat_setPlat_ne _ _ hq]
    · rw [State.plat_setPlat_same]
      exact ⟨rfl, rfl⟩
  · rw [h]
    exact ⟨⟨fun _ _ => rfl, rfl, fun _ => rfl⟩, rfl, rfl⟩

/-! ### Discarded puts -/

/-- The bit of PLAT_ERR of an error. -/
def PutErr.bit (e : PutErr) (p : Nat) : Fld :=
  match e with
  | .src => PLAT_ERR_SRC p
  | .hdr => PLAT_ERR_HDR p
  | .check => PLAT_ERR_CHECK p
  | .dup => PLAT_ERR_DUP p

theorem PutErr.bit_shape (e : PutErr) (p : Nat) :
    (e.bit p).addr = partBase p + 0x18018 ∧ (e.bit p).lo + (e.bit p).w ≤ 32 ∧ (e.bit p).w = 1 := by
  cases e <;> exact ⟨rfl, by simp [PutErr.bit], rfl⟩

/-- The event of an error. -/
def PutErr.event : PutErr → EvKind
  | .src => ev_PLAT_SRC
  | .hdr => ev_PLAT_HDR
  | .check => ev_PLAT_CHECK
  | .dup => ev_PLAT_DUP

/-- A discarded put's frame is freed, its error shown and logged. -/
def State.discardNoted (s : State) (p f : Nat) (h : FrameHdr) (e : PutErr) : State :=
  ((s.setFrame p f Frame.none).setFlag (e.bit p) true).logD e.event (blkPart p) 0 [h.slot.toNat, h.reqSeq.toNat]

/-- Then its sender is answered, or remembered. -/
theorem State.discardPut_eq (s : State) (p f : Nat) (h : FrameHdr) (e : PutErr) (last : Bool) :
    s.discardPut p f h e last = if last then (s.discardNoted p f h e).answerPut p h (e = .dup)
      else (s.discardNoted p f h e).setPlat p { (s.discardNoted p f h e).plat p with
        drops := ((s.discardNoted p f h e).plat p).drops ++ [⟨f, h, decide (e = .dup)⟩] } := by
  unfold State.discardPut
  cases e <;> rfl

section Discard
variable (s : State) (p f : Nat) (h : FrameHdr) (e : PutErr)

theorem State.desk_discardNoted : (s.discardNoted p f h e).desk = ((s.setFrame p f Frame.none).setFlag (e.bit p) true).desk :=
  State.desk_logD ..

theorem State.plats_discardNoted : (s.discardNoted p f h e).plats = (s.setFrame p f Frame.none).plats :=
  (State.plats_of_desk (s.desk_discardNoted p f h e)).trans (State.setFlag_plats ..)

theorem State.plat_discardNoted : (s.discardNoted p f h e).plat p =
    { s.plat p with frames := Tbl.set (fun _ => Frame.none) (s.plat p).frames f Frame.none } := by
  rw [State.plat_of_plats (s.plats_discardNoted p f h e), State.plat_setFrame_same]

theorem State.frame_discardNoted_same : (s.discardNoted p f h e).frame p f = Frame.none := by
  rw [State.frame_of_plats (s.plats_discardNoted p f h e), State.frame_setFrame_same]

theorem State.frame_discardNoted_ne {g : Nat} (hg : g ≠ f) : (s.discardNoted p f h e).frame p g = s.frame p g := by
  rw [State.frame_of_plats (s.plats_discardNoted p f h e), State.frame_setFrame_ne _ _ (.inr hg)]

theorem State.flag_discardNoted : (s.discardNoted p f h e).flag (e.bit p) = true := by
  obtain ⟨ha, hw, h1⟩ := e.bit_shape p
  have hr : platReg (e.bit p).addr := ha ▸ platReg_part p (by decide)
  rw [State.flag, State.fld_of_word _ hw (State.word_of_desk (s.desk_discardNoted p f h e) hr.2)]
  exact State.flag_setFlag_same _ _ _ hw h1

theorem State.chip_discardNoted : (s.discardNoted p f h e).chip = s.chip := by
  obtain ⟨ha, hw, -⟩ := e.bit_shape p
  have hc : ((s.setFrame p f Frame.none).setFlag (e.bit p) true).fld MMU_CTL_CHIP = s.fld MMU_CTL_CHIP :=
    State.fld_setFld_apart _ _ _ _ hw (by decide) (.inl (by rw [ha]; simp only [partBase]; omega))
  rw [State.chip, State.fld_of_word MMU_CTL_CHIP (by decide) (State.word_of_desk (s.desk_discardNoted p f h e) platReg_chip.2), hc,
    State.chip]

end Discard

/-! ### PUT_HEADER -/

/-- A header that takes frame `f`. -/
theorem State.acceptHeader_shows (s : State) (p f : Nat) (h : FrameHdr) : let t := s.acceptHeader p f h
    (∀ g, g ≠ f → t.frame p g = s.frame p g) ∧
    (s.headerErr p h = none → t.frame p f = { Frame.none with st := .filling, hdr := h }) ∧
    (∀ e, s.headerErr p h = some e → t.frame p f = Frame.none ∧
      (t.plat p).drops = (s.plat p).drops ++ [⟨f, h, decide (e = .dup)⟩] ∧ t.flag (e.bit p) = true) := by
  cases he : s.headerErr p h with
  | none =>
    have ht : s.acceptHeader p f h = (s.setFrame p f { Frame.none with st := .filling, hdr := h }).frameStore p f 0 h.bytes := by
      rw [State.acceptHeader, he]
    rw [ht]
    refine ⟨fun g hg => ?_, fun _ => ?_, nofun⟩
    · rw [State.frame_frameStore, State.frame_setFrame_ne _ _ (.inr hg)]
    · rw [State.frame_frameStore, State.frame_setFrame_same]
  | some e =>
    have ht : s.acceptHeader p f h = s.discardPut p f h e false := by rw [State.acceptHeader, he]
    rw [ht, State.discardPut_eq, if_neg Bool.false_ne_true]
    refine ⟨fun g hg => ?_, nofun, fun e' he' => ?_⟩
    · exact (State.frame_setPlat _ p g (by rfl)).trans (s.frame_discardNoted_ne p f h e hg)
    · obtain rfl := Option.some.inj he'
      refine ⟨(State.frame_setPlat _ p f (by rfl)).trans (s.frame_discardNoted_same p f h e), ?_, s.flag_discardNoted p f h e⟩
      rw [State.plat_setPlat_same, State.plat_discardNoted]

/-- Of a header that finds a frame. -/
theorem State.putHeader_of_frame {s : State} {p f : Nat} {h : FrameHdr} (hf : (s.headerFrame p h).1 = some f) :
    let t := s.putHeader p h
    (∀ g, g ≠ f → t.frame p g = s.frame p g) ∧
    (s.headerErr p h = none → t.frame p f = { Frame.none with st := .filling, hdr := h }) ∧
    (∀ e, s.headerErr p h = some e → t.frame p f = Frame.none ∧
      (t.plat p).drops = (s.plat p).drops ++ [⟨f, h, decide (e = .dup)⟩] ∧ t.flag (e.bit p) = true) := by
  obtain ⟨hc, hd, -⟩ := s.headerFrame_shows p h
  obtain ⟨h1, h2, h3⟩ := (s.headerFrame p h).2.acceptHeader_shows p f h
  have ht : s.putHeader p h = (s.headerFrame p h).2.acceptHeader p f h := by
    unfold State.putHeader
    extract_lets r
    rw [show r.1 = some f from hf]
  rw [hc.headerErr] at h2 h3
  rw [hd] at h3
  rw [ht]
  exact ⟨fun g hg => (h1 g hg).trans (hc.frame p g), h2, h3⟩

/-- Of a header that finds none: it waits. -/
theorem State.putHeader_of_none {s : State} {p : Nat} {h : FrameHdr} (hf : (s.headerFrame p h).1 = none) :
    let t := s.putHeader p h
    (t.plat p).waiting = (s.plat p).waiting ++ [.put h] ∧ (∀ g, t.frame p g = s.frame p g) ∧
      t.fld (PLAT_HELD_CNT_COUNT p) = (s.fld (PLAT_HELD_CNT_COUNT p) + 1) % 2 ^ 32 := by
  obtain ⟨hc, -, hw⟩ := s.headerFrame_shows p h
  have ht : s.putHeader p h = (s.headerFrame p h).2.platWait p (.put h) := by
    unfold State.putHeader
    extract_lets r
    rw [show r.1 = none from hf]
  rw [ht, State.platWait]
  generalize (s.headerFrame p h).2 = r at hc hw
  have hpl := State.countUp_plats (r.setPlat p { r.plat p with waiting := (r.plat p).waiting ++ [.put h] }) (PLAT_HELD_CNT_COUNT p)
  refine ⟨?_, fun g => ?_, ?_⟩
  · rw [State.plat_of_plats hpl, State.plat_setPlat_same, hw]
  · rw [State.frame_of_plats hpl]
    exact (State.frame_setPlat r p g (by rfl)).trans (hc.frame p g)
  · rw [State.countUp, State.fld_setFld_same _ _ _ (by simp)]
    exact congrArg (fun n => (n + 1) % 2 ^ 32) (hc.fld p (by decide) (by decide))

end Sys2Proof.Machine
end

section
/-!
SUPPORT. The end of a put, and O33 (R100 to R102, R437, R438, Table 5-10).
-/
namespace Sys2Proof.Machine

/-! ### What a put's completion leaves -/

/-- With no put waiting, none is let in. -/
theorem State.letIn_of_noneWaits {s : State} {p : Nat} (h : (s.plat p).waiting = []) : s.letIn p = s := by
  rw [State.letIn, h, State.admitWaiting]

/-- PUT_COMPLETE with no put waiting after it. -/
theorem exec_putComplete {s : State} {p : Part} {f : Fin 4096} {a : PutEnd} (h : ((s.putComplete p f a).plat p).waiting = []) :
    exec (.putComplete p f a) s = .next (s.putComplete p f a) :=
  congrArg Host.Outcome.next (State.letIn_of_noneWaits h)

/-- The frame that a put leaves READY in the present beat. -/
def State.readyFrame (s : State) (h : FrameHdr) (late : Bool) : Frame :=
  { Frame.none with st := .ready, hdr := { h with late := late }, doneIdx := s.beat.idx, doneOff := s.beat.tick - s.beat.bk }

/-- A completed frame is READY and counted; else frames change in what they know of their output. -/
theorem State.frameReady_same (s : State) {p : Nat} (hp : p < 8) (f : Nat) (h : FrameHdr) :
    ∃ late, State.SameFrames ((s.setFrame p f (s.readyFrame h late)).countUp (PLAT_PUTS_COUNT p)) (s.frameReady p f h) := by
  unfold State.frameReady
  extract_lets off now join lateBy x y s1 s2 s3 r
  have h1 : State.SameFrames (s.setFrame p f (s.readyFrame h (decide (0 < lateBy)))) s1 := State.same_frameStore ..
  have h2 : State.SameFrames ((s.setFrame p f (s.readyFrame h (decide (0 < lateBy)))).countUp (PLAT_PUTS_COUNT p)) s2 :=
    h1.countUp _ (by simp) (platReg_part p (by decide))
  have h3 : State.SameFrames s2 s3 := by
    unfold s3
    split
    · exact State.same_wakeEvent _ hp
    · exact .refl _
  refine ⟨decide (0 < lateBy), (h2.trans h3).trans ?_⟩
  split
  · split
    · obtain ⟨q, hq⟩ := s3.outDoneAt_eq h.srcPart.toNat h.slot off
      rw [show r.2 = _ from hq]
      exact State.same_outDone ..
    · exact State.same_lateSlots _ h.srcPart.isLt ..
  · exact .refl _

/-! ### The ends of a put -/

/-- PUT_COMPLETE of a put that was discarded before. -/
theorem State.putComplete_of_dropped {s : State} {p f : Nat} {a : PutEnd} {d : DropPut} (ha : a.dropped = true)
    (hd : (s.plat p).drops.find? (fun x => x.frame == f) = some d) :
    s.putComplete p f a = (s.setPlat p { s.plat p with drops := (s.plat p).drops.erase d }).answerPut p d.hdr d.ack := by
  simp only [State.putComplete, ha, if_true, State.dropEnd, hd]

section Filling
variable {s : State} {p f : Nat} {a : PutEnd} (hd : a.dropped = false) (hst : (s.frame p f).st = .filling)
  (hlen : a.payload.length = (s.frame p f).hdr.len.toNat)
include hd hst hlen

theorem State.putComplete_of_poison (h : a.poison = true) :
    s.putComplete p f a = s.discardPut p f (s.frame p f).hdr .hdr true := by
  simp [State.putComplete, hd, hst, hlen, h]

theorem State.putComplete_of_bad (h : a.poison = false) (hc : (s.chkPut p (s.frame p f).hdr a.payload a.trailer).1 = false) :
    s.putComplete p f a =
      (s.chkPut p (s.frame p f).hdr a.payload a.trailer).2.discardPut p f (s.frame p f).hdr .check true := by
  simp [State.putComplete, hd, hst, hlen, h, hc]

/-- The output that a drained put was, where its producer is on this chip. -/
def State.drainedOut (s : State) (h : FrameHdr) (chip off : Nat) : State :=
  if h.srcChip.toNat = chip ∧ hasDue h = true then (s.outDoneAt h.srcPart.toNat h.slot off).2 else s

theorem State.putComplete_of_drain (h : a.poison = false) (hc : (s.chkPut p (s.frame p f).hdr a.payload a.trailer).1 = true)
    (hcmd : s.act (PCTL_CMD_CMD p) = 1) :
    s.putComplete p f a =
      ((((s.chkPut p (s.frame p f).hdr a.payload a.trailer).2.setFrame p f Frame.none).countUp (PLAT_PUTS_COUNT p)).drainedOut
        (s.frame p f).hdr s.chip (s.beat.tick - s.beat.bk)).ackPut p (s.frame p f).hdr := by
  simp [State.putComplete, hd, hst, hlen, h, hc, hcmd, State.drainedOut]

theorem State.putComplete_of_good (h : a.poison = false) (hc : (s.chkPut p (s.frame p f).hdr a.payload a.trailer).1 = true)
    (hcmd : s.act (PCTL_CMD_CMD p) ≠ 1) (hfo : s.forwardsTo p = none) :
    s.putComplete p f a =
      (((s.chkPut p (s.frame p f).hdr a.payload a.trailer).2.frameReady p f (s.frame p f).hdr).frameStore p f 64 a.payload).ackPut p
        (s.frame p f).hdr := by
  simp [State.putComplete, hd, hst, hlen, h, hc, hcmd, hfo]

end Filling

/-! ### What they show -/

/-- The answer of a put's sender where it is on this chip. -/
def State.answer (s : State) (h : FrameHdr) (ok : Bool) : OutMsg :=
  if ok then .putAck s.chip h.srcPart.toNat h.slot h.kind else .putNack s.chip h.srcPart.toNat h.slot h.kind

/-- A state as an answered put leaves it, compared with the one before the put. -/
structure State.Ended (s : State) (p f : Nat) (h : FrameHdr) (ok : Bool) (t : State) : Prop where
  waiting : (t.plat p).waiting = (s.plat p).waiting
  others : ∀ g, g ≠ f → { t.frame p g with out := (s.frame p g).out } = s.frame p g
  sent : h.srcChip.toNat = s.chip → s.answer h ok ∈ t.out

/-- The answer comes last. -/
theorem State.Ended.of_answer {s u : State} {p f : Nat} {h : FrameHdr} {ok : Bool} (hw : (u.plat p).waiting = (s.plat p).waiting)
    (ho : ∀ g, g ≠ f → { u.frame p g with out := (s.frame p g).out } = s.frame p g) (hc : u.chip = s.chip) :
    State.Ended s p f h ok (u.answerPut p h ok) where
  waiting := by rw [State.plat_of_plats (State.plats_of_desk (State.desk_answerPut ..)), hw]
  others g hg := by rw [State.frame_of_plats (State.plats_of_desk (State.desk_answerPut ..)), ho g hg]
  sent hs := by
    have := u.mem_out_answerPut p h ok (hs.trans hc.symm)
    rwa [hc] at this

/-- A discarded put, its sender answered. -/
theorem State.discardPut_ended {s r : State} (hr : r.desk = s.desk) (p f : Nat) (h : FrameHdr) (e : PutErr) :
    State.Ended s p f h (e = .dup) (r.discardPut p f h e true) ∧ (r.discardPut p f h e true).frame p f = Frame.none ∧
      (r.discardPut p f h e true).flag (e.bit p) = true := by
  obtain ⟨ha, hw, -⟩ := e.bit_shape p
  have hd := State.desk_answerPut (r.discardNoted p f h e) p h (e = .dup)
  rw [State.discardPut_eq, if_pos rfl]
  refine ⟨.of_answer ?_ (fun g hg => ?_) ?_, ?_, ?_⟩
  · rw [State.plat_discardNoted, State.plat_of_plats (State.plats_of_desk hr)]
  · rw [r.frame_discardNoted_ne p f h e hg, State.frame_of_plats (State.plats_of_desk hr)]
  · exact (r.chip_discardNoted p f h e).trans (State.SameFrames.of_desk hr).chip
  · rw [State.frame_of_plats (State.plats_of_desk hd), State.frame_discardNoted_same]
  · rw [State.flag, (State.SameFrames.of_desk hd).fld _ hw (ha ▸ platReg_part p (by decide))]
    exact r.flag_discardNoted p f h e

/-- One frame set and the puts counted, then nothing but what frames know of their output, and the answer. -/
theorem State.counted_ended {s r u : State} (hr : r.desk = s.desk) {p f : Nat} {x : Frame} (h : FrameHdr) (ok : Bool)
    (hu : State.SameFrames ((r.setFrame p f x).countUp (PLAT_PUTS_COUNT p)) u) :
    State.Ended s p f h ok (u.answerPut p h ok) ∧
      (u.answerPut p h ok).fld (PLAT_PUTS_COUNT p) = (s.fld (PLAT_PUTS_COUNT p) + 1) % 2 ^ 32 ∧
      { (u.answerPut p h ok).frame p f with out := x.out } = x := by
  have hpl := State.countUp_plats (r.setFrame p f x) (PLAT_PUTS_COUNT p)
  have hs := State.SameFrames.of_desk hr
  have ht := hu.trans (.of_desk (State.desk_answerPut u p h ok))
  refine ⟨.of_answer ?_ (fun g hg => ?_) ?_, ?_, ?_⟩
  · rw [hu.waiting, State.plat_of_plats hpl, State.plat_setFrame_same]
    exact hs.waiting p
  · have h1 := hu.frame p g
    rwa [State.frame_of_plats hpl, State.frame_setFrame_ne _ _ (.inr hg), State.frame_of_plats (State.plats_of_desk hr)] at h1
  · have hc : ((r.setFrame p f x).countUp (PLAT_PUTS_COUNT p)).fld MMU_CTL_CHIP = r.fld MMU_CTL_CHIP :=
      State.fld_setFld_apart _ _ _ _ (by simp) (by decide) (.inl (by simp only [partBase]; omega))
    rw [hu.chip, State.chip, hc, ← State.chip, hs.chip]
  · have hn : (r.setFrame p f x).fld (PLAT_PUTS_COUNT p) = s.fld (PLAT_PUTS_COUNT p) :=
      hs.fld _ (by simp) (platReg_part p (by decide))
    rw [ht.fld _ (by simp) (platReg_part p (by decide)), State.countUp, State.fld_setFld_same _ _ _ (by simp), hn]
  · have h1 := ht.frame p f
    rwa [State.frame_of_plats hpl, State.frame_setFrame_same] at h1

/-- A put that DRAIN discards: its frame is free. -/
theorem State.frame_drainedOut (s : State) (p f : Nat) (h : FrameHdr) (chip off : Nat) :
    State.SameFrames ((s.setFrame p f Frame.none).countUp (PLAT_PUTS_COUNT p))
      (((s.setFrame p f Frame.none).countUp (PLAT_PUTS_COUNT p)).drainedOut h chip off) ∧
    (((s.setFrame p f Frame.none).countUp (PLAT_PUTS_COUNT p)).drainedOut h chip off).frame p f = Frame.none := by
  have hpl := State.countUp_plats (s.setFrame p f Frame.none) (PLAT_PUTS_COUNT p)
  have hfr : ((s.setFrame p f Frame.none).countUp (PLAT_PUTS_COUNT p)).frame p f = Frame.none := by
    rw [State.frame_of_plats hpl, State.frame_setFrame_same]
  unfold State.drainedOut
  split
  · obtain ⟨q, hq⟩ := ((s.setFrame p f Frame.none).countUp (PLAT_PUTS_COUNT p)).outDoneAt_eq h.srcPart.toNat h.slot off
    rw [hq]
    refine ⟨State.same_outDone .., (State.frame_outDone_unlisted _ _ _ _ fun e he => ?_).trans hfr⟩
    rw [State.plat_of_plats hpl, State.plat_setFrame_same, Tbl.set, if_pos rfl] at he
    exact (Tbl.not_mem_erase _ _ _ he).1
  · exact ⟨.refl _, hfr⟩

/-! ### O33 -/

/-- PUT_COMPLETE that ends so, with no put waiting. -/
theorem exec_putComplete_of_ended {s t : State} {p : Part} {f : Fin 4096} {a : PutEnd} {h : FrameHdr} {ok : Bool}
    (hw : (s.plat p).waiting = []) (ht : s.putComplete p f a = t) (he : State.Ended s p f h ok t) :
    exec (.putComplete p f a) s = .next t := by
  subst ht
  exact exec_putComplete (he.waiting.trans hw)

/-- Settles O33: the header's checks read what the drains before a put leave; a put's end sets one frame, counts, and answers last. -/
theorem putsIntoPlats : Obligations.PutsIntoPlats := by
  unfold Obligations.PutsIntoPlats
  have hdrain : ∀ (s : State) (h : PutHdr), let u := if h.srcChip.toNat = s.chip then s.putDrain h.srcPart.toNat else s
      State.SameChecks s u ∧ u.plats = s.plats := fun s h => by
    dsimp only
    split
    · exact s.plats_putDrain _
    · exact ⟨⟨fun _ _ => rfl, rfl, fun _ => rfl⟩, rfl⟩
  refine ⟨fun s p h f hf => ?_, fun s p h hf => ?_, fun s p f a d ha hw hd => ?_, fun s p f a => ?_⟩
  · obtain ⟨hc, hp⟩ := hdrain s h
    obtain ⟨ho, hnone, herr⟩ := State.putHeader_of_frame ((State.headerFrame_congr hc hp p (putFrame h)).trans hf)
    rw [hc.headerErr] at hnone herr
    refine ⟨_, rfl, fun g hg => (ho g hg).trans (hc.frame p g), hnone, fun e he => ?_⟩
    obtain ⟨hfr, hdr, hfl⟩ := herr e he
    rw [State.plat_of_plats hp] at hdr
    exact ⟨hfr, hdr, by rintro rfl; exact hfl, by rintro rfl; exact hfl, by rintro rfl; exact hfl⟩
  · obtain ⟨hc, hp⟩ := hdrain s h
    obtain ⟨hw, hfr, hn⟩ := State.putHeader_of_none ((State.headerFrame_congr hc hp p (putFrame h)).trans hf)
    rw [State.plat_of_plats hp] at hw
    rw [hc.fld p (by decide) (by decide)] at hn
    exact ⟨_, rfl, hw, fun g => (hfr g).trans (hc.frame p g), hn⟩
  · have he := State.putComplete_of_dropped ha hd
    have hk := State.plats_of_desk (State.desk_answerPut (s.setPlat p { s.plat p with drops := (s.plat p).drops.erase d }) p d.hdr d.ack)
    refine ⟨_, exec_putComplete ?_, ?_, fun g => ?_, fun hs => ?_⟩ <;> rw [he]
    · rw [State.plat_of_plats hk, State.plat_setPlat_same, hw]
    · rw [State.plat_of_plats hk, State.plat_setPlat_same]
    · rw [State.frame_of_plats hk]
      exact State.frame_setPlat s p g rfl
    · exact State.mem_out_answerPut _ p d.hdr d.ack hs
  · intro x c here same hd hst hlen hw
    have hr : c.2.desk = s.desk := State.desk_chkPut ..
    refine ⟨fun hp => ?_, fun hp hc => ?_, fun hp hc hcmd => ?_, fun hp hc hcmd hfo => ?_⟩
    · obtain ⟨he, hfr, hfl⟩ := State.discardPut_ended (rfl : s.desk = s.desk) p f x.hdr .hdr
      exact ⟨_, exec_putComplete_of_ended hw (State.putComplete_of_poison hd hst hlen hp) he, hfr, he.others, hfl, he.sent⟩
    · obtain ⟨he, hfr, hfl⟩ := State.discardPut_ended hr p f x.hdr .check
      exact ⟨_, exec_putComplete_of_ended hw (State.putComplete_of_bad hd hst hlen hp hc) he, hfr, he.others, hfl, he.sent⟩
    · obtain ⟨hu, hfr⟩ := c.2.frame_drainedOut p f x.hdr s.chip (s.beat.tick - s.beat.bk)
      obtain ⟨he, hn, -⟩ := State.counted_ended hr x.hdr true hu
      exact ⟨_, exec_putComplete_of_ended hw (State.putComplete_of_drain hd hst hlen hp hc hcmd) he,
        (State.frame_of_plats (State.plats_of_desk (State.desk_answerPut ..)) _ _).trans hfr, he.others, hn, he.sent⟩
    · obtain ⟨late, hu⟩ := c.2.frameReady_same p.isLt f x.hdr
      obtain ⟨he, hn, hfr⟩ := State.counted_ended hr x.hdr true (hu.trans (State.same_frameStore _ p f 64 a.payload))
      have hst' := congrArg Frame.st hfr
      have hdone := congrArg Frame.doneIdx hfr
      have hhdr := congrArg Frame.hdr hfr
      refine ⟨_, exec_putComplete_of_ended hw (State.putComplete_of_good hd hst hlen hp hc hcmd hfo) he, hst',
        hdone.trans (congrArg BeatSt.idx (State.beat_of_desk hr)), ?_, he.others, hn, he.sent⟩
      exact congrArg (fun y : FrameHdr => { y with late := x.hdr.late }) hhdr

end Sys2Proof.Machine
end

section
/-!
SUPPORT. Takeovers and compute faults, and O35 (R106, R107, R435).
-/
namespace Sys2Proof.Machine

/-! ### Takeovers' records -/

/-- A takeover's record reads as it was last set. -/
@[simp] theorem State.foOf_setFo_same (s : State) (p : Nat) (x : FoSt) : (s.setFo p x).foOf p = x := Tbl.get_set_same ..

theorem State.foOf_of_fo {s t : State} (h : t.fo = s.fo) (p : Nat) : t.foOf p = s.foOf p := by rw [State.foOf, h, State.foOf]

@[simp] theorem State.foOf_useEnd (s : State) (u : TransUse) (p : Nat) : (s.useEnd u).foOf p = s.foOf p := rfl

theorem State.fo_wakeEvent (s : State) (p : Nat) : (s.wakeEvent p).fo = s.fo := by
  unfold State.wakeEvent
  extract_lets x
  split
  · rfl
  · split
    · rfl
    · split
      · rfl
      · exact State.setFlag_fo ..

/-! ### A compute fault -/

/-- A failover trigger writes no register of a plat or a stage. -/
theorem State.word_foTrigger (s : State) (p : Nat) {a : Nat} (ha : platReg a) : (s.foTrigger p).word a = s.word a := by
  unfold State.foTrigger
  split
  · exact (State.same_wakeEvent _ (s.fld_lt (PCTL_FO_SPARE p))).word a ha
  · exact State.word_of_desk (State.desk_logD ..) ha.2

theorem State.word_trigPulse (s : State) (p a : Nat) : (s.trigPulse p).word a = s.word a := by
  unfold State.trigPulse
  generalize List.range 4 = l
  induction l generalizing s with
  | nil => rfl
  | cons k l ih =>
    refine (ih _).trans ?_
    dsimp only
    split <;> rfl

/-- A stopped takeover shows in ROLE_ACTIVE of the spare and FO_BUSY of the stage. -/
theorem State.word_stopCopy (s : State) (p : Nat) {a : Nat} (h0 : a ≠ partBase p + 0x0) (h1 : ∀ q, a ≠ partBase q + 0x30) :
    (s.stopCopy p).word a = s.word a := by
  have hb : ∀ (t : State) q, (t.setFlag (PCTL_FO_FO_BUSY q) false).word a = t.word a := fun t q =>
    State.word_setFld_ne t _ _ a ⟨h1 q, .inl (by simp)⟩
  have hr : ∀ t : State, (t.setFld (PCTL_ROLE_ROLE_ACTIVE p) 6).word a = t.word a := fun t =>
    State.word_setFld_ne t _ _ a ⟨h0, .inl (by simp)⟩
  have hu : ∀ (t : State) u, (t.useEnd u).word a = t.word a := fun _ _ => rfl
  have hf : ∀ (t : State) q x, (t.setFo q x).word a = t.word a := fun _ _ _ => rfl
  unfold State.stopCopy
  generalize List.range 8 = l
  induction l generalizing s with
  | nil => rfl
  | cons q l ih =>
    refine (ih _).trans ?_
    dsimp only
    split
    · rw [hu, hr, hb, hf]
    · rfl

/-- The registers of a fault, before failover: cause and cluster of the first one, and the flags. -/
def State.faultNoted (s : State) (p cause clu : Nat) : State :=
  let s1 := if !s.flag (PCTL_FAULT_FATAL p) then (s.setFld (PCTL_FAULT_CAUSE p) cause).setFld (PCTL_FAULT_CLUSTER p) clu else s
  let s2 := ((s1.setFlag (PCTL_STS_FAILED p) true).setFlag (PCTL_FAULT_FATAL p) true).setFlag (PCTL_FAULT_ALERT_PEND p) true
  (s2.logD ev_COMPUTE_FATAL (blkPart p) 0 [cause]).setFlag (PCTL_STS_RUNNING p) false

/-- What comes after them leaves status and fault of the partition. -/
theorem State.word_computeFatal (s : State) (p cause clu : Nat) {o : Nat} (h0 : o < 0x8000) (h1 : o ≠ 0) (h2 : o ≠ 0x30) :
    (s.computeFatal p cause clu).word (partBase p + o) = (s.faultNoted p cause clu).word (partBase p + o) := by
  have hs : (((s.faultNoted p cause clu).trigPulse p).stopCopy p).word (partBase p + o) = (s.faultNoted p cause clu).word (partBase p + o) :=
    (State.word_stopCopy _ p (by omega) (fun q => by unfold partBase; omega)).trans (State.word_trigPulse ..)
  unfold State.computeFatal
  extract_lets first s1 s2 s3
  have h3 : s3.word (partBase p + o) = (s.faultNoted p cause clu).word (partBase p + o) := hs
  split
  · exact (State.word_foTrigger _ _ (platReg_part p (.inl h0))).trans h3
  · exact h3

theorem State.faultNoted_shows (s : State) (p cause clu : Nat) : let t := s.faultNoted p cause clu
    t.flag (PCTL_STS_FAILED p) = true ∧ t.flag (PCTL_FAULT_FATAL p) = true ∧ t.flag (PCTL_FAULT_ALERT_PEND p) = true ∧
      t.flag (PCTL_STS_RUNNING p) = false ∧ (s.flag (PCTL_FAULT_FATAL p) = false →
        t.fld (PCTL_FAULT_CAUSE p) = cause % 2 ^ 8 ∧ t.fld (PCTL_FAULT_CLUSTER p) = clu % 2 ^ 5) := by
  unfold State.faultNoted
  extract_lets s1 s2
  have hlog : ∀ {o lo w : Nat}, o < 0x8000 → lo + w ≤ 32 → (s2.logD ev_COMPUTE_FATAL (blkPart p) 0 [cause]).fld ⟨partBase p + o, lo, w⟩ =
      s2.fld ⟨partBase p + o, lo, w⟩ := fun ho hw =>
    (State.SameFrames.of_desk (State.desk_logD ..)).fld _ hw (platReg_part p (.inl ho))
  have hpart : ∀ {o lo w : Nat}, o < 0x8000 → lo + w ≤ 32 → o ≠ 0x40 ∨ 1 ≤ lo →
      ((s2.logD ev_COMPUTE_FATAL (blkPart p) 0 [cause]).setFlag (PCTL_STS_RUNNING p) false).fld ⟨partBase p + o, lo, w⟩ =
        s2.fld ⟨partBase p + o, lo, w⟩ := fun ho hw h =>
    (State.fld_setFld_apart _ _ _ _ (by simp) hw (by simp only; omega)).trans (hlog ho hw)
  have h40 : partBase p + 0x40 ≠ partBase p + 0x54 := by omega
  have hf : s2.flag (PCTL_STS_FAILED p) = true := by
    unfold s2
    rw [State.flag_setFlag_apart _ _ _ _ (by simp) (by simp) (.inl h40), State.flag_setFlag_apart _ _ _ _ (by simp) (by simp) (.inl h40)]
    exact State.flag_setFlag_same _ _ _ (by simp) rfl
  have hfatal : s2.flag (PCTL_FAULT_FATAL p) = true := by
    unfold s2
    rw [State.flag_setFlag_apart _ _ _ _ (by simp) (by simp) (.inr (.inr (by simp)))]
    exact State.flag_setFlag_same _ _ _ (by simp) rfl
  have hpend : s2.flag (PCTL_FAULT_ALERT_PEND p) = true := State.flag_setFlag_same _ _ _ (by simp) rfl
  refine ⟨?_, ?_, ?_, State.flag_setFlag_same _ _ _ (by simp) rfl, fun hfirst => ?_⟩
  · rw [State.flag, hpart (by decide) (by decide) (.inr (by decide))]
    exact hf
  · rw [State.flag, hpart (by decide) (by decide) (.inl (by decide))]
    exact hfatal
  · rw [State.flag, hpart (by decide) (by decide) (.inl (by decide))]
    exact hpend
  · have hlow : ∀ {lo w : Nat}, lo + w ≤ 28 → s2.fld ⟨partBase p + 0x54, lo, w⟩ =
        ((s.setFld (PCTL_FAULT_CAUSE p) cause).setFld (PCTL_FAULT_CLUSTER p) clu).fld ⟨partBase p + 0x54, lo, w⟩ := fun {lo w} hw => by
      have h1 : s1 = (s.setFld (PCTL_FAULT_CAUSE p) cause).setFld (PCTL_FAULT_CLUSTER p) clu := if_pos (by rw [hfirst]; rfl)
      unfold s2
      rw [State.setFlag, State.fld_setFld_apart _ _ _ _ (by simp) (by simp only; omega) (.inr (.inl (by simp only; omega))),
        State.setFlag, State.fld_setFld_apart _ _ _ _ (by simp) (by simp only; omega) (.inr (.inl (by simp only; omega))),
        State.setFlag, State.fld_setFld_apart _ _ _ _ (by simp) (by simp only; omega) (.inl h40.symm), h1]
    refine ⟨?_, ?_⟩
    · rw [hpart (by decide) (by decide) (.inl (by decide)), hlow (by decide),
        State.fld_setFld_apart _ _ _ _ (by simp) (by simp) (.inr (.inl (by simp))), State.fld_setFld_same _ _ _ (by simp)]
    · rw [hpart (by decide) (by decide) (.inl (by decide)), hlow (by decide), State.fld_setFld_same _ _ _ (by simp)]

/-- A compute fault: the partition is FAILED and no longer runs; the first one's cause and cluster stand. -/
theorem State.computeFatal_shows (s : State) (p cause clu : Nat) : let t := s.computeFatal p cause clu
    t.flag (PCTL_STS_FAILED p) = true ∧ t.flag (PCTL_FAULT_FATAL p) = true ∧ t.flag (PCTL_FAULT_ALERT_PEND p) = true ∧
      t.flag (PCTL_STS_RUNNING p) = false ∧ (s.flag (PCTL_FAULT_FATAL p) = false →
        t.fld (PCTL_FAULT_CAUSE p) = cause % 2 ^ 8 ∧ t.fld (PCTL_FAULT_CLUSTER p) = clu % 2 ^ 5) := by
  have hfld : ∀ {o lo w : Nat}, o = 0x40 ∨ o = 0x54 → lo + w ≤ 32 →
      (s.computeFatal p cause clu).fld ⟨partBase p + o, lo, w⟩ = (s.faultNoted p cause clu).fld ⟨partBase p + o, lo, w⟩ := fun ho hw =>
    State.fld_of_word _ hw (s.word_computeFatal p cause clu (by omega) (by omega) (by omega))
  have h := s.faultNoted_shows p cause clu
  simpa only [State.flag, hfld (.inl rfl) (show 0 + 1 ≤ 32 by decide), hfld (.inl rfl) (show 1 + 1 ≤ 32 by decide),
    hfld (.inr rfl) (show 31 + 1 ≤ 32 by decide), hfld (.inr rfl) (show 28 + 1 ≤ 32 by decide),
    hfld (.inr rfl) (show 0 + 8 ≤ 32 by decide), hfld (.inr rfl) (show 8 + 5 ≤ 32 by decide)] using h

/-! ### The steps of a takeover -/

/-- A takeover starts at the boundary after its trigger. -/
theorem State.foTurn_of_triggered {s : State} {p : Nat} (h : (s.foOf p).phase = .triggered) : let t := s.foTurn p
    (t.foOf p).phase = .copying ∧ t.flag (PCTL_FO_FO_BUSY p) = true ∧ t.flag (PCTL_STS_FAILED p) = true ∧
      t.fld (PCTL_ROLE_ROLE_ACTIVE p) = 6 := by
  have ht : s.foTurn p = ((((((s.setFo p { s.foOf p with phase := .copying }).setFlag (PCTL_FO_FO_BUSY p) true).setFld
      (PCTL_ROLE_ROLE_ACTIVE p) 6).setFlag (PCTL_STS_FAILED p) true).setFlag (PCTL_STS_RUNNING p) false).logD ev_FO_START
      (blkPart p) 0 [p, (s.foOf p).spare]) := by
    simp only [State.foTurn, h]
  have hlog : ∀ (u : State) {o lo w : Nat}, o < 0x8000 → lo + w ≤ 32 →
      (u.logD ev_FO_START (blkPart p) 0 [p, (s.foOf p).spare]).fld ⟨partBase p + o, lo, w⟩ = u.fld ⟨partBase p + o, lo, w⟩ :=
    fun u _ _ _ ho hw => (State.SameFrames.of_desk (State.desk_logD ..)).fld _ hw (platReg_part p (.inl ho))
  rw [ht]
  refine ⟨?_, ?_, ?_, ?_⟩
  · rw [State.foOf_of_fo (State.fo_of_desk (State.desk_logD ..)),
      State.foOf_of_fo (s := s.setFo p { s.foOf p with phase := .copying }) (by simp), State.foOf_setFo_same]
  · rw [State.flag, hlog _ (by decide) (by decide), ← State.flag, State.flag_setFlag_apart _ _ _ _ (by simp) (by simp) (.inl (by simp)),
      State.flag_setFlag_apart _ _ _ _ (by simp) (by simp) (.inl (by simp)),
      State.flag_setFld_apart _ _ _ _ (by simp) (by simp) (.inl (by simp)), State.flag_setFlag_same _ _ _ (by simp) rfl]
  · rw [State.flag, hlog _ (by decide) (by decide), ← State.flag,
      State.flag_setFlag_apart _ _ _ _ (by simp) (by simp) (.inr (.inr (by simp))), State.flag_setFlag_same _ _ _ (by simp) rfl]
  · rw [hlog _ (by decide) (by decide), State.setFlag, State.fld_setFld_apart _ _ _ _ (by simp) (by simp) (.inl (by simp)),
      State.setFlag, State.fld_setFld_apart _ _ _ _ (by simp) (by simp) (.inl (by simp)), State.fld_setFld_same _ _ _ (by simp)]
    rfl

section Copy
variable {s c : State} {p cnt root sp a : Nat} {ok : Bool} (hph : (s.foOf p).phase = .copying) (hsp : (s.foOf p).spare = sp)
  (ha : s.fld (PCTL_FO_LIST_ADDR p) * 64 = a) (hw : s.awake sp = true) (hf : s.flag (PCTL_STS_FAILED sp) = false)
  (h1 : (s.listWord a 4).1 = some cnt) (h2 : ((s.listWord a 4).2.listWord (a + 8) 8).1 = some root)
  (hb : (((s.listWord a 4).2.listWord (a + 8) 8).2.copyList p sp a (min cnt 1024) 0).1 = ok)
  (hc : (((s.listWord a 4).2.listWord (a + 8) 8).2.copyList p sp a (min cnt 1024) 0).2 = c)
include hph hsp ha hw hf h1 h2 hb hc

/-- A copy whose list can be read. -/
theorem State.foCopy_of_list : s.foCopy p = if ok then
      if (c.copyFrames p sp).flag (PCTL_STS_FAILED sp) then c.copyFrames p sp
      else ((c.copyFrames p sp).setFo p ⟨.copied, sp, root⟩).useEnd (.copy p)
    else c.computeFatal sp 4 31 := by
  unfold State.foCopy
  simp [hph, hsp, ha, hw, hf, h1, h2, hb, hc]

/-- Its regions and frames copied. -/
theorem State.foOf_foCopy (hok : ok = true) (hs : (c.copyFrames p sp).flag (PCTL_STS_FAILED sp) = false) :
    (s.foCopy p).foOf p = ⟨.copied, sp, root⟩ := by
  rw [State.foCopy_of_list hph hsp ha hw hf h1 h2 hb hc, hok, if_pos rfl, hs, if_neg Bool.false_ne_true, State.foOf_useEnd,
    State.foOf_setFo_same]

/-- A region that cannot be copied faults the spare. -/
theorem State.failed_foCopy (hok : ok = false) : (s.foCopy p).flag (PCTL_STS_FAILED sp) = true := by
  obtain ⟨hfail, -⟩ := c.computeFatal_shows sp 4 31
  rw [State.foCopy_of_list hph hsp ha hw hf h1 h2 hb hc, hok, if_neg Bool.false_ne_true]
  exact hfail

end Copy

/-- An ignored trigger is logged. -/
theorem State.foTrigger_of_not_spareOk {s : State} {p : Nat} (h : s.spareOk p = false) : s.foTrigger p =
    s.logEvent ⟨0x0906, 0x10 + p, 0, s.beat.ts, BitVec.ofNat 64 0, Config.infoPack 0x0906 [p]⟩ := by
  rw [State.foTrigger, h, if_neg Bool.false_ne_true, State.logD, blkPart, ev_FO_IGNORED]

/-- An accepted one stands in the takeover's record. -/
theorem State.foOf_foTrigger {s : State} {p : Nat} (h : s.spareOk p = true) :
    (s.foTrigger p).foOf p = ⟨.triggered, s.fld (PCTL_FO_SPARE p), 0⟩ := by
  rw [State.foTrigger, if_pos h, State.foOf_of_fo (State.fo_wakeEvent ..), State.foOf_setFo_same]

/-! ### O35 -/

/-- Settles O35, from what a compute fault shows and what a takeover's steps set. -/
theorem failoverSteps : Obligations.FailoverSteps := by
  unfold Obligations.FailoverSteps
  refine ⟨fun s p => ⟨fun h => ?_, fun h => ?_⟩, fun s p h => State.foTurn_of_triggered h, fun s p cnt root => ?_, fun s p => ?_⟩
  · exact ⟨s.foTrigger p, rfl, State.foOf_foTrigger h⟩
  · exact ⟨_, rfl, rfl, congrArg Host.Outcome.next (State.foTrigger_of_not_spareOk h)⟩
  · dsimp only
    intro hph hw hf h1 h2
    exact ⟨fun hc hs => ⟨s.foCopy p, rfl, State.foOf_foCopy hph rfl rfl hw hf h1 h2 hc rfl rfl hs⟩,
      fun hc => ⟨s.foCopy p, rfl, State.failed_foCopy hph rfl rfl hw hf h1 h2 hc rfl rfl⟩⟩
  · exact ⟨s.computeFatal p 3 31, rfl, s.computeFatal_shows p 3 31⟩

end Sys2Proof.Machine
end

section
/-!
SUPPORT. O34 fails: it is stated of every state, and in one whose frame table is not in ascending order an acknowledgement is not the input's
that was found (R101).
-/
namespace Sys2Proof.Machine

/-- A plat whose table names frame 1 before frame 0; both are TAKEN for slot 0, and frame 1's output is owed. -/
def unsortedPlat : PlatSt :=
  let x : Frame := { Frame.none with st := .taken }
  { platReset with frames := [(1, { x with out := ⟨some 0, none⟩ }), (0, x)] }

/-- The reset state with that plat at partition 0. -/
def unsortedPlats : State := { State.reset with plats := [(0, unsortedPlat)] }

/-- No canonical state: the table's keys do not rise. -/
theorem unsortedPlat_not_wf : Tbl.wf (fun _ => Frame.none) unsortedPlat.frames = false := by decide

/-- The first input that the table names is frame 1. -/
theorem answered_unsorted : unsortedPlats.answered 0 0 0 false = some 1 := by decide

theorem forwardsTo_unsorted : unsortedPlats.forwardsTo 0 = none := by decide

/-- The acknowledgement first notes that frame 1's output is complete, which writes its record behind frame 0's; then frame 0 is found, and
frame 1 stays TAKEN. -/
theorem frame_putAcknowledgement_unsorted :
    ∃ t, exec (.putAcknowledgement 0 0 0) unsortedPlats = .next t ∧ (t.frame 0 1).st = .taken :=
  ⟨_, rfl, by decide⟩

/-- Refutes O34: the input that is found first does not become ACKED where the plat's frame table is out of order (`unsortedPlats`). The
statement lacks the premise that the table is canonical. -/
theorem not_stageIntakeAndOutputs : ¬Obligations.StageIntakeAndOutputs := by
  unfold Obligations.StageIntakeAndOutputs
  rintro ⟨hanswers, -, -⟩
  obtain ⟨hinput, -⟩ := hanswers unsortedPlats 0 0 0 forwardsTo_unsorted
  obtain ⟨⟨t, ht, hst, -⟩, -⟩ := hinput 1 answered_unsorted
  obtain ⟨u, hu, hst'⟩ := frame_putAcknowledgement_unsorted
  obtain rfl := Host.Outcome.next.inj (ht.symm.trans hu)
  exact absurd (hst.symm.trans hst') (by decide)

end Sys2Proof.Machine
end
